-- ==== Sys2Proof/Word.lean ====
section
/-! DEFINITION. The byte and the byte string, and a sparse table keyed by natural numbers. -/
namespace Sys2Proof

/-- One byte. -/
abbrev Byte := BitVec 8

/-- A string of bytes, the first byte at the lowest offset. -/
abbrev Bytes := List Byte

/-- A sparse table: pairs of key and value, keys rising. -/
abbrev Tab (α : Type) := List (Nat × α)

end Sys2Proof
end

