-- ==== Sys2Proof/Syntax.lean ====
section
/-! DEFINITION. The commands of the block: one constructor for each row of the table of operations and events, with the
operands that the row's rule names. Resource numbers are bounded by their type (00 R9). -/
namespace Sys2Proof

/-- The roles of 00 R14. -/
inductive Role where
  | P
  | O
  | U
  | M
  | S
  | D
deriving DecidableEq, Repr

/-- Diagnostics of one load channel in a status frame (13 R409): output voltage 10 mV, current mA, temperature 0.1 °C. -/
structure LoadDiag where
  volt : Nat
  curr : Nat
  temp : Int
deriving DecidableEq, Repr

/-- What the Mill die latches at cycle 0 and sends in the status frame (01 R21), with the measures of the tick that come
from outside: encoder counts of each axis and channel in their order, the comparator inputs OC0 to OC7 in 0.5 mV, the load
channels, the banks (VLSb 10 mV, temperature 0.1 °C, undervoltage), the 32 Twist receive samples of the tick before of each lane (15 R440, I16 of 2^-11 V);
the pilot levels are in the link frames; `late` names the windows and tasks unfinished at their
deadline in this tick, `limited` the lanes whose driver has reached 3 A (15 R439), `cycles` the cycles each window and task has used, `battery` the count of the battery clock's crystal. -/
structure StatusFrame where
  enc : List (Int × Int)
  oc : List Int
  loads : List LoadDiag
  banks : List (Nat × Int)
  twist : List (List Int)
  limited : List Nat
  late : List Nat
  cycles : List Nat
  battery : Option (Nat × Nat)
deriving DecidableEq, Repr

/-- What a start of the Loom die finds (09 R290): the count of the battery clock's crystal (seconds, 2^-15 s; none where it does not count), the RPOS straps
and whether another part holds the same position, the results of the known-answer tests of the Whorl pairs, the image kinds whose check fails in their active slot
and in the other slot, whether every codeword of the live billing bank decodes, and the battery voltage in mV. -/
structure StartInputs where
  battery : Option (Nat × Nat)
  straps : Fin 8
  duplicate : Bool
  pair0 : Bool
  pair1 : Bool
  activeBad : List Nat
  otherBad : List Nat
  liveGood : Bool
  vbat : Nat
deriving DecidableEq, Repr

/-- A mesh frame as its receiver parses it (16 R467): type, hop addresses, far address, direction, acknowledgement flags and
payload. -/
structure MeshFrame where
  ty : Nat
  hopSrc : Nat
  hopDst : Nat
  far : Nat
  up : Bool
  ack : Bool
  payload : Bytes
deriving DecidableEq, Repr


/-- A card that answers a poll (17 R494, R495): its UID or PUPI, its ATQA and SAK or its ATQB, and for Type B the slot it takes in each REQB
round, of which the slot count takes the remainder. -/
structure CardSeen where
  ident : List (BitVec 8)
  info : List (BitVec 8)
  slots : List Nat
deriving DecidableEq, Repr

/-- A Blucheand tag in the field (17 R498, R500): its identifier, its flags byte and its highest block. -/
structure TagSeen where
  ident : Nat
  flags : Nat
  top : Nat
deriving DecidableEq, Repr

/-- What a reader channel finds at an antenna: the drive current measured, the cards of either type and the tags. -/
structure VisitSeen where
  current : Nat
  cardsA : List CardSeen
  cardsB : List CardSeen
  tags : List TagSeen
deriving DecidableEq, Repr

/-- The answer of the Selected tag to a command: none, a collision, or its status byte and what follows up to the CRC. -/
inductive TagAnswer where
  | silent
  | collision
  | reply (status : Nat) (rest : List (BitVec 8))
deriving DecidableEq, Repr

/-- The answer of a card to a frame of the host. -/
inductive CardAnswer where
  | frame (b : List (BitVec 8))
  | timeout
  | crcError
  | parityError
deriving DecidableEq, Repr

/-- What a codeword holds (21 R615): the memory of a Whorl pair; billing engine state, sample memory, processor code and data; the save
buffer; the record of a collector's endpoint; the first whole frame of a Twist lane, the calibration capture of a channel, a record of
a stream channel by its place; a block of the mirror window; a block of the frame memory of a port; a record with its own CRC with the
offset of the codeword in it; another object of class N; a half of a Bobbin slot; an image. -/
inductive MemPlace where
  | whorl (p : Fin 2)
  | fabric
  | saveBuffer
  | endpoint (addr : Nat)
  | frame (l : Fin 3)
  | capture (c : Fin 288)
  | record (v : Fin 16) (n : Nat)
  | mirror (block : Fin 2048)
  | display (p : Fin 2) (block : Fin 256)
  | crcRecord (ix sub off : Nat)
  | object (ix sub : Nat)
  | bobbin (slot : Fin 128) (pend : Bool)
  | image (k : Fin 3)
deriving DecidableEq, Repr
/-- The commands (the rows of spec/opcode_table.json, in its order). -/
inductive Instr where
  /-- WARP_TICK (R28) -/
  | warpTick (f : StatusFrame)
  /-- FORCED_QUANTUM_CLOSE (R170) -/
  | forcedQuantumClose (m : Fin 36)
  /-- QUANTUM_REGISTRATION (R174) -/
  | quantumRegistration (m : Fin 36)
  /-- PILOT_STATE_CHANGE (R314) -/
  | pilotStateChange (o : Fin 32)
  /-- CLOCK_FAULT (R25) -/
  | clockFault
  /-- HOLDOVER_ENTRY (R39) -/
  | holdoverEntry
  /-- MASTER_TAKEOVER (R40) -/
  | masterTakeover
  /-- MASTER_RESTORE (R40) -/
  | masterRestore
  /-- SHARE_FALLBACK (R42) -/
  | shareFallback
  /-- SUPPLY_WARNING (R292) -/
  | supplyWarning
  /-- POWER_FAIL_SAVE_START (R32) -/
  | powerFailSaveStart
  /-- SUPPLY_WARNING_HOLD (R294) -/
  | supplyWarningHold
  /-- SAVE_COMMIT (R295) -/
  | saveCommit
  /-- STAGED_RECORDS_WRITE (R265) -/
  | stagedRecordsWrite
  /-- SUPPLY_WARNING_CLEAR (R292) -/
  | supplyWarningClear
  /-- BROWN_OUT_RECOVERY (R296) -/
  | brownOutRecovery
  /-- SUPPLY_RESET (R298) -/
  | supplyReset
  /-- POWER_ON_RESET (R298) -/
  | powerOnReset
  /-- POWER_ON_RESET_RELEASE (R288) -/
  | powerOnResetRelease
  /-- WARM_RESET (R298) -/
  | warmReset
  /-- WATCHDOG_EXPIRY (R298) -/
  | watchdogExpiry
  /-- COLD_START (R290) -/
  | coldStart (x : StartInputs)
  /-- WARM_START (R290) -/
  | warmStart (x : StartInputs)
  /-- FIRST_TICK_AFTER_START (R300) -/
  | firstTickAfterStart
  /-- RESET_HOLD_EXPIRY (R303) -/
  | resetHoldExpiry
  /-- GROUP_CURRENT_CONFIRMED (R304): the group, and its comparator levels in the latest ticks, in 0.5 mV -/
  | groupCurrentConfirmed (seen : Fin 8 × List Int)
  /-- CONTACTOR_RELEASE_DELAY (R304) -/
  | contactorReleaseDelay (g : Fin 8)
  /-- GROUP_CONFIRM_TIMEOUT (R304) -/
  | groupConfirmTimeout (g : Fin 8)
  /-- CONTROL_RECLAIM (R302) -/
  | controlReclaim (micros : Nat)
  /-- COMMAND_WARM_RESET (R301) -/
  | commandWarmReset (role : Role) (v : Nat)
  /-- ISLAND_HEARTBEAT_TIMEOUT (R393) -/
  | islandHeartbeatTimeout
  /-- DICTIONARY_REQUEST (R55) -/
  | dictionaryRequest (q : Fin 4) (frame : Bytes)
  /-- DICTIONARY_READ (R59) -/
  | dictionaryRead
  /-- DICTIONARY_WRITE (R58) -/
  | dictionaryWrite
  /-- WRITE_TAKES_EFFECT (R58) -/
  | writeTakesEffect
  /-- MRAM_COMMIT (R49) -/
  | mramCommit
  /-- SEGMENT_WRITE (R79) -/
  | segmentWrite
  /-- SEGMENT_READ (R82) -/
  | segmentRead
  /-- SEGMENT_TRANSFER_TIMEOUT (R81) -/
  | segmentTransferTimeout (i : Fin 4)
  /-- SOURCE_RECORD_RELEASE (R68) -/
  | sourceRecordRelease (r : Fin 48)
  /-- ETHERNET_DATAGRAM (R72): `ip` and `ports` are those of the source and of the destination -/
  | ethernetDatagram (e : Fin 2) (v6 : Bool) (ip : Bytes × Bytes) (ports : Nat × Nat) (fragmented : Bool) (frame : Bytes)
  /-- CAN_ENVELOPE_DOWNLOAD (R75): `load` is the index and the data -/
  | canEnvelopeDownload (p : Fin 2) (fd : Bool) (client : Fin 128) (load : Nat × Bytes)
  /-- CAN_SDO_UPLOAD (R75) -/
  | canSdoUpload (p : Fin 2) (fd : Bool) (client : Fin 128) (ix sub : Nat)
  /-- COMPACT_REQUEST (R78) -/
  | compactRequest (l : Fin 3) (f : MeshFrame)
  /-- MAILBOX_SUBMIT (R543) -/
  | mailboxSubmit (q : Fin 4) (len : Nat) (frame : Bytes)
  /-- MAILBOX_RELEASE (R543) -/
  | mailboxRelease (q : Fin 4)
  /-- HSTAT_CLEAR (R542) -/
  | hstatClear (mask : Nat)
  /-- EVPEND_CLEAR (R544) -/
  | evpendClear (i : Fin 8) (mask : Nat)
  /-- MIRROR_WRITE (R539): a 32-bit write of the host port at any address (R539) -/
  | mirrorWrite (addr : Nat) (data : Nat)
  /-- CLEAR_EVENTS (R616) -/
  | clearEvents (role : Role) (v : Bytes)
  /-- UPSTREAM_FRAME (R92): `arrival` tells when the marker and when the modem section came -/
  | upstreamFrame (l : Fin 36) (arrival : Nat × Nat) (frame : Bytes)
  /-- CORE_MISSING (R107) -/
  | coreMissing (l : Fin 36)
  /-- LINK_ACQUIRE (R103) -/
  | linkAcquire (l : Fin 36)
  /-- CHARACTER_ALIGNMENT_HELD (R103) -/
  | characterAlignmentHeld (l : Fin 36)
  /-- CAPABILITY_TRAINING_SET (R104) -/
  | capabilityTrainingSet (l : Fin 36) (set : Bytes)
  /-- ALIGN_COMPLETE (R103): `arrival` tells when the latest marker came -/
  | alignComplete (l : Fin 36) (arrival : Nat)
  /-- RATE_SWITCH_TICK (R104) -/
  | rateSwitchTick (l : Fin 36)
  /-- GEN2_ACQUISITION_TIMEOUT (R105) -/
  | gen2AcquisitionTimeout (l : Fin 36)
  /-- FOUR_FRAMES_WITHOUT_CORE (R107) -/
  | fourFramesWithoutCore (l : Fin 36)
  /-- MARKER_OUT_OF_TIME (R107) -/
  | markerOutOfTime (l : Fin 36)
  /-- ALIGNMENT_LOST (R107) -/
  | alignmentLost (l : Fin 36)
  /-- RECOVER_SUCCESS (R103) -/
  | recoverSuccess (l : Fin 36)
  /-- RECOVER_TIMEOUT (R103) -/
  | recoverTimeout (l : Fin 36)
  /-- LINK_DISABLE (R109) -/
  | linkDisable (role : Role) (l : Fin 36)
  /-- LINK_ENABLE (R103) -/
  | linkEnable (role : Role) (l : Fin 36)
  /-- ACCEPT_NEW_HEAD (R106) -/
  | acceptNewHead (role : Role) (l : Fin 36) (v : Nat)
  /-- HEAD_REGISTER_ACCESS (R99) -/
  | headRegisterAccess (role : Role) (l : Fin 36) (v : Nat)
  /-- CHANNEL_CONFIGURATION_WRITTEN (R153) -/
  | channelConfigurationWritten (role : Role) (c : Fin 288) (sub v : Nat)
  /-- FILTER_BANK_WRITTEN (R131) -/
  | filterBankWritten (role : Role) (p : Fin 4) (stage : Fin 4) (bank : Fin 2) (v : Bytes)
  /-- BANK_SWAP (R137) -/
  | bankSwap (role : Role) (p : Fin 4) (v : Bytes)
  /-- LOAD_DEFAULTS (R132) -/
  | loadDefaults (role : Role) (p : Fin 4) (v : Nat)
  /-- LOCK_GROUP_WRITE (R147) -/
  | lockGroupWrite (role : Role) (g : Fin 4) (sub v : Nat)
  /-- METER_CONFIGURATION_WRITE (R187) -/
  | meterConfigurationWrite (role : Role) (m : Fin 36) (off : Fin 5) (sub v : Nat)
  /-- PULSE_WIDTH_EXPIRY (R189) -/
  | pulseWidthExpiry (j : Fin 4)
  /-- PULSE_OUTPUT_CONFIGURATION (R191) -/
  | pulseOutputConfiguration (role : Role) (j : Fin 4) (sub v : Nat)
  /-- CALIBRATION_CONSTANT_WRITTEN (R198) -/
  | calibrationConstantWritten (role : Role) (c : Fin 288) (sub : Nat) (v : Bytes)
  /-- CAPTURE_START (R207) -/
  | captureStart (role : Role) (c : Fin 288) (v : Nat)
  /-- CAPTURE_CANCEL (R209) -/
  | captureCancel (role : Role) (c : Fin 288)
  /-- CAPTURE_COMPLETE (R207) -/
  | captureComplete (c : Fin 288)
  /-- TEMPERATURE_SOURCE_FAILURE (R200) -/
  | temperatureSourceFailure (c : Fin 288)
  /-- CALIBRATION_RECORD_CHECK (R225) -/
  | calibrationRecordCheck
  /-- BOUNDARY_STEP (R250) -/
  | boundaryStep
  /-- SUBINTERVAL_DEVICE_TIME_CLOSE (R249) -/
  | subintervalDeviceTimeClose (m : Fin 36)
  /-- HELD_BOUNDARY_STEP (R263) -/
  | heldBoundaryStep
  /-- STAGED_RECORD_COMMIT (R264) -/
  | stagedRecordCommit
  /-- STEP_CIVIL_TIME (R234) -/
  | stepCivilTime (role : Role) (v : Bytes)
  /-- SLEW_CIVIL_TIME (R234) -/
  | slewCivilTime (role : Role) (v : Nat)
  /-- BATTERY_CLOCK_COPY (R235) -/
  | batteryClockCopy
  /-- BILLING_CONTROL_WRITE (R248) -/
  | billingControlWrite (role : Role) (m : Fin 36) (sub v : Nat)
  /-- PASSIVE_CALENDAR_WRITE (R239) -/
  | passiveCalendarWrite (role : Role) (k : Fin 4) (v : Bytes)
  /-- ACTIVATION_TIME_WRITE (R241) -/
  | activationTimeWrite (role : Role) (k : Fin 4) (v : Nat)
  /-- COMMAND_SNAPSHOT (R252) -/
  | commandSnapshot (role : Role)
  /-- COMMAND_SNAPSHOT_RESET_MAXIMA (R252) -/
  | commandSnapshotResetMaxima (role : Role)
  /-- SESSION_RECORD_CLOSE (R256) -/
  | sessionRecordClose (o : Fin 32)
  /-- REQUEST_READING (R278) -/
  | requestReading (role : Role) (m : Fin 36) (v : Nat)
  /-- PERIODIC_READING (R268) -/
  | periodicReading (m : Fin 36)
  /-- READING_SIGNED (R272) -/
  | readingSigned
  /-- READING_GIVEN_OUT (R273) -/
  | readingGivenOut
  /-- READING_REISSUE (R276) -/
  | readingReissue
  /-- TAMPER_INPUT_CHANGE (R285): the level seen, and in how many consecutive samples -/
  | tamperInputChange (i : Fin 8) (level : Bool × Nat) (battery : Nat × Nat)
  /-- TAMPER_RECORD_COPY (R286) -/
  | tamperRecordCopy (r : Fin 64)
  /-- BATTERY_LOW (R283) -/
  | batteryLow
  /-- TAMPER_DOMAIN_STOP (R283) -/
  | tamperDomainStop
  /-- TAMPER_CONFIGURATION_WRITTEN (R287) -/
  | tamperConfigurationWritten (role : Role) (ix : Fin 2) (sub v : Nat)
  /-- CM_SLAC_PARM_REQ (R317) -/
  | cmSlacParmReq (o : Fin 32) (mac : Fin 281474976710656) (run : Nat)
  /-- CM_START_ATTEN_CHAR_IND (R317) -/
  | cmStartAttenCharInd (o : Fin 32) (mac : Fin 281474976710656) (run sounds : Nat)
  /-- CM_MNBC_SOUND_IND (R317) -/
  | cmMnbcSoundInd (o : Fin 32) (mac : Fin 281474976710656) (run : Nat) (atten : List Nat)
  /-- CM_ATTEN_CHAR_IND (R317) -/
  | cmAttenCharInd (o : Fin 32)
  /-- CM_SLAC_MATCH_REQ (R317) -/
  | cmSlacMatchReq (o : Fin 32) (mac : Fin 281474976710656) (run : Nat)
  /-- VEHICLE_LINK_TIMEOUT (R318) -/
  | vehicleLinkTimeout (o : Fin 32)
  /-- VEHICLE_CAN_FRAME (R319) -/
  | vehicleCanFrame (o : Fin 32) (id : Nat) (data : Bytes)
  /-- CHADEMO_VEHICLE_FRAME (R320) -/
  | chademoVehicleFrame (o : Fin 32) (data : Bytes)
  /-- GBT_BCL (R320) -/
  | gbtBcl (o : Fin 32) (data : Bytes)
  /-- GBT_BST (R320): the outlet and the data of the frame -/
  | gbtBst (frame : Fin 32 × Bytes)
  /-- CAN_REQUEST_TIMEOUT (R320) -/
  | canRequestTimeout (o : Fin 32)
  /-- CE_LOW (R323) -/
  | ceLow (o : Fin 32)
  /-- HOST_LIMITS_WRITE (R324) -/
  | hostLimitsWrite (role : Role) (o : Fin 32) (sub v : Nat)
  /-- LIMITS_STALE (R324) -/
  | limitsStale (o : Fin 32)
  /-- STEP_TIMEOUT (R326) -/
  | stepTimeout (o : Fin 32)
  /-- WELDED_CONTACTOR (R330) -/
  | weldedContactor (o : Fin 32)
  /-- START_PERMIT (R327) -/
  | startPermit (role : Role) (o : Fin 32) (v : Nat)
  /-- END_REQUEST_NORMAL (R328) -/
  | endRequestNormal (role : Role) (o : Fin 32)
  /-- END_REQUEST_VEHICLE (R328) -/
  | endRequestVehicle (role : Role) (o : Fin 32)
  /-- END_REQUEST_HOST (R328) -/
  | endRequestHost (role : Role) (o : Fin 32)
  /-- RETURN_TO_SERVICE (R330) -/
  | returnToService (role : Role) (o : Fin 32) (v : Nat)
  /-- OUTLET_CONFIGURATION_WRITE (R334) -/
  | outletConfigurationWrite (role : Role) (o : Fin 32) (sub v : Nat)
  /-- CURTAILMENT_WRITE (R340) -/
  | curtailmentWrite (role : Role) (v : Bytes)
  /-- CURTAILMENT_START (R340) -/
  | curtailmentStart
  /-- CURTAILMENT_EXPIRY (R340) -/
  | curtailmentExpiry
  /-- COMPARATOR_TRIP (R351) -/
  | comparatorTrip (g : Fin 8) (level : Int)
  /-- SELF_TEST_FIRST_CHECK (R358) -/
  | selfTestFirstCheck (o : Fin 32)
  /-- SELF_TEST_SECOND_CHECK (R358) -/
  | selfTestSecondCheck (o : Fin 32)
  /-- INSULATION_STATE_SWITCH (R360) -/
  | insulationStateSwitch (o : Fin 32)
  /-- INSULATION_MEASUREMENT (R361) -/
  | insulationMeasurement (o : Fin 32)
  /-- CLEAR_LATCH (R366) -/
  | clearLatch (role : Role) (g : Fin 8) (v : Nat)
  /-- CLEAR_TRIP (R367) -/
  | clearTrip (role : Role) (o : Fin 32) (v : Nat)
  /-- AUTOMATIC_CLEAR (R367) -/
  | automaticClear (o : Fin 32)
  /-- PROTECTION_CONFIGURATION_WRITE (R368) -/
  | protectionConfigurationWrite (role : Role) (o : Fin 32) (insulation : Bool) (sub v : Nat)
  /-- ENCODER_CHANNEL_FAULT (R376) -/
  | encoderChannelFault (a : Fin 4) (y : Bool) (kind : Fin 3)
  /-- STO_APPLY (R380) -/
  | stoApply (role : Role) (a : Fin 4)
  /-- STO_RELEASE (R381) -/
  | stoRelease (role : Role) (a : Fin 4)
  /-- SS1_START (R380) -/
  | ss1Start (role : Role) (a : Fin 4)
  /-- SS1_END (R380) -/
  | ss1End (a : Fin 4)
  /-- DEGRADED_TIME_EXPIRY (R388) -/
  | degradedTimeExpiry (a : Fin 4)
  /-- REFERENCE (R382) -/
  | reference (role : Role) (a : Fin 4) (v : Nat)
  /-- INDEX_EDGE (R382) -/
  | indexEdge (a : Fin 4) (y : Bool) (latched : Int)
  /-- AXIS_CLEAR_TRIP (R397) -/
  | axisClearTrip (role : Role) (a : Fin 4) (v : Nat)
  /-- SAFETY_PARAMETER_WRITE (R396) -/
  | safetyParameterWrite (role : Role) (a : Fin 4) (sub v : Nat)
  /-- STO_TEST_PULSE (R387): the axis, and whether its output is Y -/
  | stoTestPulse (line : Fin 4 × Bool)
  /-- STO_OUTPUT_FAULT (R387) -/
  | stoOutputFault (a : Fin 4)
  /-- WHORL_PAIR_FAULT (R390) -/
  | whorlPairFault (p : Fin 2)
  /-- SPARE_KNOWN_ANSWER_TEST (R390) -/
  | spareKnownAnswerTest (passed : Bool)
  /-- TAKEOVER_COMPLETE (R390) -/
  | takeoverComplete
  /-- PAIR_SELF_TEST (R390) -/
  | pairSelfTest (p : Fin 2) (passed : Bool)
  /-- LOAD_CHANNEL_COMMAND (R413) -/
  | loadChannelCommand (role : Role) (n : Fin 64) (v : Nat)
  /-- LOAD_CHANNEL_CONFIGURATION (R413) -/
  | loadChannelConfiguration (role : Role) (n : Fin 64) (sub v : Nat)
  /-- RAMP_COMPLETE (R403) -/
  | rampComplete (n : Fin 64)
  /-- THERMAL_SHUTDOWN (R405) -/
  | thermalShutdown (n : Fin 64)
  /-- THERMAL_RESTART (R405) -/
  | thermalRestart (n : Fin 64)
  /-- ABSOLUTE_LIMIT (R405) -/
  | absoluteLimit (n : Fin 64)
  /-- CURRENT_LIMIT_ENTRY (R406) -/
  | currentLimitEntry (n : Fin 64)
  /-- LOAD_CLEAR_LATCH (R407) -/
  | loadClearLatch (role : Role) (n : Fin 64) (v : Nat)
  /-- BANK_UNDERVOLTAGE_ENTRY (R408) -/
  | bankUndervoltageEntry (b : Fin 8)
  /-- BANK_UNDERVOLTAGE_EXIT (R408) -/
  | bankUndervoltageExit (b : Fin 8)
  /-- BUDGET_SHED (R410) -/
  | budgetShed
  /-- BUDGET_RESTORE (R410) -/
  | budgetRestore
  /-- OPEN_LOAD_TEST_PHASE (R411) -/
  | openLoadTestPhase (n : Fin 64) (above : Bool)
  /-- FRAME_BOUNDARY (R425) -/
  | frameBoundary (p : Fin 2)
  /-- REGION_UPDATE (R425) -/
  | regionUpdate (role : Role) (p : Fin 2) (r : Fin 16) (v : Bytes)
  /-- WAVEFORM_TABLE_WRITE (R423) -/
  | waveformTableWrite (role : Role) (p : Fin 2) (band : Fin 6) (v : Bytes)
  /-- REGION_DEFINITION_WRITE (R430) -/
  | regionDefinitionWrite (role : Role) (p : Fin 2) (sub v : Nat)
  /-- PORT_DISABLE (R433) -/
  | portDisable (role : Role) (p : Fin 2)
  /-- PORT_ENABLE (R433) -/
  | portEnable (role : Role) (p : Fin 2)
  /-- CONTROL_FRAME (R455): the received codeword, and its bits that lie in erased slots -/
  | controlFrame (l : Fin 3) (code : Bytes) (erasures : List Nat)
  /-- BULK_BLOCK (R457) -/
  | bulkBlock (l : Fin 3) (rows : List Bytes) (erasures : List (List Nat))
  /-- BULK_FRAME (R458) -/
  | bulkFrame (l : Fin 3)
  /-- CONTROL_FRAME_TRANSMIT (R459) -/
  | controlFrameTransmit (l : Fin 3)
  /-- BULK_BURST_TRANSMIT (R459) -/
  | bulkBurstTransmit (l : Fin 3)
  /-- LANE_STATE_CHANGE (R445) -/
  | laneStateChange (l : Fin 3)
  /-- LANE_WRITE (R463) -/
  | laneWrite (role : Role) (l : Fin 3) (sub v : Nat)
  /-- PENDING_MAP_WRITE (R449) -/
  | pendingMapWrite (role : Role) (w : Fin 6) (v : Bytes)
  /-- MAP_ACTIVATION (R450) -/
  | mapActivation
  /-- MESH_ROLE_WRITE (R466) -/
  | meshRoleWrite (role : Role) (sub : Fin 2) (v : Nat)
  /-- BEACON (R470) -/
  | beacon (l : Fin 3) (f : MeshFrame)
  /-- BEACON_TRANSMIT (R470) -/
  | beaconTransmit
  /-- JOIN_REQUEST (R471) -/
  | joinRequest (l : Fin 3) (f : MeshFrame)
  /-- JOIN_ACCEPT (R471) -/
  | joinAccept (l : Fin 3) (f : MeshFrame)
  /-- JOIN_TIMEOUT (R471) -/
  | joinTimeout
  /-- KEEP_ALIVE (R469) -/
  | keepAlive (l : Fin 3) (f : MeshFrame)
  /-- SUBTREE_REFRESH (R474) -/
  | subtreeRefresh (l : Fin 3) (f : MeshFrame)
  /-- ACKNOWLEDGEMENT (R473) -/
  | acknowledgement (l : Fin 3) (f : MeshFrame)
  /-- ACKNOWLEDGEMENT_TIMEOUT (R473) -/
  | acknowledgementTimeout
  /-- ROUTE_ERROR (R472) -/
  | routeError (l : Fin 3) (f : MeshFrame)
  /-- MAP_DISTRIBUTION (R484) -/
  | mapDistribution (l : Fin 3) (f : MeshFrame)
  /-- BROADCAST_COMMAND (R481) -/
  | broadcastCommand (l : Fin 3) (f : MeshFrame)
  /-- DOWNWARD_ENTRY_EXPIRY (R472) -/
  | downwardEntryExpiry (dst : Nat)
  /-- PARENT_CHANGE (R474) -/
  | parentChange
  /-- BULK_QUEUE_FLUSH (R475) -/
  | bulkQueueFlush (l : Fin 3)
  /-- ENDPOINT_UNREACHABLE (R477) -/
  | endpointUnreachable (addr : Nat)
  /-- LISTING_ENTRY (R477) -/
  | listingEntry (role : Role) (v : Bytes)
  /-- REBUILD_END (R478) -/
  | rebuildEnd
  /-- READ_JOB_WRITE (R480) -/
  | readJobWrite (role : Role) (j : Fin 16) (v : Bytes)
  /-- READ_JOB_CYCLE (R480) -/
  | readJobCycle (j : Fin 16)
  /-- MESH_SUBMISSION (R481) -/
  | meshSubmission (tag : Nat) (payload : Bytes)
  /-- SUBMISSION_DEADLINE (R481) -/
  | submissionDeadline (tag : Nat)
  /-- METROLOGY_IMAGE_PIECE (R588) -/
  | metrologyImagePiece (l : Fin 3) (payload : Bytes)
  /-- ANTENNA_VISIT (R491) -/
  | antennaVisit (c : Fin 4) (x : VisitSeen)
  /-- DWELL_EXPIRY (R491) -/
  | dwellExpiry (c : Fin 4)
  /-- PRESENCE_CHECK (R491) -/
  | presenceCheck (c : Fin 4) (answered : List Bool)
  /-- CARD_FRAME (R495) -/
  | cardFrame (c : Fin 4) (wait : Nat) (frame : Bytes) (a : CardAnswer)
  /-- CARD_RELEASE (R495) -/
  | cardRelease (c : Fin 4)
  /-- HALT (R500) -/
  | halt (c : Fin 4)
  /-- REDRAW (R503) -/
  | redraw (c : Fin 4) (tags : List TagSeen)
  /-- GET_RANDOM (R504) -/
  | getRandom (c : Fin 4) (a : TagAnswer)
  /-- UNLOCK (R504) -/
  | unlock (c : Fin 4) (a : TagAnswer)
  /-- AUTH1 (R505) -/
  | auth1 (c : Fin 4) (a : TagAnswer)
  /-- AUTH2 (R505) -/
  | auth2 (c : Fin 4) (a : TagAnswer)
  /-- TAG_READ (R500) -/
  | tagRead (c : Fin 4) (block count : Nat) (a : TagAnswer)
  /-- WRITE_CMD (R507) -/
  | writeCmd (c : Fin 4) (a : TagAnswer)
  /-- WRITE_DATA (R507) -/
  | writeData (c : Fin 4) (a : TagAnswer)
  /-- COMMIT (R507) -/
  | commit (c : Fin 4) (a : TagAnswer)
  /-- CONFIRM (R507) -/
  | confirm (c : Fin 4) (a : TagAnswer)
  /-- TAG_WRITE (R507) -/
  | tagWrite (tag : Nat) (payload : Bytes)
  /-- FIELD_COLLAPSE (R508) -/
  | fieldCollapse (x : Fin 4 × Option Nat)
  /-- RE_ENTRY_WINDOW_EXPIRY (R508) -/
  | reEntryWindowExpiry (i : Nat)
  /-- READER_CHANNEL_DISABLE (R509) -/
  | readerChannelDisable (role : Role) (c : Fin 4)
  /-- SERVICE_REQUEST (R518): `units` are the count of the transfer and its kind -/
  | serviceRequest (q : Fin 38) (v : Fin 6) (locked : Bool) (units : Nat × Nat) (dt : Nat)
  /-- TRANSFER_COMPLETE (R519) -/
  | transferComplete (v : Fin 6) (more : Bool) (dt : Nat)
  /-- CREDIT_REFILL (R517) -/
  | creditRefill
  /-- WITHDRAWAL (R523) -/
  | withdrawal (q : Fin 38) (v : Fin 6) (dt : Nat)
  /-- RANK_WEIGHT_WRITE (R524) -/
  | rankWeightWrite (role : Role) (q : Fin 38) (sub v : Nat)
  /-- WAIT_THRESHOLD_REACHED (R527) -/
  | waitThresholdReached (q : Fin 38) (v : Fin 6)
  /-- OCCUPANCY_REFRESH (R526) -/
  | occupancyRefresh
  /-- STATISTICS_CLEAR (R536) -/
  | statisticsClear (role : Role) (v : Nat)
  /-- SOURCE_FENCE (R530) -/
  | sourceFence (q : Fin 4) (tid v : Nat)
  /-- GLOBAL_FENCE (R531) -/
  | globalFence (q : Fin 4) (tid v : Nat)
  /-- FENCE_MARKER (R533) -/
  | fenceMarker (v : Fin 16) (mask : Nat)
  /-- HANK_CELL (R548) -/
  | hankCell (cell : Bytes)
  /-- HANK_LINK_RUN (R547) -/
  | hankLinkRun
  /-- HANK_LINK_DOWN (R547) -/
  | hankLinkDown
  /-- HANK_RESEND_TIMEOUT (R548) -/
  | hankResendTimeout
  /-- CREDIT_CELL (R550) -/
  | creditCell (cell : Bytes)
  /-- CREDIT_CELL_TRANSMIT (R550) -/
  | creditCellTransmit
  /-- VEHICLE_LINK_RECORD (R553) -/
  | vehicleLinkRecord (word : Nat) (payload : Bytes)
  /-- CAPTURE_REQUEST (R555) -/
  | captureRequest (role : Role) (v : Bytes)
  /-- RING_PING (R557) -/
  | ringPing (p : Fin 2)
  /-- RING_ECHO (R557) -/
  | ringEcho (p : Fin 2) (rtt turnaround position : Nat)
  /-- RING_PORT_RUN (R557) -/
  | ringPortRun (p : Fin 2)
  /-- RING_PORT_DOWN (R557) -/
  | ringPortDown (p : Fin 2)
  /-- TICK_MARKER (R558) -/
  | tickMarker (p : Fin 2) (marker : Bytes) (offset : Int)
  /-- RING_FRAME (R559) -/
  | ringFrame (p : Fin 2) (frame : Bytes)
  /-- DEMAND_REPORT (R341) -/
  | demandReport (payload : Bytes) (source : Fin 8)
  /-- SITE_SHARES (R560) -/
  | siteShares (payload : Bytes)
  /-- CURTAILMENT_FORWARD (R341) -/
  | curtailmentForward (payload : Bytes)
  /-- MASTER_CLAIM (R560) -/
  | masterClaim (payload : Bytes)
  /-- LOAD_PENDING (R569) -/
  | loadPending (role : Role) (slot : Fin 128) (v : Bytes)
  /-- GENERATE (R570) -/
  | generate (role : Role) (slot : Fin 128) (v : Nat)
  /-- PROOF (R571) -/
  | proof (role : Role) (slot : Fin 128) (v : Bytes)
  /-- DESTROY (R575) -/
  | destroy (role : Role) (slot : Fin 128) (v : Nat)
  /-- PROVISION (R577) -/
  | provision (role : Role)
  /-- ENTER_SERVICE (R577) -/
  | enterService (role : Role)
  /-- SEAL (R577) -/
  | seal (role : Role)
  /-- RETIRE (R579) -/
  | retire (role : Role)
  /-- LIFECYCLE_TRANSITION (R578) -/
  | lifecycleTransition
  /-- IMAGE_BLOCK (R582) -/
  | imageBlock (role : Role) (v : Bytes)
  /-- IMAGE_VERIFICATION (R582) -/
  | imageVerification (k : Fin 3)
  /-- UPDATE_BLOCK (R585) -/
  | updateBlock (p : Fin 2) (src : Fin 8) (payload : Bytes)
  /-- UPDATE_ACKNOWLEDGEMENT (R586) -/
  | updateAcknowledgement (src : Fin 8) (payload : Bytes)
  /-- RING_BLOCK_RESEND (R586) -/
  | ringBlockResend
  /-- ACTIVATE (R590) -/
  | activate (role : Role) (v : Bytes)
  /-- ACTIVATION_PAUSE (R591) -/
  | activationPause
  /-- ACTIVATION_CONFIRMED (R592) -/
  | activationConfirmed (micros : Nat)
  /-- ACTIVATION_REVERT (R592) -/
  | activationRevert
  /-- DEBUG_IDENTIFY (R600) -/
  | debugIdentify (good : Bool) (tag : Byte)
  /-- DEBUG_CHALLENGE (R600) -/
  | debugChallenge (good : Bool) (tag : Byte)
  /-- DEBUG_AUTHENTICATE (R601) -/
  | debugAuthenticate (good : Bool) (tag : Byte) (mac : Bytes)
  /-- DEBUG_AUTHENTICATION_IDLE (R601) -/
  | debugAuthenticationIdle
  /-- DEBUG_HALT (R603) -/
  | debugHalt (good : Bool) (tag : Byte)
  /-- DEBUG_RESUME (R605) -/
  | debugResume (good : Bool) (tag : Byte)
  /-- DEBUG_STEP (R605) -/
  | debugStep (good : Bool) (tag : Byte)
  /-- DEBUG_STATUS (R600) -/
  | debugStatus (good : Bool) (tag : Byte)
  /-- SET_BREAKPOINT (R607) -/
  | setBreakpoint (good : Bool) (tag : Byte) (i : Nat) (desc : Bytes)
  /-- CLEAR_BREAKPOINT (R600) -/
  | clearBreakpoint (good : Bool) (tag : Byte) (i : Nat)
  /-- DEBUG_READ (R602) -/
  | debugRead (good : Bool) (tag : Byte) (addr len : Nat)
  /-- DEBUG_WRITE (R602) -/
  | debugWrite (good : Bool) (tag : Byte) (addr : Nat) (data : Bytes)
  /-- DEBUG_RESET (R600) -/
  | debugReset (good : Bool) (tag : Byte)
  /-- BREAKPOINT_MATCH (R608) -/
  | breakpointMatch (i : Fin 16) (write : Bool) (addr data cycle : Nat)
  /-- BYPASS (R609) -/
  | bypass
  /-- IDCODE (R609) -/
  | idcode
  /-- SAMPLE_PRELOAD (R609) -/
  | samplePreload (captured preload : Bytes)
  /-- EXTEST (R610) -/
  | extest
  /-- CLAMP (R610) -/
  | clamp
  /-- HIGHZ (R610) -/
  | highz
  /-- MEMORY_SCRUB (R615) -/
  | memoryScrub (mem : Fin 3) (place : MemPlace) (addr : Nat) (word : Bytes) (pass : Bool)
  /-- TAMPER_DOMAIN_RESTART (R283) -/
  | tamperDomainRestart (battery : Nat)
  /-- CURRENT_LIMIT_EXIT (R406) -/
  | currentLimitExit (n : Fin 64)
  /-- VEHICLE_ETHERNET_FRAME (R318) -/
  | vehicleEthernetFrame (o : Fin 32) (frame : Bytes)
  /-- PRODUCER_HEARTBEAT (R83) -/
  | producerHeartbeat
  /-- ETHERNET_LINK_CHANGE (R563) -/
  | ethernetLinkChange (e : Fin 2) (sync up : Bool)
  /-- KEEP_ALIVE_TRANSMIT (R485) -/
  | keepAliveTransmit
deriving DecidableEq, Repr

end Sys2Proof
end

