-- ==== Sys2Proof/WellFormed.lean ====
section
/-! DEFINITION. The commands whose operands have the widths and lengths that the spec gives them; bounds on resource numbers are in the
types of the operands. -/
namespace Sys2Proof

/-- A number of at most 64 bits (02 R46). -/
def num (n : Nat) : Bool := decide (n < 2 ^ 64)

/-- A string of bytes that a 16-bit length can give (19 R552). -/
def shortBytes (b : Bytes) : Bool := decide (b.length < 65536)

/-- A battery clock: seconds of 40 bits and 2^-15 s (08 R284). -/
def clockOk (c : Nat × Nat) : Bool := decide (c.1 < 2 ^ 40 ∧ c.2 < 32768)

/-- A battery clock that may be invalid. -/
def clockMayBe : Option (Nat × Nat) → Bool
  | some c => clockOk c
  | none => true

/-- A status frame has four axes, eight comparators, 64 load channels, 8 banks, 3 lanes of 32 samples of 16 bits, and cycles of the ten
windows and four tasks (01 R21; 15 R440). -/
def StatusFrame.wellFormed (f : StatusFrame) : Bool :=
  f.enc.length == 4 && f.oc.length == 8 && f.loads.length == 64 && f.banks.length == 8 && f.twist.length == 3
    && f.twist.all (fun l => l.length == 32 && l.all fun x => decide (-32768 ≤ x ∧ x < 32768))
    && f.cycles.length == 14 && clockMayBe f.battery

/-- What a start finds: image kinds 1 to 3 (20 R580) and a battery of at most 16 bits in mV. -/
def StartInputs.wellFormed (x : StartInputs) : Bool :=
  clockMayBe x.battery && (x.activeBad ++ x.otherBad).all (fun k => decide (1 ≤ k ∧ k ≤ 3)) && decide (x.vbat < 65536)

/-- A mesh frame: a type byte, addresses of 18 bits and at most 1 472 bytes (15 R454, R458; 16 R468). -/
def MeshFrame.wellFormed (f : MeshFrame) : Bool :=
  decide (f.ty < 256 ∧ f.hopSrc < 2 ^ 18 ∧ f.hopDst < 2 ^ 18 ∧ f.far < 2 ^ 18 ∧ f.payload.length ≤ 1472)

/-- A tag: an identifier of 64 bits, flags and highest block of a byte each (17 R498). -/
def TagSeen.wellFormed (t : TagSeen) : Bool := decide (t.ident < 2 ^ 64 ∧ t.flags < 256 ∧ t.top < 256)

/-- A card that answers a poll. -/
def CardSeen.wellFormed (c : CardSeen) : Bool := decide (c.info.length ≤ 255) && c.slots.all fun s => decide (s < 16)

/-- What a reader channel finds. -/
def VisitSeen.wellFormed (x : VisitSeen) : Bool :=
  decide (x.current < 65536) && x.cardsA.all (fun c => c.wellFormed && (c.ident.length == 4 || c.ident.length == 7 || c.ident.length == 10) && c.info.length == 3)
    && x.cardsB.all (fun c => c.wellFormed && c.ident.length == 4) && x.tags.all TagSeen.wellFormed

/-- The answer of a tag: a status byte. -/
def TagAnswer.wellFormed : TagAnswer → Bool
  | .silent => true
  | .collision => true
  | .reply st rest => decide (st < 256) && shortBytes rest

/-- The answer of a card. -/
def CardAnswer.wellFormed : CardAnswer → Bool
  | .frame b => shortBytes b
  | .timeout => true
  | .crcError => true
  | .parityError => true

/-- Whether the operands of a command have their widths and lengths. -/
def Instr.wellFormed : Instr → Bool
  | .warpTick f => f.wellFormed
  | .forcedQuantumClose _ => true
  | .quantumRegistration _ => true
  | .pilotStateChange _ => true
  | .clockFault => true
  | .holdoverEntry => true
  | .masterTakeover => true
  | .masterRestore => true
  | .shareFallback => true
  | .supplyWarning => true
  | .powerFailSaveStart => true
  | .supplyWarningHold => true
  | .saveCommit => true
  | .stagedRecordsWrite => true
  | .supplyWarningClear => true
  | .brownOutRecovery => true
  | .supplyReset => true
  | .powerOnReset => true
  | .powerOnResetRelease => true
  | .warmReset => true
  | .watchdogExpiry => true
  | .coldStart x => x.wellFormed
  | .warmStart x => x.wellFormed
  | .firstTickAfterStart => true
  | .resetHoldExpiry => true
  | .groupCurrentConfirmed seen => decide (seen.2.length < 65536)
  | .contactorReleaseDelay _ => true
  | .groupConfirmTimeout _ => true
  | .controlReclaim micros => num micros
  | .commandWarmReset _ v => num v
  | .islandHeartbeatTimeout => true
  | .dictionaryRequest _ frame => shortBytes frame
  | .dictionaryRead => true
  | .dictionaryWrite => true
  | .writeTakesEffect => true
  | .mramCommit => true
  | .segmentWrite => true
  | .segmentRead => true
  | .segmentTransferTimeout _ => true
  | .sourceRecordRelease _ => true
  | .ethernetDatagram _ v6 ip ports _ frame => decide (ip.1.length = (if v6 then 16 else 4) ∧ ip.2.length = (if v6 then 16 else 4) ∧ ports.1 < 65536 ∧ ports.2 < 65536) && shortBytes frame
  | .canEnvelopeDownload _ _ _ load => num load.1 && shortBytes load.2
  | .canSdoUpload _ _ _ ix sub => num ix && num sub
  | .compactRequest _ f => f.wellFormed
  | .mailboxSubmit _ len frame => decide (1 ≤ len ∧ len ≤ 1472 ∧ frame.length = len)
  | .mailboxRelease _ => true
  | .hstatClear mask => num mask
  | .evpendClear _ mask => num mask
  | .mirrorWrite addr data => num addr && num data
  | .clearEvents _ v => shortBytes v
  | .upstreamFrame _ arrival frame => num arrival.1 && num arrival.2 && shortBytes frame
  | .coreMissing _ => true
  | .linkAcquire _ => true
  | .characterAlignmentHeld _ => true
  | .capabilityTrainingSet _ set => shortBytes set
  | .alignComplete _ arrival => num arrival
  | .rateSwitchTick _ => true
  | .gen2AcquisitionTimeout _ => true
  | .fourFramesWithoutCore _ => true
  | .markerOutOfTime _ => true
  | .alignmentLost _ => true
  | .recoverSuccess _ => true
  | .recoverTimeout _ => true
  | .linkDisable _ _ => true
  | .linkEnable _ _ => true
  | .acceptNewHead _ _ v => num v
  | .headRegisterAccess _ _ v => num v
  | .channelConfigurationWritten _ _ sub v => num sub && num v
  | .filterBankWritten _ _ _ _ v => shortBytes v
  | .bankSwap _ _ v => shortBytes v
  | .loadDefaults _ _ v => num v
  | .lockGroupWrite _ _ sub v => num sub && num v
  | .meterConfigurationWrite _ _ _ sub v => num sub && num v
  | .pulseWidthExpiry _ => true
  | .pulseOutputConfiguration _ _ sub v => num sub && num v
  | .calibrationConstantWritten _ _ sub v => num sub && shortBytes v
  | .captureStart _ _ v => num v
  | .captureCancel _ _ => true
  | .captureComplete _ => true
  | .temperatureSourceFailure _ => true
  | .calibrationRecordCheck => true
  | .boundaryStep => true
  | .subintervalDeviceTimeClose _ => true
  | .heldBoundaryStep => true
  | .stagedRecordCommit => true
  | .stepCivilTime _ v => shortBytes v
  | .slewCivilTime _ v => num v
  | .batteryClockCopy => true
  | .billingControlWrite _ _ sub v => num sub && num v
  | .passiveCalendarWrite _ _ v => shortBytes v
  | .activationTimeWrite _ _ v => num v
  | .commandSnapshot _ => true
  | .commandSnapshotResetMaxima _ => true
  | .sessionRecordClose _ => true
  | .requestReading _ _ v => num v
  | .periodicReading _ => true
  | .readingSigned => true
  | .readingGivenOut => true
  | .readingReissue => true
  | .tamperInputChange _ level battery => num level.2 && clockOk battery
  | .tamperRecordCopy _ => true
  | .batteryLow => true
  | .tamperDomainStop => true
  | .tamperConfigurationWritten _ _ sub v => num sub && num v
  | .cmSlacParmReq _ _ run => num run
  | .cmStartAttenCharInd _ _ run sounds => num run && num sounds
  | .cmMnbcSoundInd _ _ run atten => num run && atten.all num
  | .cmAttenCharInd _ => true
  | .cmSlacMatchReq _ _ run => num run
  | .vehicleLinkTimeout _ => true
  | .vehicleCanFrame _ id data => num id && shortBytes data
  | .chademoVehicleFrame _ data => shortBytes data
  | .gbtBcl _ data => shortBytes data
  | .gbtBst frame => shortBytes frame.2
  | .canRequestTimeout _ => true
  | .ceLow _ => true
  | .hostLimitsWrite _ _ sub v => num sub && num v
  | .limitsStale _ => true
  | .stepTimeout _ => true
  | .weldedContactor _ => true
  | .startPermit _ _ v => num v
  | .endRequestNormal _ _ => true
  | .endRequestVehicle _ _ => true
  | .endRequestHost _ _ => true
  | .returnToService _ _ v => num v
  | .outletConfigurationWrite _ _ sub v => num sub && num v
  | .curtailmentWrite _ v => shortBytes v
  | .curtailmentStart => true
  | .curtailmentExpiry => true
  | .comparatorTrip _ level => decide (-32768 ≤ level ∧ level < 32768)
  | .selfTestFirstCheck _ => true
  | .selfTestSecondCheck _ => true
  | .insulationStateSwitch _ => true
  | .insulationMeasurement _ => true
  | .clearLatch _ _ v => num v
  | .clearTrip _ _ v => num v
  | .automaticClear _ => true
  | .protectionConfigurationWrite _ _ _ sub v => num sub && num v
  | .encoderChannelFault _ _ _ => true
  | .stoApply _ _ => true
  | .stoRelease _ _ => true
  | .ss1Start _ _ => true
  | .ss1End _ => true
  | .degradedTimeExpiry _ => true
  | .reference _ _ v => num v
  | .indexEdge _ _ latched => decide (-2147483648 ≤ latched ∧ latched < 2147483648)
  | .axisClearTrip _ _ v => num v
  | .safetyParameterWrite _ _ sub v => num sub && num v
  | .stoTestPulse _ => true
  | .stoOutputFault _ => true
  | .whorlPairFault _ => true
  | .spareKnownAnswerTest _ => true
  | .takeoverComplete => true
  | .pairSelfTest _ _ => true
  | .loadChannelCommand _ _ v => num v
  | .loadChannelConfiguration _ _ sub v => num sub && num v
  | .rampComplete _ => true
  | .thermalShutdown _ => true
  | .thermalRestart _ => true
  | .absoluteLimit _ => true
  | .currentLimitEntry _ => true
  | .loadClearLatch _ _ v => num v
  | .bankUndervoltageEntry _ => true
  | .bankUndervoltageExit _ => true
  | .budgetShed => true
  | .budgetRestore => true
  | .openLoadTestPhase _ _ => true
  | .frameBoundary _ => true
  | .regionUpdate _ _ _ v => shortBytes v
  | .waveformTableWrite _ _ _ v => shortBytes v
  | .regionDefinitionWrite _ _ sub v => num sub && num v
  | .portDisable _ _ => true
  | .portEnable _ _ => true
  | .controlFrame _ code erasures => code.length == 58 && erasures.all fun i => decide (i < 464)
  | .bulkBlock _ rows _ => rows.all fun r => r.length == 255
  | .bulkFrame _ => true
  | .controlFrameTransmit _ => true
  | .bulkBurstTransmit _ => true
  | .laneStateChange _ => true
  | .laneWrite _ _ sub v => num sub && num v
  | .pendingMapWrite _ _ v => shortBytes v
  | .mapActivation => true
  | .meshRoleWrite _ _ v => num v
  | .beacon _ f => f.wellFormed
  | .beaconTransmit => true
  | .joinRequest _ f => f.wellFormed
  | .joinAccept _ f => f.wellFormed
  | .joinTimeout => true
  | .keepAlive _ f => f.wellFormed
  | .subtreeRefresh _ f => f.wellFormed
  | .acknowledgement _ f => f.wellFormed
  | .acknowledgementTimeout => true
  | .routeError _ f => f.wellFormed
  | .mapDistribution _ f => f.wellFormed
  | .broadcastCommand _ f => f.wellFormed
  | .downwardEntryExpiry dst => num dst
  | .parentChange => true
  | .bulkQueueFlush _ => true
  | .endpointUnreachable addr => num addr
  | .listingEntry _ v => shortBytes v
  | .rebuildEnd => true
  | .readJobWrite _ _ v => shortBytes v
  | .readJobCycle _ => true
  | .meshSubmission tag payload => num tag && shortBytes payload
  | .submissionDeadline tag => num tag
  | .metrologyImagePiece _ payload => shortBytes payload
  | .antennaVisit _ x => x.wellFormed
  | .dwellExpiry _ => true
  | .presenceCheck _ answered => decide (answered.length < 256)
  | .cardFrame _ wait frame a => num wait && shortBytes frame && a.wellFormed
  | .cardRelease _ => true
  | .halt _ => true
  | .redraw _ tags => tags.all TagSeen.wellFormed
  | .getRandom _ a => a.wellFormed
  | .unlock _ a => a.wellFormed
  | .auth1 _ a => a.wellFormed
  | .auth2 _ a => a.wellFormed
  | .tagRead _ block count a => num block && num count && a.wellFormed
  | .writeCmd _ a => a.wellFormed
  | .writeData _ a => a.wellFormed
  | .commit _ a => a.wellFormed
  | .confirm _ a => a.wellFormed
  | .tagWrite tag payload => num tag && shortBytes payload
  | .fieldCollapse x => x.2.all fun i => decide (i < 65536)
  | .reEntryWindowExpiry i => num i
  | .readerChannelDisable _ _ => true
  | .serviceRequest _ _ _ units dt => num units.1 && num units.2 && num dt
  | .transferComplete _ _ dt => num dt
  | .creditRefill => true
  | .withdrawal _ _ dt => num dt
  | .rankWeightWrite _ _ sub v => num sub && num v
  | .waitThresholdReached _ _ => true
  | .occupancyRefresh => true
  | .statisticsClear _ v => num v
  | .sourceFence _ tid v => num tid && num v
  | .globalFence _ tid v => num tid && num v
  | .fenceMarker _ mask => num mask
  | .hankCell cell => cell.length == 264
  | .hankLinkRun => true
  | .hankLinkDown => true
  | .hankResendTimeout => true
  | .creditCell cell => cell.length == 264
  | .creditCellTransmit => true
  | .vehicleLinkRecord word payload => num word && shortBytes payload
  | .captureRequest _ v => shortBytes v
  | .ringPing _ => true
  | .ringEcho _ rtt turnaround position => num rtt && num turnaround && num position
  | .ringPortRun _ => true
  | .ringPortDown _ => true
  | .tickMarker _ marker offset => marker.length == 8 && decide (offset.natAbs < 2 ^ 31)
  | .ringFrame _ frame => shortBytes frame
  | .demandReport payload _ => shortBytes payload
  | .siteShares payload => shortBytes payload
  | .curtailmentForward payload => shortBytes payload
  | .masterClaim payload => shortBytes payload
  | .loadPending _ _ v => shortBytes v
  | .generate _ _ v => num v
  | .proof _ _ v => shortBytes v
  | .destroy _ _ v => num v
  | .provision _ => true
  | .enterService _ => true
  | .seal _ => true
  | .retire _ => true
  | .lifecycleTransition => true
  | .imageBlock _ v => shortBytes v
  | .imageVerification _ => true
  | .updateBlock _ _ payload => shortBytes payload
  | .updateAcknowledgement _ payload => shortBytes payload
  | .ringBlockResend => true
  | .activate _ v => shortBytes v
  | .activationPause => true
  | .activationConfirmed micros => num micros
  | .activationRevert => true
  | .debugIdentify _ _ => true
  | .debugChallenge _ _ => true
  | .debugAuthenticate _ _ mac => mac.length == 16
  | .debugAuthenticationIdle => true
  | .debugHalt _ _ => true
  | .debugResume _ _ => true
  | .debugStep _ _ => true
  | .debugStatus _ _ => true
  | .setBreakpoint _ _ i desc => decide (i < 16) && desc.length == 16
  | .clearBreakpoint _ _ i => decide (i < 16)
  | .debugRead _ _ addr len => decide (addr < 2 ^ 32 ∧ 4 ≤ len ∧ len ≤ 1024 ∧ len % 4 = 0)
  | .debugWrite _ _ addr data => decide (addr < 2 ^ 32 ∧ 4 ≤ data.length ∧ data.length ≤ 1024 ∧ data.length % 4 = 0)
  | .debugReset _ _ => true
  | .breakpointMatch _ _ addr data cycle => decide (addr < 2 ^ 32 ∧ data < 2 ^ 32 ∧ cycle < 30720)
  | .bypass => true
  | .idcode => true
  | .samplePreload captured preload => shortBytes captured && shortBytes preload
  | .extest => true
  | .clamp => true
  | .highz => true
  | .memoryScrub _ _ addr word _ => word.length == 40 && decide (addr < 2 ^ 32)
  | .tamperDomainRestart battery => num battery
  | .currentLimitExit _ => true
  | .vehicleEthernetFrame _ frame => shortBytes frame
  | .producerHeartbeat => true
  | .ethernetLinkChange _ _ _ => true
  | .keepAliveTransmit => true

end Sys2Proof
end

