-- ==== Sys2Proof/Decode.lean ====
section
/-! DEFINITION. The table of operations and events gives its rows no bits: the block takes commands, not instruction words. -/
namespace Sys2Proof

/-- The command that a word spells by the table's bits. No row of spec/opcode_table.json has fields, so no word spells one. -/
def decodeTableWord (_nbits _w : Nat) : Option Instr := none

end Sys2Proof
end

