-- ==== Sys2Proof/Machine/Bits.lean ====
section
/-! DEFINITION. Bit fields, signed values, saturation, rounding, byte order and the sparse table's read and write
(00 R3 to R8, R13; 02 R46). -/
namespace Sys2Proof.Machine

/-! ## Sparse tables -/

/-- The value at key `q`, `d` where the table lists none. -/
def tget {α : Type} (d : α) : Tab α → Nat → α
  | [], _ => d
  | (k, v) :: r, q => if k = q then v else tget d r q

/-- The value at key `q`, where the table lists one. -/
def tfind {α : Type} : Tab α → Nat → Option α
  | [], _ => none
  | (k, v) :: r, q => if k = q then some v else tfind r q

/-- The table with `v` at key `q`, keys kept rising. -/
def tset {α : Type} : Tab α → Nat → α → Tab α
  | [], q, v => [(q, v)]
  | (k, w) :: r, q, v =>
    if q = k then (q, v) :: r else if q < k then (q, v) :: (k, w) :: r else (k, w) :: tset r q v

/-- The table without key `q`. -/
def tdel {α : Type} (t : Tab α) (q : Nat) : Tab α := t.filter fun e => e.1 != q

/-- Whether the table lists key `q`. -/
def thas {α : Type} (t : Tab α) (q : Nat) : Bool := t.any fun e => e.1 == q

/-! ## Bits and fields of a natural number (R5: bit 0 is the least significant) -/

/-- Bits `lo + w - 1` to `lo`. -/
def field (n lo w : Nat) : Nat := n / 2 ^ lo % 2 ^ w

/-- `n` with bits `lo + w - 1` to `lo` replaced by the low bits of `v`. -/
def setField (n lo w v : Nat) : Nat :=
  n - field n lo w * 2 ^ lo + v % 2 ^ w * 2 ^ lo

/-- `n` with bit `i` set or cleared. -/
def setBit (n i : Nat) (b : Bool) : Nat := setField n i 1 b.toNat

/-- 1 for true. -/
def b2n (b : Bool) : Nat := b.toNat

/-- Bit mask of the flags of a list, the first at bit 0. -/
def maskOf : List Bool → Nat
  | [] => 0
  | b :: r => b2n b + 2 * maskOf r

/-- The numbers below `n` whose bit is set in `m`. -/
def bitsOf (n m : Nat) : List Nat := (List.range n).filter fun i => m.testBit i

/-! ## Signed values (two's complement, R13) -/

/-- The signed value of the `w`-bit pattern `n`. -/
def sval (w n : Nat) : Int := if n % 2 ^ w < 2 ^ (w - 1) then ((n % 2 ^ w : Nat) : Int) else ((n % 2 ^ w : Nat) : Int) - (2 ^ w : Nat)

/-- The `w`-bit pattern of `i`. -/
def spat (w : Nat) (i : Int) : Nat := (i % ((2 ^ w : Nat) : Int)).toNat

/-- `i` held between `lo` and `hi`. -/
def clampI (lo hi i : Int) : Int := if i < lo then lo else if hi < i then hi else i

/-- `i` saturated to a signed `w`-bit value. -/
def satS (w : Nat) (i : Int) : Int := clampI (-((2 ^ (w - 1) : Nat) : Int)) (((2 ^ (w - 1) : Nat) : Int) - 1) i

/-- Whether `i` falls outside a signed `w`-bit value. -/
def ovfS (w : Nat) (i : Int) : Bool := satS w i != i

/-- `n + k` saturated to `w` bits. -/
def satAdd (w n k : Nat) : Nat := min (n + k) (2 ^ w - 1)

/-! ## Rounding -/

/-- `n / d` rounded to the nearest integer, a half to the even one (`d > 0`). -/
def rdiv (n : Int) (d : Nat) : Int :=
  let q := n / (d : Int)
  let r := n % (d : Int)
  if 2 * r < d then q else if (d : Int) < 2 * r then q + 1 else if q % 2 = 0 then q else q + 1

/-- `n / d` rounded to the nearest natural number, a half to the even one (0 where `d` is 0). -/
def rdivN (n d : Nat) : Nat := if d = 0 then 0 else (rdiv (n : Int) d).toNat

/-- `n / d` rounded to nearest, a half away from zero (`d > 0`). -/
def rdivAway (n : Int) (d : Nat) : Int :=
  if 0 ≤ n then (2 * n + d) / (2 * (d : Int)) else -((2 * (-n) + d) / (2 * (d : Int)))

/-- `n / d` toward zero. -/
def tdivI (n : Int) (d : Int) : Int := n.tdiv d

/-- One Newton search for the square root: `k` bits left to settle, `r` found so far. -/
def isqrtGo : Nat → Nat → Nat → Nat
  | 0, _, r => r
  | k + 1, n, r => if (r + 2 ^ k) * (r + 2 ^ k) ≤ n then isqrtGo k n (r + 2 ^ k) else isqrtGo k n r

/-- The floor of the square root of `n` below 2^192. -/
def isqrt (n : Nat) : Nat := isqrtGo 96 n 0

/-- The square root of `n` rounded to the nearest integer. -/
def isqrtNear (n : Nat) : Nat :=
  let r := isqrt n
  if r * r + r < n then r + 1 else r

/-! ## Byte order (R6: little-endian unless the chapter says otherwise) -/

/-- The little-endian value of bytes. -/
def leNat : Bytes → Nat
  | [] => 0
  | b :: r => b.toNat + 256 * leNat r

/-- The `n` little-endian bytes of `v`. -/
def natLE : Nat → Nat → Bytes
  | 0, _ => []
  | n + 1, v => BitVec.ofNat 8 v :: natLE n (v / 256)

/-- The big-endian value of bytes. -/
def beNat (b : Bytes) : Nat := leNat b.reverse

/-- The `n` big-endian bytes of `v`. -/
def natBE (n v : Nat) : Bytes := (natLE n v).reverse

/-- `n` bytes of `b` from offset `o`, the missing ones zero. -/
def sliceB (b : Bytes) (o n : Nat) : Bytes :=
  let x := (b.drop o).take n
  x ++ List.replicate (n - x.length) 0

/-- The little-endian value of `n` bytes at offset `o`. -/
def leAt (b : Bytes) (o n : Nat) : Nat := leNat (sliceB b o n)

/-- Byte `o` as a number, 0 beyond the end. -/
def byteAt (b : Bytes) (o : Nat) : Nat := (b.getD o 0).toNat

/-- `n` zero bytes. -/
def zeros (n : Nat) : Bytes := List.replicate n 0

/-- `b` cut or zero padded to `n` bytes. -/
def padTo (n : Nat) (b : Bytes) : Bytes := sliceB b 0 n

/-- Replace the bytes from offset `o` on, as far as the string goes. -/
def patchBytes (b : Bytes) (o : Nat) (x : Bytes) : Bytes := (b.take o ++ x ++ b.drop (o + x.length)).take b.length
/-- Exclusive or of two byte strings, as long as the shorter. -/
def xorB (a b : Bytes) : Bytes := List.zipWith (fun x y => x ^^^ y) a b

/-- Whether every byte is zero. -/
def allZero (b : Bytes) : Bool := b.all fun x => x == 0

/-- The bytes of ASCII text. -/
def asciiB (t : String) : Bytes := t.toList.map fun c => BitVec.ofNat 8 c.toNat

/-- The decimal digits of `n`, at most `f` of them. -/
def decDigits : Nat → Nat → Bytes
  | 0, _ => []
  | f + 1, n => (if n < 10 then [] else decDigits f (n / 10)) ++ [BitVec.ofNat 8 (48 + n % 10)]

/-- The sum of a list of integers. -/
def sumI (l : List Int) : Int := l.foldl (· + ·) 0

/-- The sum of a list of natural numbers. -/
def sumN (l : List Nat) : Nat := l.foldl (· + ·) 0

/-- The largest of a list, `d` where it is empty. -/
def maxN (d : Nat) (l : List Nat) : Nat := l.foldl max d

/-- The middle of three integers. -/
def median3 (a b c : Int) : Int := max (min a b) (min (max a b) c)

/-- Replace element `i` of a list. -/
def setAt {α : Type} : List α → Nat → α → List α
  | [], _, _ => []
  | _ :: r, 0, v => v :: r
  | x :: r, i + 1, v => x :: setAt r i v

/-- The first element and its position for which `p` holds. -/
def findIx {α : Type} (p : α → Bool) : List α → Nat → Option Nat
  | [], _ => none
  | x :: r, i => if p x then some i else findIx p r (i + 1)

/-- Insert into a list kept in order by `le`, after equals. -/
def insertBy {α : Type} (le : α → α → Bool) (x : α) : List α → List α
  | [] => [x]
  | y :: r => if le y x then y :: insertBy le x r else x :: y :: r

/-- A list put in order by `le`, equals keeping their order. -/
def sortBy {α : Type} (le : α → α → Bool) (l : List α) : List α := l.foldl (fun a x => insertBy le x a) []

/-- A list of `n` parts of `k` elements. -/
def chunks {α : Type} (k : Nat) : Nat → List α → List (List α)
  | 0, _ => []
  | n + 1, l => l.take k :: chunks k n (l.drop k)

end Sys2Proof.Machine
end

