-- ==== Sys2Proof/Machine/Crc.lean ====
section
/-! DEFINITION. The cyclic codes of the part: CRC-32 (03 R93), CRC-16 (21 R599, 19 R546) and the Reed-Solomon code over
GF(2^8) (15 R454, 21 R614). -/
namespace Sys2Proof.Machine

/-- One bit step of the reflected CRC-32 of IEEE 802.3. -/
def crc32Bit (c : Nat) : Nat := if c % 2 = 1 then (c / 2) ^^^ 0xEDB88320 else c / 2

/-- `n` bit steps. -/
def crc32Bits : Nat → Nat → Nat
  | 0, c => c
  | n + 1, c => crc32Bits n (crc32Bit c)

/-- CRC-32 of IEEE 802.3: initial value and final inversion all ones. -/
def crc32 (b : Bytes) : Nat := (b.foldl (fun c x => crc32Bits 8 (c ^^^ x.toNat)) 0xFFFFFFFF) ^^^ 0xFFFFFFFF

/-- One bit step of CRC-16, polynomial 0x1021, most significant bit first. -/
def crc16Bit (c : Nat) : Nat := if c.testBit 15 then (c * 2 % 65536) ^^^ 0x1021 else c * 2 % 65536

/-- `n` bit steps. -/
def crc16Bits : Nat → Nat → Nat
  | 0, c => c
  | n + 1, c => crc16Bits n (crc16Bit c)

/-- CRC-16, polynomial 0x1021, initial value 0xFFFF. -/
def crc16 (b : Bytes) : Nat := b.foldl (fun c x => crc16Bits 8 (c ^^^ (x.toNat * 256))) 0xFFFF

/-! ## Reed-Solomon codes over GF(2^8) (15 R454, R456; 21 R614): polynomials are lists of coefficients, the lowest first -/

/-- Times x in the field of x^8 + x^4 + x^3 + x^2 + 1. -/
def gfDbl (a : Nat) : Nat := if a.testBit 7 then (2 * a % 256) ^^^ 0x1D else 2 * a % 256

/-- Product in the field, over the low `n` bits of `b`. -/
def gfMulGo : Nat → Nat → Nat → Nat
  | 0, _, _ => 0
  | n + 1, a, b => (if b % 2 = 1 then a else 0) ^^^ gfMulGo n (gfDbl a) (b / 2)

/-- Product in the field. -/
def gfMul (a b : Nat) : Nat := gfMulGo 8 a b

/-- A power of α = 2. -/
def alphaPow : Nat → Nat
  | 0 => 1
  | n + 1 => gfDbl (alphaPow n)

/-- α to any power. -/
def alpha (n : Nat) : Nat := alphaPow (n % 255)

/-- The inverse of a field element: its 254th power. -/
def gfInv (a : Nat) : Nat :=
  let a2 := gfMul a a
  let a4 := gfMul a2 a2
  let a8 := gfMul a4 a4
  let a16 := gfMul a8 a8
  let a32 := gfMul a16 a16
  let a64 := gfMul a32 a32
  let a128 := gfMul a64 a64
  gfMul a2 (gfMul a4 (gfMul a8 (gfMul a16 (gfMul a32 (gfMul a64 a128)))))

/-- Sum of two polynomials. -/
def polyAdd : List Nat → List Nat → List Nat
  | [], q => q
  | p, [] => p
  | a :: p, b :: q => (a ^^^ b) :: polyAdd p q

/-- A polynomial times a field element. -/
def polyScale (c : Nat) (p : List Nat) : List Nat := p.map (gfMul c)

/-- Product of two polynomials. -/
def polyMul : List Nat → List Nat → List Nat
  | [], _ => []
  | a :: p, q => polyAdd (polyScale a q) (0 :: polyMul p q)

/-- A polynomial without leading zeros. -/
def polyTrim (p : List Nat) : List Nat := (p.reverse.dropWhile fun a => a == 0).reverse

/-- Value of a polynomial at `x`. -/
def polyEval (x : Nat) (p : List Nat) : Nat := p.foldr (fun c a => c ^^^ gfMul a x) 0

/-- Formal derivative. -/
def polyDeriv (p : List Nat) : List Nat := ((List.range p.length).map fun i => if i % 2 = 1 then p.getD i 0 else 0).drop 1

/-- Quotient and remainder by a trimmed divisor. -/
def polyDivMod : Nat → List Nat → List Nat → List Nat × List Nat
  | 0, p, _ => ([], p)
  | f + 1, p, q =>
    let p := polyTrim p
    if p.length < q.length || q.length = 0 then ([], p)
    else
      let c := gfMul (p.getLastD 0) (gfInv (q.getLastD 1))
      let t := List.replicate (p.length - q.length) 0 ++ [c]
      let r := polyDivMod f (polyAdd p (polyMul t q)) q
      (polyAdd t r.1, r.2)

/-- Syndromes of a word whose first byte is the highest coefficient: its values at α^0 to α^(n-1). -/
def rsSyndromes (n : Nat) (w : List Nat) : List Nat := (List.range n).map fun j => w.foldl (fun a b => gfMul a (alpha j) ^^^ b) 0

/-- The generator with roots α^0 to α^(n-1). -/
def rsGenerator : Nat → List Nat
  | 0 => [1]
  | n + 1 => polyMul (rsGenerator n) [alpha n, 1]

/-- The `n` parity bytes of data: the remainder of data · x^n by the generator. -/
def rsParity (n : Nat) (data : List Nat) : List Nat :=
  let g := ((rsGenerator n).take n).reverse
  data.foldl (fun r b =>
    let c := (r.headD 0) ^^^ b
    polyAdd (r.drop 1 ++ [0]) (polyScale c g)) (List.replicate n 0)

/-- The extended Euclidean algorithm, from (r0, v0) and (r1, v1) until twice the degree of the remainder is below `stop`. -/
def rsEuclid : Nat → Nat → List Nat → List Nat → List Nat → List Nat → List Nat × List Nat
  | 0, _, _, _, r1, v1 => (v1, r1)
  | f + 1, stop, r0, v0, r1, v1 =>
    let r1 := polyTrim r1
    if 2 * (r1.length - 1) < stop || r1 = [] then (v1, r1)
    else
      let d := polyDivMod (r0.length + 1) r0 r1
      rsEuclid f stop r1 v1 d.2 (polyAdd v0 (polyMul d.1 v1))

/-- Decode a word with `n` parity bytes and erased positions: the one codeword with 2 × errors + erasures ≤ n, none where there is
no such codeword. -/
def rsDecode (n : Nat) (w : List Nat) (erased : List Nat) : Option (List Nat) :=
  let len := w.length
  let er := (List.range len).filter fun i => erased.contains i
  let s := rsSyndromes n w
  if n < er.length then none
  else if s.all (fun x => x == 0) then some w
  else
    let loc := fun i => alpha (len - 1 - i)
    let gam := er.foldl (fun p i => polyMul p [1, loc i]) [1]
    let xi := (polyMul s gam).take n
    let e := rsEuclid (n + 2) (n + er.length) (List.replicate n 0 ++ [1]) [] xi [1]
    let c := e.1.headD 0
    if c = 0 then none
    else
      let lam := polyTrim (polyScale (gfInv c) e.1)
      let om := polyScale (gfInv c) e.2
      let psi := polyTrim (polyMul lam gam)
      let dp := polyDeriv psi
      let fix := (List.range len).map fun i =>
        let x := gfInv (loc i)
        if polyEval x psi = 0 then gfMul (loc i) (gfMul (polyEval x om) (gfInv (polyEval x dp))) else 0
      let out := List.zipWith (fun a b => a ^^^ b) w fix
      let errs := ((List.range len).filter fun i => fix.getD i 0 != 0 && !er.contains i).length
      if (rsSyndromes n out).all (fun x => x == 0) && decide (2 * errs + er.length ≤ n) then some out else none

/-- Decode bytes. -/
def rsBytes (n : Nat) (w : Bytes) (erased : List Nat) : Option Bytes :=
  (rsDecode n (w.map fun b => b.toNat) erased).map fun l => l.map (BitVec.ofNat 8)

/-- Data bytes with their parity. -/
def rsEncode (n : Nat) (data : Bytes) : Bytes := data ++ (rsParity n (data.map fun b => b.toNat)).map (BitVec.ofNat 8)

end Sys2Proof.Machine
end

