-- ==== Sys2Proof/Config.lean ====
section
/-! DEFINITION. What one part or one image release fixes and the spec does not: constants without a body, so that no proof
can see their values. The free values of the model are here too (log entries 2, 6, 7 and 8). -/
namespace Sys2Proof.Config

/-- The free value number `i`: random keys, challenges, one-time values and every value the spec leaves open are taken from
here, in order (log entry 2). -/
opaque free : Nat → Nat

/-- Bits 31:16 of the revision are the silicon revision (02 R83, 0x1018.03). -/
opaque revision : Nat
/-- Serial number, unique per part (02 R83, 0x1018.04). -/
opaque serialNumber : Nat
/-- MAC address of an Ethernet port, unique per part (19 R563). -/
opaque macAddress : Nat
/-- Version of every image as shipped (20 R581). -/
opaque factoryVersion : Nat
/-- Header bytes of the images as shipped (20 R581). -/
opaque factoryHeader : Nat → Bytes

/-- Default coefficient `t` of stage `s` (04 R132, R634); for the resampler `t` is 32 times the phase plus the tap. -/
opaque defaultCoef : Nat → Nat → Int
/-- Phase-stage tap `t` for the phase constant (04 R138, R634). -/
opaque phaseTap : Int → Nat → Int
/-- Bytes of an outlet's share of the vehicle-link frame buffer (18 R528); chapter 1 gives the size of the whole buffer alone (log entry 101). -/
opaque frameShare : Nat
/-- The glyph bytes of the default digit font of 7 by 12 pixels (14 R430, R437). -/
opaque fontGlyphs : Nat → Byte

/-- Jarsin's image-signing public keys of Bobbin slots 1 and 2 (20 R567, R581). -/
opaque imageKey : Nat → Bytes

/-- Jarsin's transport key of Bobbin slot 0 (20 R567). -/
opaque transportKey : Bytes
/-- The flags in the header of a billing state image, whose bits the spec does not give (07 R262). -/
opaque imageFlags : Nat
/-- Windows of a lane beyond 2 000 that the collector waits for an answer to an exchange; 16 R480 and R481 give no time, R485 gives a node
2 000 windows (log entry 114). -/
opaque answerExtra : Nat
/-- Retries of a submission, which 16 R481 names and does not count (log entry 114). -/
opaque submissionRetries : Nat
/-- Blocks of the flash of a part that it cannot program: kind, slot, block (20 R584; log entry 119). -/
opaque flashBad : List (Nat × Nat × Nat)
/-- The partition of an MRAM address (21 R602): 0 configuration, 1 billing, 2 metrology, 3 key storage. -/
opaque mramPartition : Nat → Nat
/-- The debug address of the mirror window (21 R602). -/
opaque mirrorBase : Nat

end Sys2Proof.Config
end

