-- ==== Sys2Proof/Machine/Coef.lean ====
section
/-! DEFINITION. The default filter coefficients and the phase-stage taps: values fixed in the silicon that the spec does not print, held to
what the spec says of them (04 R131 to R133, R138, R633, R634). -/
namespace Sys2Proof.Machine

/-- Two lists added element by element, the shorter continued with zeros. -/
def addL : List Int → List Int → List Int
  | [], b => b
  | a, [] => a
  | x :: a, y :: b => (x + y) :: addL a b

/-- The convolution of two responses. -/
def conv : List Int → List Int → List Int
  | [], _ => []
  | x :: a, b => addL (b.map (x * ·)) (0 :: conv a b)

/-- A response whose samples lie `k` modulator clocks apart. -/
def spread (k : Nat) (h : List Int) : List Int := h.flatMap fun c => c :: List.replicate (k - 1) 0

/-- The sum of the magnitudes. -/
def absSum (h : List Int) : Nat := sumN (h.map Int.natAbs)

/-- Convolution with `n` ones. -/
def boxConv (n : Nat) (h : List Int) : List Int :=
  (List.range (h.length + n - 1)).map fun i => sumI ((h.drop (i + 1 - n)).take (min n (i + 1)))

/-- The coefficients of (1 + z^-1 + ... + z^-(N-1))^5 (04 R149). -/
def sinc5 (n : Nat) : List Int := boxConv n (boxConv n (boxConv n (boxConv n (List.replicate n 1))))

/-- Q2.30 taps that sum to exactly 1 (04 R132, R138). -/
def unitTaps (h : List Int) : Bool := sumI h == 2 ^ 30 && h.all fun c => decide (-2 ^ 31 ≤ c ∧ c < 2 ^ 31)

/-- Whether a half-band's taps at an even, non-zero distance from the centre are 0 (04 R131). -/
def halfBand (ctr : Nat) (h : List Int) : Bool :=
  (List.range h.length).all fun t =>
    let dist := if t < ctr then ctr - t else t - ctr
    dist % 2 != 0 || dist == 0 || h.getD t 0 == 0

/-- An exact delay of `k` samples in `n` taps. -/
def delayTaps (n k : Nat) : List Int := (List.range n).map fun t => if t = k then 2 ^ 30 else 0

/-- The values in the silicon of stage `s`, `n` of them from `first` on. -/
def rawCoef (s first n : Nat) : List Int := (List.range n).map fun t => Config.defaultCoef s (first + t)
/-- The values in the silicon of the phase stage for `tau`. -/
def rawPhase (tau : Int) : List Int := (List.range 12).map fun t => Config.phaseTap tau t

/-- The response of CIC, CMP, HB1 and HB2 in modulator clocks; 1 is 2^115. -/
def decimatedResponse (cmp hb1 hb2 : List Int) : List Int :=
  conv (conv (conv (sinc5 32) (spread 32 cmp)) (spread 64 hb1)) (spread 128 hb2)

/-! ## The limits on the responses (04 R133, R138) -/

/-- The circle constant as a ratio of integers. -/
def piNum : Int := 3141592653589793238462643383279502884197
/-- Its denominator. -/
def piDen : Nat := 1000000000000000000000000000000000000000

/-- The fixed-point 1 of the responses. -/
def respOne : Int := 2 ^ 100

/-- `n / m` of a turn, in radians. -/
def turnOf (n m : Nat) : Int := 2 * piNum * n * respOne / (piDen * m)

/-- Cosine and sine of `n / m` of a turn: 64 terms of their series. -/
def cosSin (n m : Nat) : Int × Int :=
  let x := turnOf (n % m) m
  let z := (List.range 64).foldl (fun (a : Int × Int × Int) k =>
    let (c, s, t) := a
    let (c, s) := match k % 4 with
      | 0 => (c + t, s)
      | 1 => (c, s + t)
      | 2 => (c - t, s)
      | _ => (c, s - t)
    (c, s, t * x / (respOne * (k + 1)))) ((0 : Int), (0 : Int), respOne)
  (z.1, z.2.1)

/-- A complex value turned by the angle of cosine and sine `w`. -/
def rotated (w a : Int × Int) : Int × Int := ((a.1 * w.1 - a.2 * w.2) / respOne, (a.1 * w.2 + a.2 * w.1) / respOne)

/-- The response of taps `h`, tap 0 the newest input, at `n / m` of their sample rate. -/
def response (h : List Int) (n m : Nat) : Int × Int :=
  let w := cosSin n m
  h.foldr (fun c a => (let z := rotated (w.1, -w.2) a; (c * respOne + z.1, z.2))) (0, 0)

/-- Whether the power gain of a response lies from `lo` to `hi` (in units of 10^-12) for a filter whose taps count `unit` as 1. -/
def gainIn (unit lo hi : Int) (z : Int × Int) : Bool :=
  let p := (z.1 ^ 2 + z.2 ^ 2) * 10 ^ 12
  decide (lo * (unit * respOne) ^ 2 ≤ p ∧ p ≤ hi * (unit * respOne) ^ 2)

/-- The multiples of `step` Hz from `a` to `b`. -/
def gridHz (a b step : Nat) : List Nat := (List.range ((b - a) / step + 1)).map fun k => a + k * step

/-- The rejection band: frequencies from 19.2 kHz to 4.096 MHz that fold into 0 to 12.8 kHz (R133). -/
def foldsIn (f : Nat) : Bool := decide (f % 32000 ≤ 12800 ∨ 32000 - f % 32000 ≤ 12800)

/-- The limits of R133 on the decimated response `h` (1 is 2^115), at multiples of 100 Hz; the limits in dB are powers of 10 rounded outwards. -/
def decimationLimits (h : List Int) : Bool :=
  let at_ := fun f => response h f 8192000
  ((gridHz 0 3200 100).all fun f => gainIn (2 ^ 115) 999988487140 1000011512992 (at_ f))
    && ((gridHz 3200 12800 100).all fun f => gainIn (2 ^ 115) 998849369936 1001151955539 (at_ f))
    && gainIn (2 ^ 115) 245470891568 257039578277 (at_ 16000)
    && (gridHz 19200 4096000 100).all fun f => !foldsIn f || gainIn (2 ^ 115) 0 100 (at_ f)

/-- The 2 048 taps of the resampler in the order of their instants: 64 a sample, the newest input's first (R148). -/
def resamplerTaps : List Int := (List.range 2048).map fun m => Config.defaultCoef 3 (32 * (m % 64) + (31 - m / 64))

/-- The limits of R133 on the resampler: ripple from 0 to 3.2 kHz, and the images of that band up to 1.024 MHz, at multiples of 100 Hz. -/
def resamplerLimits : Bool :=
  let at_ := fun f => response resamplerTaps f 2048000
  ((gridHz 0 3200 100).all fun f => gainIn (2 ^ 36) 999884877372 1000115135883 (at_ f))
    && (gridHz 28800 1024000 100).all fun f =>
        !decide (f % 32000 ≤ 3200 ∨ 32000 - f % 32000 ≤ 3200) || gainIn (2 ^ 36) 0 252 (at_ f)

/-- The limits of R138 on the phase taps `h` for `tau`, at multiples of 100 Hz from 0 to 3.2 kHz: a delay within 2^-14 sample of 6 + tau and a
gain within 0.000 2 % of 1. -/
def phaseLimits (tau : Int) (h : List Int) : Bool :=
  (gridHz 0 3200 100).all fun f =>
    let z := rotated (cosSin (f * (6144 + tau).toNat) 32768000) (response h f 32000)
    gainIn (2 ^ 30) 999996000004 1000004000004 z && decide (z.2.natAbs * 2 ^ 14 * respOne ≤ z.1 * (turnOf f 32000 + 1) + 2 ^ 60 * respOne)

/-- The rounding error after one more stage of taps `h`, where `e` is that before it: halves of the last place, `k` stages' 2^30 taken out. -/
def nextError (k e : Nat) (h : List Int) : Nat := e * absSum h + 2 ^ (30 * k)

/-- Whether an output of magnitude `a` for a bitstream of full scale, `j` stages of Q2.30 taps behind the CIC and with rounding errors `e`,
stays below the limit 2 - 2^-30 (R127, R633). -/
def belowLimit (j a e : Nat) : Bool := decide (a + e * 2 ^ 24 < 2 ^ (26 + 30 * j) - 2 ^ (30 * j - 5))

/-- What the spec says of the ROM's values: unit sums, the half-bands' zeros, tau = 0 an exact delay of 6; no output of any stage, for any tau
and any phase of the resampler, rounding included, at the limits for a bitstream of full scale (R131, R132, R138, R633); and the limits on
the responses (R133, R138). -/
def romOk : Bool :=
  let cmp := rawCoef 0 0 32
  let hb1 := rawCoef 1 0 11
  let hb2 := rawCoef 2 0 79
  let h := decimatedResponse cmp hb1 hb2
  let e2 := nextError 1 1 hb1
  let e3 := nextError 2 e2 hb2
  unitTaps cmp && unitTaps hb1 && unitTaps hb2 && halfBand 5 hb1 && halfBand 39 hb2 && rawPhase 0 == delayTaps 12 6
    && belowLimit 1 (absSum (conv (sinc5 32) (spread 32 cmp))) 1
    && belowLimit 2 (absSum (conv (conv (sinc5 32) (spread 32 cmp)) (spread 64 hb1))) e2 && belowLimit 3 (absSum h) e3
    && ((List.range 64).all fun p => unitTaps (rawCoef 3 (32 * p) 32))
    && decimationLimits h && resamplerLimits
    && (List.range 4096).all fun x =>
        let tau := (x : Int) - 2048
        let ph := rawPhase tau
        let m := conv h (spread 256 ph)
        let e4 := nextError 3 e3 ph
        unitTaps ph && phaseLimits tau ph && belowLimit 4 (absSum m) e4
          && (List.range 64).all fun p =>
              let c := rawCoef 3 (32 * p) 32
              belowLimit 5 (absSum (conv m (spread 256 c))) (nextError 4 e4 c)

/-- Default coefficient `t` of stage `s`: the ROM's value; a pure delay for a ROM that the spec excludes (log entry 6). -/
def defaultCoef (s t : Nat) : Int :=
  if romOk then Config.defaultCoef s t
  else match s with
    | 0 => if t = 0 then 2 ^ 30 else 0
    | 1 => if t = 5 then 2 ^ 30 else 0
    | 2 => if t = 39 then 2 ^ 30 else 0
    | _ => if t % 32 = 15 then 2 ^ 30 else 0

/-- Phase-stage tap `t` for `tau` (04 R138): as `defaultCoef`; at tau = 0 an exact delay of 6 samples in every case. -/
def phaseTap (tau : Int) (t : Nat) : Int :=
  if tau ≠ 0 ∧ romOk = true then Config.phaseTap tau t else if t = 6 then 2 ^ 30 else 0

end Sys2Proof.Machine
end

