-- ==== Sys2Proof/Machine/Crypto.lean ====
section
/-! DEFINITION. The functions of the standards that the spec names: AES-128 with CMAC (RFC 4493) and key wrap with padding (RFC 5649),
SHAKE256, and Ed448 (RFC 8032, 5.2). They are those standards' and not the spec's own (log entry 7). -/
namespace Sys2Proof.Machine

/-! ## AES-128 -/

/-- The S-box in rows of 16 bytes, the first in the low byte. -/
def aesSbox : List Nat :=
  [0x76abd7fe2b670130c56f6bf27b777c63, 0xc072a49cafa2d4adf04759fa7dc982ca, 0x1531d871f1e5a534ccf73f362693fdb7,
   0x75b227ebe28012079a059618c323c704, 0x842fe329b3d63b52a05a6e1b1a2c8309, 0xcf584c4a39becb6a5bb1fc20ed00d153,
   0xa89f3c507f02f94585334d43fbaaefd0, 0xd2f3ff1021dab6bcf5389d928f40a351, 0x73195d643d7ea7c41744975fec130ccd,
   0xdb0b5ede14b8ee4688902a22dc4f8160, 0x79e4959162acd3c25c2406490a3a32e0, 0x08ae7a65eaf4566ca94ed58d6d37c8e7,
   0x8a8bbd4b1f74dde8c6b4a61c2e2578ba, 0x9e1dc186b95735610ef6034866b53e70, 0xdf2855cee9871e9b948ed9691198f8e1,
   0x16bb54b00f2d99416842e6bf0d89a18c]

/-- Its inverse. -/
def aesSboxInv : List Nat :=
  [0xfbd7f3819ea340bf38a53630d56a0952, 0xcbe9dec444438e3487ff2f9b8239e37c, 0x4ec3fa420b954cee3d23c2a632947b54,
   0x25d18b6d49a25b76b224d92866a12e08, 0x92b6655dcc5ca4d41698688664f6f872, 0x849d8da75746155edab9edfd5048706c,
   0x0645b3b80558e4f70ad3bc8c00abd890, 0x6b8a130103bdafc1020f3fca8f1e2cd0, 0x73e6b4f0cecff297eadc674f4111913a,
   0x6edf751ce837f9e28535ade72274ac96, 0x1bbe18aa0e62b76f89c5291d711af147, 0xf45acd78fec0db9a2079d2c64b3e56fc,
   0x5fec8027591012b131c7078833a8dd1f, 0xef9cc9939f7ae52d0d4ab519a97f5160, 0x619953833cbbebc8b0f52aae4d3be0a0,
   0x7d0c2155631469e126d677ba7e042b17]

/-- A byte through a box. -/
def aesSub (box : List Nat) (x : Nat) : Nat := box.getD (x / 16) 0 / 2 ^ (8 * (x % 16)) % 256

/-- Twice a byte in the field of AES. -/
def aesDouble (x : Nat) : Nat := if x < 128 then 2 * x else (2 * x) ^^^ 0x11B

/-- A byte times a constant below 16. -/
def aesTimes (k x : Nat) : Nat :=
  let x2 := aesDouble x
  let x4 := aesDouble x2
  (if k.testBit 0 then x else 0) ^^^ (if k.testBit 1 then x2 else 0) ^^^ (if k.testBit 2 then x4 else 0)
    ^^^ (if k.testBit 3 then aesDouble x4 else 0)

/-- Exclusive or of two lists. -/
def xorL (a b : List Nat) : List Nat := List.zipWith (fun x y => x ^^^ y) a b

/-- The round key after `k`, with round constant `rc`. -/
def aesNextKey (rc : Nat) (k : List Nat) : List Nat :=
  let w := fun i => (k.drop (4 * i)).take 4
  let last := (w 3).map (aesSub aesSbox)
  let t := xorL [last.getD 1 0 ^^^ rc, last.getD 2 0, last.getD 3 0, last.getD 0 0] (w 0)
  let u := xorL t (w 1)
  let v := xorL u (w 2)
  t ++ u ++ v ++ xorL v (w 3)

/-- The round keys from `k` on. -/
def aesKeys : Nat → Nat → List Nat → List (List Nat)
  | 0, _, k => [k]
  | n + 1, rc, k => k :: aesKeys n (aesDouble rc) (aesNextKey rc k)

/-- Columns of a state multiplied by the circulant of four constants. -/
def aesMix (c : List Nat) (s : List Nat) : List Nat :=
  (List.range 16).map fun i =>
    (List.range 4).foldl (fun a k => a ^^^ aesTimes (c.getD k 0) (s.getD (4 * (i / 4) + (i + k) % 4) 0)) 0

/-- Rows of a state moved to the left: by `k` 4 for the cipher, 12 for its inverse. -/
def aesShift (k : Nat) (s : List Nat) : List Nat := (List.range 16).map fun i => s.getD ((i + k * (i % 4)) % 16) 0

/-- The rounds of the cipher after the first key. -/
def aesRounds : List (List Nat) → List Nat → List Nat
  | [], s => s
  | [k], s => xorL (aesShift 4 (s.map (aesSub aesSbox))) k
  | k :: r, s => aesRounds r (xorL (aesMix [2, 3, 1, 1] (aesShift 4 (s.map (aesSub aesSbox)))) k)

/-- The rounds of the inverse cipher after the last key. -/
def aesUnrounds : List (List Nat) → List Nat → List Nat
  | [], s => s
  | [k], s => xorL ((aesShift 12 s).map (aesSub aesSboxInv)) k
  | k :: r, s => aesUnrounds r (aesMix [14, 11, 13, 9] (xorL ((aesShift 12 s).map (aesSub aesSboxInv)) k))

/-- Bytes as numbers. -/
def natsOf (n : Nat) (b : Bytes) : List Nat := (List.range n).map fun i => byteAt b i
/-- Numbers as bytes. -/
def bytesOf (l : List Nat) : Bytes := l.map (BitVec.ofNat 8)

/-- AES-128 encryption of a block under a key. -/
@[irreducible] def aesBlock (key block : Bytes) : Bytes :=
  match aesKeys 10 1 (natsOf 16 key) with
  | k :: r => bytesOf (aesRounds r (xorL (natsOf 16 block) k))
  | [] => []

/-- AES-128 decryption of a block under a key. -/
@[irreducible] def aesUnblock (key block : Bytes) : Bytes :=
  match (aesKeys 10 1 (natsOf 16 key)).reverse with
  | k :: r => bytesOf (aesUnrounds r (xorL (natsOf 16 block) k))
  | [] => []

/-- A subkey of CMAC from the one before. -/
def cmacDouble (x : Nat) : Nat := if x < 2 ^ 127 then 2 * x else (2 * x - 2 ^ 128) ^^^ 0x87

/-- CMAC over the blocks of a message, the last one masked. -/
def cmacGo (key : Bytes) (k1 k2 : Nat) : Nat → Bytes → Bytes → Bytes
  | 0, x, _ => x
  | n + 1, x, m =>
    if 16 < m.length then cmacGo key k1 k2 n (aesBlock key (xorB x (m.take 16))) (m.drop 16)
    else
      let b := if m.length = 16 then xorB m (natBE 16 k1) else xorB (padTo 16 (m ++ [0x80#8])) (natBE 16 k2)
      aesBlock key (xorB x b)

/-- AES-128-CMAC of a message under a key (RFC 4493). -/
@[irreducible] def aesCmac (key m : Bytes) : Bytes :=
  let k1 := cmacDouble (beNat (aesBlock key (zeros 16)))
  cmacGo key k1 (cmacDouble k1) (m.length / 16 + 1) (zeros 16) m

/-- The steps `t` down to 1 of unwrapping: the integrity value and the other blocks of 8 bytes, the last first. -/
def unwrapGo (key : Bytes) : Nat → Nat → List Bytes → Nat × List Bytes
  | 0, a, r => (a, r)
  | t + 1, a, r =>
    match r with
    | [] => (a, r)
    | x :: rest =>
      let b := aesUnblock key (natBE 8 (a ^^^ (t + 1)) ++ x)
      unwrapGo key t (beNat (b.take 8)) (rest ++ [b.drop 8])

/-- The key data of AES-128 key wrap with padding under a key, none where the integrity check fails (RFC 5649). -/
@[irreducible] def keyUnwrap (key c : Bytes) : Option Bytes :=
  let n := c.length / 8 - 1
  if c.length % 8 != 0 || n = 0 then none
  else
    let z := if n = 1 then (let b := aesUnblock key c; (beNat (b.take 8), b.drop 8))
      else (let z := unwrapGo key (6 * n) (beNat (c.take 8)) (chunks 8 n (c.drop 8)).reverse; (z.1, z.2.reverse.flatten))
    let m := z.1 % 2 ^ 32
    if z.1 / 2 ^ 32 = 0xA65959A6 ∧ 8 * (n - 1) < m ∧ m ≤ 8 * n ∧ allZero (z.2.drop m) = true then some (z.2.take m) else none

/-! ## SHAKE256 -/

/-- The round constants of Keccak. -/
def keccakConsts : List Nat :=
  [0x1, 0x8082, 0x800000000000808a, 0x8000000080008000, 0x808b, 0x80000001,
   0x8000000080008081, 0x8000000000008009, 0x8a, 0x88, 0x80008009, 0x8000000a,
   0x8000808b, 0x800000000000008b, 0x8000000000008089, 0x8000000000008003, 0x8000000000008002, 0x8000000000000080,
   0x800a, 0x800000008000000a, 0x8000000080008081, 0x8000000000008080, 0x80000001, 0x8000000080008008]

/-- The rotation of each lane. -/
def keccakTurns : List Nat := [0, 1, 62, 28, 27, 36, 44, 6, 55, 20, 3, 10, 43, 25, 39, 41, 45, 15, 21, 8, 18, 2, 61, 56, 14]

/-- A lane of 64 bits rotated to the left. -/
def rotLane (n x : Nat) : Nat := x * 2 ^ n % 2 ^ 64 + x / 2 ^ (64 - n)

/-- One round over 25 lanes, lane (x, y) at `x + 5 * y`. -/
def keccakRound (a : List Nat) (rc : Nat) : List Nat :=
  let c := (List.range 5).map fun x => (List.range 5).foldl (fun s y => s ^^^ a.getD (x + 5 * y) 0) 0
  let e := (List.range 5).map fun x => c.getD ((x + 4) % 5) 0 ^^^ rotLane 1 (c.getD ((x + 1) % 5) 0)
  let t := (List.range 25).map fun i => rotLane (keccakTurns.getD i 0) (a.getD i 0 ^^^ e.getD (i % 5) 0)
  let b := (List.range 25).map fun i => t.getD ((i % 5 + 3 * (i / 5)) % 5 + 5 * (i % 5)) 0
  (List.range 25).map fun i =>
    let y := 5 * (i / 5)
    let v := b.getD i 0 ^^^ Nat.land (2 ^ 64 - 1 - b.getD (y + (i + 1 - y) % 5) 0) (b.getD (y + (i + 2 - y) % 5) 0)
    if i = 0 then v ^^^ rc else v

/-- The permutation. -/
def keccakF (a : List Nat) : List Nat := keccakConsts.foldl keccakRound a

/-- Take in blocks of 136 bytes. -/
def shakeAbsorb : Nat → Bytes → List Nat → List Nat
  | 0, _, a => a
  | n + 1, m, a =>
    shakeAbsorb n (m.drop 136) (keccakF ((List.range 25).map fun i => a.getD i 0 ^^^ (if i < 17 then leAt m (8 * i) 8 else 0)))

/-- Give out blocks of 136 bytes. -/
def shakeSqueeze : Nat → List Nat → Bytes
  | 0, _ => []
  | n + 1, a => (a.take 17).flatMap (natLE 8) ++ shakeSqueeze n (keccakF a)

/-- SHAKE256 with an output of `n` bytes. -/
@[irreducible] def shake256 (n : Nat) (m : Bytes) : Bytes :=
  let k := m.length / 136 + 1
  let last := 136 * k - m.length
  let p := m ++ (if last = 1 then [0x9F#8] else [0x1F#8] ++ zeros (last - 2) ++ [0x80#8])
  (shakeSqueeze ((n + 135) / 136) (shakeAbsorb k p (List.replicate 25 0))).take n

/-! ## Ed448 -/

/-- The field's prime. -/
def edPrime : Nat := 2 ^ 448 - 2 ^ 224 - 1
/-- The order of the base point. -/
def edOrder : Nat := 2 ^ 446 - 13818066809895115352007386748515426880336692474882178609894547503885
/-- The curve's constant `d`, the negative of 39 081. -/
def edD : Nat := edPrime - 39081

/-- `b` to the power `e` modulo the prime, over `f` bits. -/
def edPow : Nat → Nat → Nat → Nat
  | 0, _, _ => 1
  | f + 1, b, e =>
    let r := edPow f (b * b % edPrime) (e / 2)
    if e % 2 = 1 then b * r % edPrime else r

/-- The difference modulo the prime of two numbers below it. -/
def edSub (a b : Nat) : Nat := (a + edPrime - b) % edPrime

/-- A point in projective coordinates. -/
structure EdPoint where
  x : Nat
  y : Nat
  z : Nat
deriving DecidableEq, Repr

/-- The sum of two points (RFC 8032, 5.2.4). -/
def edAdd (p q : EdPoint) : EdPoint :=
  let a := p.z * q.z % edPrime
  let b := a * a % edPrime
  let c := p.x * q.x % edPrime
  let e := p.y * q.y % edPrime
  let k := edD * (c * e % edPrime) % edPrime
  let f := edSub b k
  let g := (b + k) % edPrime
  let h := (p.x + p.y) * (q.x + q.y) % edPrime
  ⟨a * f % edPrime * edSub (edSub h c) e % edPrime, a * g % edPrime * edSub e c % edPrime, f * g % edPrime⟩

/-- `n` times a point, over `f` bits. -/
def edMul : Nat → Nat → EdPoint → EdPoint
  | 0, _, _ => ⟨0, 1, 1⟩
  | f + 1, n, p =>
    let r := edMul f (n / 2) (edAdd p p)
    if n % 2 = 1 then edAdd p r else r

/-- The base point. -/
def edBase : EdPoint :=
  ⟨224580040295924300187604334099896036246789641632564134246125461686950415467406032909029192869357953282578032075146446173674602635247710,
   298819210078481492676017930443930673437544040154080242095928241372331506189835876003536878655418784733982303233503462500531545062832660,
   1⟩

/-- The encoding of a point: y with the lowest bit of x as bit 455. -/
def edEncode (p : EdPoint) : Bytes :=
  let i := edPow 448 p.z (edPrime - 2)
  natLE 57 (p.y * i % edPrime + p.x * i % edPrime % 2 * 2 ^ 455)

/-- The point that 57 bytes encode, where they do. -/
def edDecode (b : Bytes) : Option EdPoint :=
  let n := leNat (b.take 57)
  let s := n / 2 ^ 455
  let y := n % 2 ^ 455
  let y2 := y * y % edPrime
  let u := edSub y2 1
  let v := edSub (edD * y2 % edPrime) 1
  let u3 := u * u % edPrime * u % edPrime
  let u5v3 := u3 * (u * u % edPrime) % edPrime * (v * v % edPrime) % edPrime * v % edPrime
  let x := u3 * v % edPrime * edPow 448 u5v3 ((edPrime - 3) / 4) % edPrime
  if b.length != 57 || edPrime ≤ y || v * (x * x % edPrime) % edPrime != u || (x = 0 && s = 1) then none
  else some ⟨if x % 2 = s then x else edPrime - x, y, 1⟩

/-- The domain prefix of a signature under a context. -/
def edDom (ctx : Bytes) : Bytes := asciiB "SigEd448" ++ [0#8] ++ natLE 1 ctx.length ++ ctx

/-- A hash of 114 bytes as a number. -/
def edHash (b : Bytes) : Nat := leNat (shake256 114 b)

/-- The secret scalar of a private key. -/
def edScalar (k : Bytes) : Nat :=
  let n := leNat ((shake256 114 k).take 57) % 2 ^ 447
  n - n % 4 + 2 ^ 447

/-- The Ed448 public key of a private key. -/
@[irreducible] def ed448Public (k : Bytes) : Bytes := edEncode (edMul 456 (edScalar k) edBase)

/-- The Ed448 signature of a message under a context. -/
@[irreducible] def ed448Sign (k ctx m : Bytes) : Bytes :=
  let a := ed448Public k
  let r := edHash (edDom ctx ++ (shake256 114 k).drop 57 ++ m) % edOrder
  let p := edEncode (edMul 456 r edBase)
  let h := edHash (edDom ctx ++ p ++ a ++ m) % edOrder
  p ++ natLE 57 ((r + h * edScalar k) % edOrder)

/-- Whether two points are equal. -/
def edSame (p q : EdPoint) : Bool := p.x * q.z % edPrime == q.x * p.z % edPrime && p.y * q.z % edPrime == q.y * p.z % edPrime

/-- Ed448 verification, by the group equation with its factor 4. -/
@[irreducible] def ed448Verify (pk ctx m sig : Bytes) : Bool :=
  let s := leNat (sig.drop 57)
  match edDecode pk, edDecode (sig.take 57) with
  | some a, some r =>
    let h := edHash (edDom ctx ++ sig.take 57 ++ pk ++ m) % edOrder
    sig.length == 114 && decide (s < edOrder)
      && edSame (edMul 3 4 (edMul 456 s edBase)) (edMul 3 4 (edAdd r (edMul 456 h a)))
  | _, _ => false

end Sys2Proof.Machine
end

