-- ==== Sys2Proof/Machine/ObjTable.lean ====
section
/-! DEFINITION. The object table: every object of the dictionary with its type, direction, roles, persistence class, default
and range (02 R45 to R48, R50 and the object tables of every chapter). -/
namespace Sys2Proof.Machine

/-- The type of an object (R46): unsigned and signed of a number of bytes, a BLOB of a least and a greatest length, a STRING
and a DOMAIN of a greatest length. -/
inductive ObjTy where
  | bool
  | u (bytes : Nat)
  | s (bytes : Nat)
  | blob (min max : Nat)
  | str (max : Nat)
  | dom (max : Nat)
deriving DecidableEq, Repr

/-- The direction of access (R14). -/
inductive Dir where
  | ro
  | wo
  | rw
deriving DecidableEq, Repr

/-- The persistence class (R48), with the two memories the chapters name beside it: the tamper domain (08 R287) and the
count that only a power-on reset clears (01 R43). -/
inductive Cls where
  | image
  | config
  | metrology
  | billing
  | vol
  | warm
  | key
  | tamper
  | powerOn
deriving DecidableEq, Repr

/-- The range of a value (check 12 of R55): any, unsigned or signed between bounds, with one value beside the range, no bit
outside a mask, one of a list, or a rule of its own. -/
inductive Chk where
  | any
  | rng (lo hi : Nat)
  | srng (lo hi : Int)
  | rngOr (lo hi x : Nat)
  | mask (m : Nat)
  | one (l : List Nat)
  | rule
  | band
  | legal
deriving DecidableEq, Repr

/-- One row of an object table: indices `base + i * stride + j` for `i < n` and `j < inner`, sub-indices `subLo` to `subHi`;
the roles as a mask (P 1, O 2, U 4, M 8, S 16, D 32). -/
structure ObjRow where
  base : Nat
  n : Nat
  stride : Nat
  inner : Nat
  subLo : Nat
  subHi : Nat
  ty : ObjTy
  dir : Dir
  roles : Nat
  cls : Cls
  dflt : Nat
  chk : Chk
deriving DecidableEq, Repr

/-- Objects 0x1000 to 0x1fff, part 1 (R77, R83). -/
def rowsComm1 : List ObjRow := [
  ⟨0x1200, 1, 0x1, 1, 0x0, 0x0, .u 1, .ro, 1, .image, 0x2, .any⟩,
  ⟨0x1200, 1, 0x1, 1, 0x1, 0x1, .u 4, .ro, 1, .image, 0x600, .any⟩,
  ⟨0x1200, 1, 0x1, 1, 0x2, 0x2, .u 4, .ro, 1, .image, 0x580, .any⟩,
  ⟨0x1201, 3, 0x1, 1, 0x0, 0x0, .u 1, .ro, 1, .image, 0x3, .any⟩,
  ⟨0x1201, 3, 0x1, 1, 0x1, 0x1, .u 4, .rw, 2, .config, 0x80000000, .mask 0x800007FF⟩,
  ⟨0x1201, 3, 0x1, 1, 0x2, 0x2, .u 4, .rw, 2, .config, 0x80000000, .mask 0x800007FF⟩,
  ⟨0x1201, 3, 0x1, 1, 0x3, 0x3, .u 1, .rw, 2, .config, 0x0, .rng 0 127⟩,
  ⟨0x1000, 1, 0x1, 1, 0x0, 0x0, .u 4, .ro, 1, .image, 0x0, .any⟩,
  ⟨0x1001, 1, 0x1, 1, 0x0, 0x0, .u 1, .ro, 1, .image, 0x0, .any⟩,
  ⟨0x1008, 1, 0x1, 1, 0x0, 0x0, .str 16, .ro, 1, .image, 0, .any⟩,
  ⟨0x100a, 1, 0x1, 1, 0x0, 0x0, .str 32, .ro, 1, .image, 0, .any⟩,
  ⟨0x1017, 1, 0x1, 1, 0x0, 0x0, .u 2, .rw, 2, .config, 0x3e8, .any⟩,
  ⟨0x1018, 1, 0x1, 1, 0x1, 0x1, .u 4, .ro, 1, .image, 0x4a7, .any⟩,
  ⟨0x1018, 1, 0x1, 1, 0x2, 0x2, .u 4, .ro, 1, .image, 0x3240, .any⟩,
  ⟨0x1018, 1, 0x1, 1, 0x3, 0x3, .u 4, .ro, 1, .image, Config.revision, .any⟩,
  ⟨0x1018, 1, 0x1, 1, 0x4, 0x4, .u 4, .ro, 1, .image, Config.serialNumber, .any⟩,
  ⟨0x1100, 1, 0x1, 1, 0x1, 0x1, .u 2, .ro, 1, .config, 0x0, .any⟩,
  ⟨0x1100, 1, 0x1, 1, 0x2, 0x2, .u 4, .ro, 1, .vol, 0x0, .any⟩,
  ⟨0x1100, 1, 0x1, 1, 0x3, 0x3, .u 4, .ro, 1, .vol, 0x0, .any⟩,
  ⟨0x1100, 1, 0x1, 1, 0x4, 0x4, .u 4, .ro, 1, .vol, 0x0, .any⟩,
  ⟨0x1100, 1, 0x1, 1, 0x5, 0x5, .u 4, .ro, 1, .vol, 0x0, .any⟩,
  ⟨0x1100, 1, 0x1, 1, 0x6, 0x6, .u 2, .ro, 1, .vol, 0x0, .any⟩,
  ⟨0x1100, 1, 0x1, 1, 0x7, 0x7, .u 4, .ro, 1, .vol, 0x0, .any⟩,
  ⟨0x1101, 1, 0x1, 1, 0x1, 0x30, .blob 32 32, .ro, 2, .vol, 0, .any⟩,
  ⟨0x1102, 1, 0x1, 1, 0x0, 0x0, .dom 1472, .wo, 1, .config, 0, .any⟩,
  ⟨0x1103, 1, 0x1, 1, 0x0, 0x0, .dom 1472, .ro, 1, .image, 0, .any⟩,
  ⟨0x1104, 1, 0x1, 1, 0x1, 0x4, .u 4, .ro, 1, .config, 0x0, .any⟩,
  ⟨0x1110, 1, 0x1, 1, 0x1, 0x2, .u 1, .rw, 2, .config, 0x20, .rng 1 127⟩,
  ⟨0x1111, 1, 0x1, 1, 0x1, 0x1, .u 1, .rw, 2, .config, 1, .rng 0 1⟩,
  ⟨0x1111, 1, 0x1, 1, 0x2, 0x2, .u 1, .rw, 2, .config, 0, .rng 0 1⟩,
  ⟨0x1111, 1, 0x1, 1, 0x3, 0x3, .u 1, .rw, 2, .config, 0, .rng 0 1⟩,
  ⟨0x1111, 1, 0x1, 1, 0x4, 0x4, .u 1, .rw, 2, .config, 0, .rng 0 1⟩,
  ⟨0x1111, 1, 0x1, 1, 0x5, 0x5, .u 1, .rw, 2, .config, 1, .rng 0 1⟩,
  ⟨0x1111, 1, 0x1, 1, 0x6, 0x6, .u 1, .rw, 2, .config, 0, .rng 0 1⟩,
  ⟨0x1111, 1, 0x1, 1, 0x7, 0x7, .u 1, .rw, 2, .config, 0, .rng 0 1⟩,
  ⟨0x1111, 1, 0x1, 1, 0x8, 0x8, .u 1, .rw, 2, .config, 0, .rng 0 1⟩,
  ⟨0x1112, 1, 0x1, 1, 0x1, 0x20, .u 2, .rw, 2, .config, 0x0, .mask 0x17F⟩,
  ⟨0x1120, 1, 0x1, 1, 0x1, 0x1, .u 2, .rw, 2, .config, 0x1860, .rng 1024 65535⟩,
  ⟨0x1120, 1, 0x1, 1, 0x2, 0x2, .u 4, .rw, 2, .config, 0x258, .rng 60 86400⟩,
  ⟨0x1120, 1, 0x1, 1, 0x3, 0x3, .u 2, .rw, 2, .config, 0xa, .rng 1 600⟩]

/-- Objects 0x1000 to 0x1fff, part 2 (R77, R83). -/
def rowsComm2 : List ObjRow := [
  ⟨0x1121, 1, 0x1, 1, 0x1, 0x4, .u 1, .rw, 2, .config, 0x1, .rng 0 1⟩]

/-- Objects 0x1000 to 0x1fff. -/
def rowsComm : List ObjRow := rowsComm1 ++ rowsComm2

/-- Objects 0x2000 to 0x21ff, part 1 (R43, R310). -/
def rowsTick1 : List ObjRow := [
  ⟨0x2000, 1, 0x1, 1, 0x1, 0x1, .u 8, .ro, 1, .vol, 0x0, .any⟩,
  ⟨0x2000, 1, 0x1, 1, 0x2, 0x2, .u 1, .ro, 1, .vol, 0x0, .any⟩,
  ⟨0x2000, 1, 0x1, 1, 0x3, 0x3, .s 2, .ro, 1, .vol, 0x0, .any⟩,
  ⟨0x2000, 1, 0x1, 1, 0x4, 0x4, .u 4, .ro, 1, .powerOn, 0x0, .any⟩,
  ⟨0x2000, 1, 0x1, 1, 0x5, 0x5, .u 1, .ro, 1, .vol, 0x0, .any⟩,
  ⟨0x2000, 1, 0x1, 1, 0x6, 0x6, .u 1, .ro, 1, .vol, 0x0, .any⟩,
  ⟨0x2000, 1, 0x1, 1, 0x7, 0x7, .u 1, .ro, 1, .vol, 0x0, .any⟩,
  ⟨0x2000, 1, 0x1, 1, 0x10, 0x19, .u 2, .ro, 1, .vol, 0x0, .any⟩,
  ⟨0x2000, 1, 0x1, 1, 0x1a, 0x1d, .u 2, .ro, 1, .vol, 0x0, .any⟩,
  ⟨0x2100, 1, 0x1, 1, 0x1, 0x1, .u 1, .ro, 1, .vol, 0x1, .any⟩,
  ⟨0x2100, 1, 0x1, 1, 0x2, 0x2, .u 1, .ro, 1, .vol, 0x3, .any⟩,
  ⟨0x2100, 1, 0x1, 1, 0x3, 0x3, .u 8, .ro, 1, .vol, 0x0, .any⟩,
  ⟨0x2100, 1, 0x1, 1, 0x4, 0x4, .u 1, .ro, 1, .vol, 0x0, .any⟩,
  ⟨0x2100, 1, 0x1, 1, 0x5, 0x5, .u 4, .ro, 1, .config, 0x0, .any⟩,
  ⟨0x2100, 1, 0x1, 1, 0x6, 0x6, .u 4, .ro, 1, .config, 0x0, .any⟩,
  ⟨0x2100, 1, 0x1, 1, 0x7, 0x7, .u 8, .ro, 1, .config, 0x0, .any⟩,
  ⟨0x2100, 1, 0x1, 1, 0x8, 0x8, .u 1, .ro, 1, .config, 0x0, .any⟩,
  ⟨0x2100, 1, 0x1, 1, 0x9, 0x9, .u 1, .wo, 18, .vol, 0, .rng 1 1⟩,
  ⟨0x2100, 1, 0x1, 1, 0xa, 0xa, .u 4, .ro, 1, .config, 0x0, .any⟩,
  ⟨0x2100, 1, 0x1, 1, 0xb, 0xb, .u 4, .ro, 1, .warm, 0x0, .any⟩,
  ⟨0x2110, 1, 0x1, 1, 0x1, 0x40, .u 1, .rw, 2, .config, 0x1, .mask 0x1F⟩,
  ⟨0x2111, 1, 0x1, 1, 0x1, 0x8, .u 2, .rw, 2, .config, 0x5, .rng 1 200⟩,
  ⟨0x2112, 1, 0x1, 1, 0x1, 0x1, .u 1, .ro, 1, .vol, 0x0, .any⟩,
  ⟨0x2112, 1, 0x1, 1, 0x2, 0x2, .u 4, .ro, 1, .vol, 0x0, .any⟩,
  ⟨0x2112, 1, 0x1, 1, 0x3, 0x3, .u 1, .ro, 1, .vol, 0x0, .any⟩]

/-- Objects 0x2000 to 0x21ff. -/
def rowsTick : List ObjRow := rowsTick1

/-- Objects 0x2200 to 0x23ff, part 1 (R595, R596, R597). -/
def rowsKey1 : List ObjRow := [
  ⟨0x2200, 1, 0x1, 1, 0x1, 0x1, .u 1, .ro, 1, .key, 0x0, .any⟩,
  ⟨0x2200, 1, 0x1, 1, 0x2, 0x2, .u 1, .wo, 30, .vol, 0, .any⟩,
  ⟨0x2200, 1, 0x1, 1, 0x3, 0x3, .u 4, .ro, 1, .key, 0x0, .any⟩,
  ⟨0x2200, 1, 0x1, 1, 0x4, 0x4, .u 8, .ro, 1, .key, 0x0, .any⟩,
  ⟨0x2200, 1, 0x1, 1, 0x5, 0x5, .u 4, .ro, 1, .key, 0x0, .any⟩,
  ⟨0x2280, 1, 0x1, 1, 0x1, 0x1, .u 4, .ro, 1, .key, 0x20424, .any⟩,
  ⟨0x2281, 2, 0x1, 1, 0x1, 0x1, .u 4, .ro, 1, .key, 0x1000482, .any⟩,
  ⟨0x2283, 1, 0x1, 1, 0x1, 0x1, .u 4, .ro, 1, .key, 0x1100124, .any⟩,
  ⟨0x2284, 1, 0x1, 1, 0x1, 0x1, .u 4, .ro, 1, .key, 0x1100224, .any⟩,
  ⟨0x2285, 1, 0x1, 1, 0x1, 0x1, .u 4, .ro, 1, .key, 0x1100324, .any⟩,
  ⟨0x2286, 1, 0x1, 1, 0x1, 0x1, .u 4, .ro, 1, .key, 0x1100424, .any⟩,
  ⟨0x2287, 1, 0x1, 1, 0x1, 0x1, .u 4, .ro, 1, .key, 0x0, .any⟩,
  ⟨0x2288, 1, 0x1, 1, 0x1, 0x1, .u 4, .ro, 1, .key, 0x1100361, .any⟩,
  ⟨0x2289, 7, 0x1, 1, 0x1, 0x1, .u 4, .ro, 1, .key, 0x0, .any⟩,
  ⟨0x2290, 1, 0x1, 1, 0x1, 0x1, .u 4, .ro, 1, .key, 0x2100128, .any⟩,
  ⟨0x2291, 1, 0x1, 1, 0x1, 0x1, .u 4, .ro, 1, .key, 0x2100228, .any⟩,
  ⟨0x2292, 1, 0x1, 1, 0x1, 0x1, .u 4, .ro, 1, .key, 0x2100328, .any⟩,
  ⟨0x2293, 1, 0x1, 1, 0x1, 0x1, .u 4, .ro, 1, .key, 0x2100428, .any⟩,
  ⟨0x2294, 20, 0x1, 1, 0x1, 0x1, .u 4, .ro, 1, .key, 0x0, .any⟩,
  ⟨0x22a8, 8, 0x1, 1, 0x1, 0x1, .u 4, .ro, 1, .key, 0x1100142, .any⟩,
  ⟨0x22b0, 8, 0x1, 1, 0x1, 0x1, .u 4, .ro, 1, .key, 0x1100130, .any⟩,
  ⟨0x22b8, 72, 0x1, 1, 0x1, 0x1, .u 4, .ro, 1, .key, 0x0, .any⟩,
  ⟨0x2280, 128, 0x1, 1, 0x2, 0x2, .u 1, .ro, 1, .key, 0x0, .any⟩,
  ⟨0x2280, 128, 0x1, 1, 0x3, 0x3, .blob 0 57, .ro, 1, .key, 0, .any⟩,
  ⟨0x2280, 128, 0x1, 1, 0x4, 0x4, .blob 0 76, .wo, 30, .vol, 0, .any⟩,
  ⟨0x2280, 128, 0x1, 1, 0x5, 0x5, .blob 16 187, .ro, 30, .vol, 0, .any⟩,
  ⟨0x2280, 128, 0x1, 1, 0x6, 0x6, .blob 0 114, .wo, 30, .vol, 0, .any⟩,
  ⟨0x2280, 128, 0x1, 1, 0x7, 0x7, .u 4, .ro, 1, .key, 0x0, .any⟩,
  ⟨0x2280, 128, 0x1, 1, 0x8, 0x8, .bool, .wo, 10, .vol, 0, .any⟩,
  ⟨0x2280, 128, 0x1, 1, 0x9, 0x9, .bool, .wo, 30, .vol, 0, .any⟩,
  ⟨0x2280, 128, 0x1, 1, 0xa, 0xa, .u 4, .ro, 1, .vol, 0x0, .any⟩,
  ⟨0x2280, 128, 0x1, 1, 0xb, 0xb, .blob 0 57, .ro, 1, .key, 0, .any⟩,
  ⟨0x2280, 128, 0x1, 1, 0xc, 0xc, .u 8, .ro, 1, .key, 0x0, .any⟩,
  ⟨0x2300, 1, 0x1, 1, 0x1, 0x1, .blob 8 8, .wo, 22, .vol, 0, .any⟩,
  ⟨0x2300, 1, 0x1, 1, 0x2, 0x2, .u 1, .ro, 1, .vol, 0x0, .any⟩,
  ⟨0x2311, 3, 0x1, 1, 0x1, 0x1, .u 4, .ro, 1, .key, Config.factoryVersion, .any⟩,
  ⟨0x2311, 3, 0x1, 1, 0x2, 0x2, .u 4, .ro, 1, .vol, 0x0, .any⟩,
  ⟨0x2311, 3, 0x1, 1, 0x3, 0x3, .u 4, .ro, 1, .key, Config.factoryVersion, .any⟩,
  ⟨0x2311, 3, 0x1, 1, 0x4, 0x4, .u 1, .ro, 1, .key, 0x0, .any⟩,
  ⟨0x2311, 3, 0x1, 1, 0x5, 0x5, .u 1, .ro, 1, .vol, 0x0, .any⟩]

/-- Objects 0x2200 to 0x23ff, part 2 (R595, R596, R597). -/
def rowsKey2 : List ObjRow := [
  ⟨0x2311, 3, 0x1, 1, 0x6, 0x6, .u 2, .ro, 1, .vol, 0x0, .any⟩,
  ⟨0x2311, 3, 0x1, 1, 0x7, 0x7, .u 2, .ro, 1, .vol, 0x0, .any⟩,
  ⟨0x2311, 3, 0x1, 1, 0x8, 0x8, .u 4, .ro, 1, .vol, 0x0, .any⟩,
  ⟨0x2311, 3, 0x1, 1, 0x9, 0x9, .u 8, .ro, 1, .vol, 0x0, .any⟩,
  ⟨0x2311, 3, 0x1, 1, 0xa, 0xa, .u 4, .ro, 1, .vol, 0x0, .any⟩,
  ⟨0x2311, 3, 0x1, 1, 0xb, 0xb, .blob 64 64, .ro, 1, .vol, 0, .any⟩,
  ⟨0x2320, 1, 0x1, 1, 0x1, 0x1, .u 4, .ro, 1, .config, 0x0, .any⟩,
  ⟨0x2320, 1, 0x1, 1, 0x2, 0x2, .u 2, .ro, 1, .config, 0x0, .any⟩,
  ⟨0x2320, 1, 0x1, 1, 0x3, 0x3, .u 2, .ro, 1, .config, 0x0, .any⟩,
  ⟨0x2320, 1, 0x1, 1, 0x4, 0x4, .blob 512 512, .ro, 5, .config, 0, .any⟩,
  ⟨0x2320, 1, 0x1, 1, 0x5, 0x5, .u 4, .ro, 1, .config, 0x0, .any⟩,
  ⟨0x2320, 1, 0x1, 1, 0x6, 0x6, .u 8, .ro, 1, .config, 0x0, .any⟩,
  ⟨0x2330, 1, 0x1, 1, 0x1, 0x1, .blob 4104 4104, .wo, 18, .vol, 0, .any⟩,
  ⟨0x2330, 1, 0x1, 1, 0x2, 0x2, .bool, .rw, 18, .config, 0x1, .any⟩,
  ⟨0x2330, 1, 0x1, 1, 0x3, 0x3, .u 1, .ro, 1, .vol, 0x0, .any⟩,
  ⟨0x2330, 1, 0x1, 1, 0x4, 0x4, .u 4, .ro, 1, .vol, 0x0, .any⟩]

/-- Objects 0x2200 to 0x23ff. -/
def rowsKey : List ObjRow := rowsKey1 ++ rowsKey2

/-- Objects 0x2400 to 0x24ff, part 1 (R616). -/
def rowsLog1 : List ObjRow := [
  ⟨0x2400, 1, 0x1, 1, 0x1, 0x1, .u 4, .ro, 1, .warm, 0x0, .any⟩,
  ⟨0x2400, 1, 0x1, 1, 0x2, 0x2, .u 1, .rw, 2, .config, 0x0, .mask 3⟩,
  ⟨0x2400, 1, 0x1, 1, 0x4, 0x4, .u 4, .rw, 2, .config, 0x1, .any⟩,
  ⟨0x2400, 1, 0x1, 1, 0x5, 0x5, .u 4, .rw, 2, .config, 0x1, .any⟩,
  ⟨0x2400, 1, 0x1, 1, 0x6, 0x6, .u 4, .ro, 1, .vol, 0x0, .any⟩,
  ⟨0x2410, 1, 0x1, 1, 0x1, 0x8, .u 4, .ro, 1, .vol, 0x0, .any⟩,
  ⟨0x2410, 1, 0x1, 1, 0x9, 0x9, .blob 32 32, .wo, 2, .vol, 0, .any⟩,
  ⟨0x2420, 1, 0x1, 1, 0x1, 0x1, .u 4, .ro, 1, .warm, 0, .any⟩,
  ⟨0x2421, 2, 0x1, 1, 0x1, 0x1, .u 4, .ro, 1, .config, 0, .any⟩,
  ⟨0x2420, 1, 0x1, 1, 0x2, 0x2, .u 4, .ro, 1, .warm, 0, .any⟩,
  ⟨0x2421, 2, 0x1, 1, 0x2, 0x2, .u 4, .ro, 1, .config, 0, .any⟩,
  ⟨0x2420, 3, 0x1, 1, 0x3, 0x3, .u 4, .ro, 1, .vol, 0x0, .any⟩,
  ⟨0x2420, 3, 0x1, 1, 0x4, 0x4, .u 4, .ro, 1, .vol, 0x0, .any⟩,
  ⟨0x2420, 3, 0x1, 1, 0x5, 0x5, .u 8, .ro, 1, .vol, 0x0, .any⟩,
  ⟨0x2420, 3, 0x1, 1, 0x6, 0x6, .u 4, .ro, 1, .vol, 0x0, .any⟩,
  ⟨0x2440, 1, 0x1, 1, 0x1, 0x1, .u 1, .ro, 1, .vol, 0x0, .any⟩,
  ⟨0x2440, 1, 0x1, 1, 0x2, 0x2, .u 4, .ro, 1, .vol, 0x0, .any⟩,
  ⟨0x2440, 1, 0x1, 1, 0x3, 0x3, .u 4, .ro, 1, .vol, 0x0, .any⟩,
  ⟨0x2440, 1, 0x1, 1, 0x4, 0x4, .u 4, .ro, 1, .vol, 0x0, .any⟩,
  ⟨0x2480, 128, 0x1, 1, 0x1, 0x80, .blob 32 32, .ro, 1, .warm, 0, .any⟩]

/-- Objects 0x2400 to 0x24ff. -/
def rowsLog : List ObjRow := rowsLog1

/-- Objects 0x2500 to 0x267f, part 1 (R535, R536, R537, R562, R563, R564). -/
def rowsPort1 : List ObjRow := [
  ⟨0x2510, 32, 0x1, 1, 0x1, 0x1, .u 1, .rw, 2, .config, 3, .rng 0 6⟩,
  ⟨0x2530, 1, 0x1, 1, 0x1, 0x1, .u 1, .rw, 2, .config, 5, .rng 0 6⟩,
  ⟨0x2531, 1, 0x1, 1, 0x1, 0x1, .u 1, .rw, 2, .config, 4, .rng 0 6⟩,
  ⟨0x2532, 1, 0x1, 1, 0x1, 0x1, .u 1, .rw, 2, .config, 2, .rng 0 6⟩,
  ⟨0x2533, 1, 0x1, 1, 0x1, 0x1, .u 1, .rw, 2, .config, 5, .rng 0 6⟩,
  ⟨0x2534, 1, 0x1, 1, 0x1, 0x1, .u 1, .rw, 2, .config, 4, .rng 0 6⟩,
  ⟨0x2535, 1, 0x1, 1, 0x1, 0x1, .u 1, .rw, 2, .config, 1, .rng 0 6⟩,
  ⟨0x2510, 32, 0x1, 1, 0x2, 0x2, .u 1, .rw, 2, .config, 8, .rng 1 255⟩,
  ⟨0x2530, 1, 0x1, 1, 0x2, 0x2, .u 1, .rw, 2, .config, 128, .rng 1 255⟩,
  ⟨0x2531, 1, 0x1, 1, 0x2, 0x2, .u 1, .rw, 2, .config, 192, .rng 1 255⟩,
  ⟨0x2532, 1, 0x1, 1, 0x2, 0x2, .u 1, .rw, 2, .config, 128, .rng 1 255⟩,
  ⟨0x2533, 1, 0x1, 1, 0x2, 0x2, .u 1, .rw, 2, .config, 64, .rng 1 255⟩,
  ⟨0x2534, 1, 0x1, 1, 0x2, 0x2, .u 1, .rw, 2, .config, 192, .rng 1 255⟩,
  ⟨0x2535, 1, 0x1, 1, 0x2, 0x2, .u 1, .rw, 2, .config, 16, .rng 1 255⟩,
  ⟨0x2510, 38, 0x1, 1, 0x3, 0x3, .u 2, .ro, 1, .vol, 0x0, .any⟩,
  ⟨0x2510, 38, 0x1, 1, 0x4, 0x4, .u 4, .ro, 1, .vol, 0x0, .any⟩,
  ⟨0x2510, 38, 0x1, 1, 0x5, 0x5, .u 4, .ro, 1, .vol, 0x0, .any⟩,
  ⟨0x2510, 38, 0x1, 1, 0x6, 0x6, .u 4, .ro, 1, .vol, 0x0, .any⟩,
  ⟨0x2510, 38, 0x1, 1, 0x7, 0x7, .u 4, .ro, 1, .vol, 0x0, .any⟩,
  ⟨0x2510, 38, 0x1, 1, 0x8, 0x8, .u 4, .rw, 2, .config, 0x0, .any⟩,
  ⟨0x2510, 38, 0x1, 1, 0x9, 0x9, .u 4, .ro, 1, .vol, 0x0, .any⟩,
  ⟨0x2510, 38, 0x1, 1, 0xa, 0xa, .u 1, .ro, 1, .vol, 0x0, .any⟩,
  ⟨0x2510, 38, 0x1, 1, 0xb, 0xb, .u 1, .ro, 1, .vol, 0, .any⟩,
  ⟨0x2510, 38, 0x1, 1, 0xc, 0xc, .u 4, .ro, 1, .vol, 0x0, .any⟩,
  ⟨0x2500, 1, 0x1, 1, 0x1, 0x1, .bool, .wo, 2, .vol, 0, .any⟩,
  ⟨0x2540, 6, 0x1, 1, 0x1, 0x1, .u 2, .ro, 1, .vol, 0xff, .any⟩,
  ⟨0x2540, 6, 0x1, 1, 0x2, 0x2, .u 8, .ro, 1, .vol, 0x0, .any⟩,
  ⟨0x2540, 6, 0x1, 1, 0x3, 0x3, .u 8, .ro, 1, .vol, 0x0, .any⟩,
  ⟨0x2540, 6, 0x1, 1, 0x4, 0xb, .u 2, .ro, 1, .vol, 0x0, .any⟩,
  ⟨0x2580, 1, 0x1, 1, 0x1, 0x1, .u 4, .wo, 1, .vol, 0, .mask 0xFFFF⟩,
  ⟨0x2580, 1, 0x1, 1, 0x2, 0x2, .u 4, .wo, 18, .vol, 0, .mask 0xFFFF⟩,
  ⟨0x2580, 1, 0x1, 1, 0x3, 0x3, .u 4, .ro, 1, .vol, 0x0, .any⟩,
  ⟨0x2600, 1, 0x1, 1, 0x1, 0x1, .u 4, .ro, 1, .vol, 0x0, .any⟩,
  ⟨0x2600, 1, 0x1, 1, 0x2, 0x2, .u 4, .ro, 1, .vol, 0x0, .any⟩,
  ⟨0x2608, 1, 0x1, 1, 0x0, 0x0, .blob 256 256, .rw, 2, .config, 0, .any⟩,
  ⟨0x2610, 1, 0x1, 1, 0x1, 0x1, .u 1, .ro, 1, .vol, 0x0, .any⟩,
  ⟨0x2610, 1, 0x1, 1, 0x2, 0x2, .u 4, .ro, 1, .vol, 0x0, .any⟩,
  ⟨0x2610, 1, 0x1, 1, 0x3, 0x3, .u 4, .ro, 1, .vol, 0x0, .any⟩,
  ⟨0x2610, 1, 0x1, 1, 0x4, 0x4, .u 4, .ro, 1, .vol, 0x0, .any⟩,
  ⟨0x2610, 1, 0x1, 1, 0x5, 0x5, .u 4, .ro, 1, .vol, 0x0, .any⟩]

/-- Objects 0x2500 to 0x267f, part 2 (R535, R536, R537, R562, R563, R564). -/
def rowsPort2 : List ObjRow := [
  ⟨0x2618, 9, 0x1, 1, 0x1, 0x1, .bool, .rw, 2, .config, 0x1, .any⟩,
  ⟨0x2618, 9, 0x1, 1, 0x2, 0x2, .u 2, .ro, 1, .vol, 0x0, .any⟩,
  ⟨0x2618, 9, 0x1, 1, 0x3, 0x3, .u 4, .ro, 1, .vol, 0x0, .any⟩,
  ⟨0x2618, 9, 0x1, 1, 0x4, 0x4, .u 4, .ro, 1, .vol, 0x0, .any⟩,
  ⟨0x2630, 1, 0x1, 1, 0x1, 0x1, .blob 32 32, .wo, 2, .vol, 0, .any⟩,
  ⟨0x2630, 1, 0x1, 1, 0x2, 0x2, .u 1, .ro, 1, .vol, 0x0, .any⟩,
  ⟨0x2640, 2, 0x1, 1, 0x1, 0x1, .u 8, .rw, 2, .config, Config.macAddress, .mask 0xFFFFFFFFFFFF⟩,
  ⟨0x2640, 2, 0x1, 1, 0x2, 0x2, .u 4, .rw, 2, .config, 0x0, .any⟩,
  ⟨0x2640, 2, 0x1, 1, 0x3, 0x3, .u 1, .rw, 2, .config, 0x18, .rng 0 32⟩,
  ⟨0x2640, 2, 0x1, 1, 0x4, 0x4, .u 4, .rw, 2, .config, 0x0, .any⟩,
  ⟨0x2640, 2, 0x1, 1, 0x5, 0x5, .blob 17 17, .rw, 2, .config, 0, .any⟩,
  ⟨0x2640, 2, 0x1, 1, 0x6, 0x6, .u 1, .ro, 1, .vol, 0x0, .any⟩,
  ⟨0x2660, 2, 0x1, 1, 0x1, 0x1, .u 1, .ro, 1, .vol, 0x0, .any⟩,
  ⟨0x2660, 2, 0x1, 1, 0x2, 0x2, .u 1, .ro, 1, .vol, 0xff, .any⟩,
  ⟨0x2660, 2, 0x1, 1, 0x3, 0x3, .u 2, .ro, 1, .vol, 0x0, .any⟩,
  ⟨0x2660, 2, 0x1, 1, 0x4, 0x4, .u 4, .ro, 1, .vol, 0x0, .any⟩,
  ⟨0x2660, 2, 0x1, 1, 0x5, 0x5, .u 4, .ro, 1, .vol, 0x0, .any⟩,
  ⟨0x2668, 1, 0x1, 1, 0x1, 0x1, .u 1, .ro, 1, .vol, 0x0, .any⟩,
  ⟨0x2668, 1, 0x1, 1, 0x2, 0x2, .bool, .ro, 1, .vol, 0x0, .any⟩,
  ⟨0x2668, 1, 0x1, 1, 0x3, 0x3, .u 2, .ro, 1, .vol, 0x0, .any⟩]

/-- Objects 0x2500 to 0x267f. -/
def rowsPort : List ObjRow := rowsPort1 ++ rowsPort2

/-- Objects 0x2680 to 0x26ff, part 1 (R116). -/
def rowsLink1 : List ObjRow := [
  ⟨0x2680, 36, 0x1, 1, 0x1, 0x1, .u 1, .rw, 2, .config, 0x2, .rng 1 2⟩,
  ⟨0x2680, 36, 0x1, 1, 0x2, 0x2, .u 1, .ro, 1, .vol, 0x0, .any⟩,
  ⟨0x2680, 36, 0x1, 1, 0x3, 0x3, .u 1, .ro, 1, .vol, 0x0, .any⟩,
  ⟨0x2680, 36, 0x1, 1, 0x4, 0x4, .u 8, .ro, 1, .vol, 0x0, .any⟩,
  ⟨0x2680, 36, 0x1, 1, 0x5, 0x5, .u 2, .ro, 1, .vol, 0x0, .any⟩,
  ⟨0x2680, 36, 0x1, 1, 0x6, 0x6, .u 4, .ro, 1, .vol, 0x0, .any⟩,
  ⟨0x2680, 36, 0x1, 1, 0x7, 0x7, .u 4, .ro, 1, .vol, 0x0, .any⟩,
  ⟨0x2680, 36, 0x1, 1, 0x8, 0x8, .u 4, .ro, 1, .vol, 0x0, .any⟩,
  ⟨0x2680, 36, 0x1, 1, 0x9, 0x9, .bool, .rw, 2, .config, 0x1, .any⟩,
  ⟨0x2680, 36, 0x1, 1, 0xa, 0xa, .u 4, .ro, 1, .vol, 0x0, .any⟩,
  ⟨0x2680, 36, 0x1, 1, 0xb, 0xb, .bool, .wo, 16, .config, 0x0, .any⟩,
  ⟨0x2680, 36, 0x1, 1, 0xc, 0xc, .u 4, .rw, 2, .vol, 0x0, .any⟩]

/-- Objects 0x2680 to 0x26ff. -/
def rowsLink : List ObjRow := rowsLink1

/-- Objects 0x3000 to 0x35ff, part 1 (R131, R156, R158, R634). -/
def rowsChan1 : List ObjRow := [
  ⟨0x34f0, 1, 0x1, 1, 0x0, 0x0, .dom 196608, .ro, 1, .image, 0, .any⟩,
  ⟨0x34f1, 1, 0x1, 1, 0x0, 0x0, .dom 8680, .ro, 1, .image, 0, .any⟩,
  ⟨0x3000, 288, 0x1, 1, 0x1, 0x1, .u 1, .rw, 24, .metrology, 0x1, .rng 0 2⟩,
  ⟨0x3000, 288, 0x1, 1, 0x2, 0x2, .u 1, .rw, 24, .metrology, 0x0, .rng 0 5⟩,
  ⟨0x3000, 288, 0x1, 1, 0x3, 0x3, .u 2, .rw, 24, .metrology, 0x20, .rng 4 4096⟩,
  ⟨0x3000, 288, 0x1, 1, 0x4, 0x4, .u 1, .rw, 24, .metrology, 0x0, .rng 0 3⟩,
  ⟨0x3000, 288, 0x1, 1, 0x5, 0x5, .u 2, .rw, 24, .metrology, 0x20, .rng 1 256⟩,
  ⟨0x3000, 288, 0x1, 1, 0x6, 0x6, .u 1, .rw, 24, .metrology, 0x0, .rngOr 0 3 0xFF⟩,
  ⟨0x3000, 288, 0x1, 1, 0x7, 0x7, .u 2, .rw, 24, .metrology, 0x14, .rng 10 2000⟩,
  ⟨0x3000, 288, 0x1, 1, 0x8, 0x8, .u 2, .rw, 24, .metrology, 0x32, .rng 10 2000⟩,
  ⟨0x3000, 288, 0x1, 1, 0x9, 0x9, .u 2, .ro, 1, .vol, 0x1, .any⟩,
  ⟨0x3000, 288, 0x1, 1, 0xa, 0xa, .u 4, .ro, 1, .vol, 0x0, .any⟩,
  ⟨0x3000, 288, 0x1, 1, 0xb, 0xb, .u 4, .ro, 1, .vol, 0x0, .any⟩,
  ⟨0x3000, 288, 0x1, 1, 0xc, 0xc, .s 4, .ro, 1, .vol, 0x0, .any⟩,
  ⟨0x3000, 288, 0x1, 1, 0xd, 0xd, .s 4, .ro, 1, .vol, 0x0, .any⟩,
  ⟨0x3000, 288, 0x1, 1, 0xe, 0xe, .u 4, .ro, 1, .vol, 0x0, .any⟩,
  ⟨0x3480, 4, 0x1, 1, 0x1, 0x1, .u 1, .ro, 1, .vol, 0x0, .any⟩,
  ⟨0x3480, 4, 0x1, 1, 0x2, 0x2, .blob 20 20, .wo, 24, .metrology, 0, .any⟩,
  ⟨0x3480, 4, 0x1, 1, 0x3, 0xa, .u 4, .ro, 1, .vol, 0, .any⟩,
  ⟨0x3480, 4, 0x1, 1, 0xb, 0xb, .u 4, .ro, 1, .vol, 0x0, .any⟩,
  ⟨0x3480, 4, 0x1, 1, 0xc, 0xc, .u 8, .ro, 1, .vol, 0x0, .any⟩,
  ⟨0x3480, 4, 0x1, 1, 0xd, 0xd, .u 1, .wo, 24, .metrology, 0, .mask 0xF⟩,
  ⟨0x34c0, 4, 0x1, 1, 0x1, 0x1, .u 2, .rw, 24, .metrology, 0x100, .rng 0 287⟩,
  ⟨0x34c0, 4, 0x1, 1, 0x2, 0x2, .u 1, .rw, 24, .metrology, 0x0, .rng 0 1⟩,
  ⟨0x34c0, 4, 0x1, 1, 0x3, 0x3, .u 1, .ro, 1, .vol, 0x0, .any⟩,
  ⟨0x34c0, 4, 0x1, 1, 0x4, 0x4, .u 4, .ro, 1, .vol, 0x0, .any⟩,
  ⟨0x34c0, 4, 0x1, 1, 0x5, 0x5, .u 4, .ro, 1, .vol, 0x0, .any⟩,
  ⟨0x34c0, 4, 0x1, 1, 0x6, 0x6, .u 4, .ro, 1, .vol, 0x0, .any⟩,
  ⟨0x3400, 4, 0x10, 2, 0x0, 0x0, .blob 128 128, .rw, 24, .metrology, 0, .any⟩,
  ⟨0x3402, 4, 0x10, 2, 0x0, 0x0, .blob 44 44, .rw, 24, .metrology, 0, .any⟩,
  ⟨0x3404, 4, 0x10, 2, 0x0, 0x0, .blob 316 316, .rw, 24, .metrology, 0, .any⟩,
  ⟨0x3406, 4, 0x10, 2, 0x0, 0x0, .blob 8192 8192, .rw, 24, .metrology, 0, .any⟩]

/-- Objects 0x3000 to 0x35ff. -/
def rowsChan : List ObjRow := rowsChan1

/-- Objects 0x3600 to 0x3fff, part 1 (R197). -/
def rowsCal1 : List ObjRow := [
  ⟨0x3600, 288, 0x1, 1, 0x1, 0x1, .s 4, .rw, 24, .metrology, 0x40000000, .any⟩,
  ⟨0x3600, 288, 0x1, 1, 0x2, 0x2, .s 4, .rw, 24, .metrology, 0x0, .any⟩,
  ⟨0x3600, 288, 0x1, 1, 0x3, 0x3, .s 2, .rw, 24, .metrology, 0x0, .srng (-2048) 2047⟩,
  ⟨0x3600, 288, 0x1, 1, 0x4, 0x4, .s 4, .rw, 24, .metrology, 0x40000000, .any⟩,
  ⟨0x3600, 288, 0x1, 1, 0x5, 0x5, .u 2, .rw, 24, .metrology, 0xffff, .rngOr 0 287 0xFFFF⟩,
  ⟨0x3600, 288, 0x1, 1, 0x6, 0x6, .u 1, .rw, 24, .metrology, 0x2, .rng 0 5⟩,
  ⟨0x3600, 288, 0x1, 1, 0x7, 0x7, .s 4, .ro, 1, .vol, 0x0, .any⟩,
  ⟨0x3600, 288, 0x1, 1, 0x8, 0x8, .u 1, .ro, 1, .vol, 0xa, .any⟩,
  ⟨0x3600, 288, 0x1, 1, 0x9, 0x9, .s 4, .ro, 1, .vol, 0x40000000, .any⟩,
  ⟨0x3600, 288, 0x1, 1, 0xa, 0xa, .u 4, .ro, 1, .metrology, 0x0, .any⟩,
  ⟨0x3600, 288, 0x1, 1, 0xb, 0xb, .u 8, .ro, 1, .metrology, 0x0, .any⟩,
  ⟨0x3600, 288, 0x1, 1, 0xc, 0xc, .u 4, .ro, 1, .vol, 0x0, .any⟩,
  ⟨0x3600, 288, 0x1, 1, 0xd, 0xd, .u 4, .rw, 26, .vol, 0x0, .rng 0 1048576⟩,
  ⟨0x3600, 288, 0x1, 1, 0xe, 0xe, .u 1, .ro, 1, .vol, 0x0, .any⟩,
  ⟨0x3600, 288, 0x1, 1, 0xf, 0xf, .blob 64 64, .ro, 1, .vol, 0, .any⟩,
  ⟨0x3600, 288, 0x1, 1, 0x10, 0x10, .blob 128 128, .ro, 1, .vol, 0, .any⟩,
  ⟨0x3600, 288, 0x1, 1, 0x11, 0x16, .blob 16 16, .rw, 24, .metrology, 0, .any⟩]

/-- Objects 0x3600 to 0x3fff. -/
def rowsCal : List ObjRow := rowsCal1

/-- Objects 0x4000 to 0x48ff, part 1 (R193, R194, R195, R228, R229, R231, R246, R247). -/
def rowsMeter1 : List ObjRow := [
  ⟨0x4000, 36, 0x40, 1, 0x1, 0x1, .u 1, .rw, 24, .metrology, 0x0, .rng 0 2⟩,
  ⟨0x4000, 36, 0x40, 1, 0x2, 0x2, .u 1, .rw, 24, .metrology, 0x0, .mask 0xF⟩,
  ⟨0x4000, 36, 0x40, 1, 0x3, 0x3, .u 1, .rw, 24, .metrology, 0x0, .rng 0 3⟩,
  ⟨0x4000, 36, 0x40, 1, 0x4, 0x4, .u 2, .rw, 24, .metrology, 0xc8, .rng 10 2000⟩,
  ⟨0x4000, 36, 0x40, 1, 0x5, 0x5, .u 1, .rw, 24, .metrology, 0x0, .rng 0 3⟩,
  ⟨0x4001, 36, 0x40, 4, 0x1, 0x1, .u 2, .rw, 24, .metrology, 0xffff, .rngOr 0 287 0xFFFF⟩,
  ⟨0x4001, 36, 0x40, 4, 0x2, 0x2, .u 2, .rw, 24, .metrology, 0xffff, .rngOr 0 287 0xFFFF⟩,
  ⟨0x4001, 36, 0x40, 4, 0x3, 0x3, .u 4, .rw, 24, .metrology, 0x4e20, .rng 2000 5000000⟩,
  ⟨0x4005, 36, 0x40, 1, 0x1, 0x1, .u 4, .ro, 1, .vol, 0x0, .any⟩,
  ⟨0x4005, 36, 0x40, 1, 0x2, 0x2, .u 2, .ro, 1, .vol, 0x0, .any⟩,
  ⟨0x4005, 36, 0x40, 1, 0x3, 0x3, .s 8, .ro, 1, .vol, 0x0, .any⟩,
  ⟨0x4005, 36, 0x40, 1, 0x4, 0x4, .s 8, .ro, 1, .vol, 0x0, .any⟩,
  ⟨0x4005, 36, 0x40, 1, 0x5, 0x5, .u 8, .ro, 1, .vol, 0x0, .any⟩,
  ⟨0x4005, 36, 0x40, 1, 0x6, 0x6, .u 1, .ro, 1, .vol, 0x1, .any⟩,
  ⟨0x4005, 36, 0x40, 1, 0x7, 0xa, .s 8, .ro, 1, .vol, 0x0, .any⟩,
  ⟨0x4005, 36, 0x40, 1, 0xb, 0xe, .u 4, .ro, 1, .vol, 0x0, .any⟩,
  ⟨0x4005, 36, 0x40, 1, 0xf, 0x12, .u 4, .ro, 1, .vol, 0x0, .any⟩,
  ⟨0x4005, 36, 0x40, 1, 0x13, 0x13, .u 4, .ro, 1, .vol, 0x0, .any⟩,
  ⟨0x4005, 36, 0x40, 1, 0x14, 0x14, .u 4, .ro, 1, .vol, 0x0, .any⟩,
  ⟨0x4006, 36, 0x40, 1, 0x1, 0x1, .u 12, .ro, 1, .billing, 0x0, .any⟩,
  ⟨0x4006, 36, 0x40, 1, 0x2, 0x2, .u 12, .ro, 1, .billing, 0x0, .any⟩,
  ⟨0x4006, 36, 0x40, 1, 0x3, 0x6, .u 12, .ro, 1, .billing, 0x0, .any⟩,
  ⟨0x4006, 36, 0x40, 1, 0x7, 0x7, .u 12, .ro, 1, .billing, 0x0, .any⟩,
  ⟨0x4006, 36, 0x40, 1, 0x8, 0x8, .u 12, .ro, 1, .billing, 0x0, .any⟩,
  ⟨0x4006, 36, 0x40, 1, 0x9, 0x9, .u 12, .ro, 1, .billing, 0x0, .any⟩,
  ⟨0x4006, 36, 0x40, 1, 0xa, 0xa, .u 8, .ro, 1, .billing, 0x0, .any⟩,
  ⟨0x4006, 36, 0x40, 1, 0xb, 0xb, .u 4, .ro, 1, .billing, 0x0, .any⟩,
  ⟨0x4006, 36, 0x40, 1, 0xc, 0xc, .u 4, .ro, 1, .billing, 0x0, .any⟩,
  ⟨0x4007, 36, 0x40, 1, 0x1, 0x1, .u 1, .ro, 1, .billing, 0x0, .any⟩,
  ⟨0x4007, 36, 0x40, 1, 0x2, 0x5, .u 4, .ro, 1, .vol, 0x0, .any⟩,
  ⟨0x4009, 36, 0x40, 8, 0x1, 0x8, .u 8, .ro, 1, .billing, 0x0, .any⟩,
  ⟨0x4009, 36, 0x40, 8, 0x9, 0x10, .u 8, .ro, 1, .billing, 0x0, .any⟩,
  ⟨0x4008, 36, 0x40, 1, 0x1, 0x1, .u 1, .rw, 6, .config, 0x0, .rng 0 3⟩,
  ⟨0x4008, 36, 0x40, 1, 0x2, 0x2, .u 1, .rw, 6, .config, 0xf, .one [1, 2, 3, 4, 5, 6, 10, 12, 15, 20, 30, 60]⟩,
  ⟨0x4008, 36, 0x40, 1, 0x3, 0x3, .u 1, .rw, 6, .config, 0x1, .rng 1 15⟩,
  ⟨0x4008, 36, 0x40, 1, 0x4, 0x4, .u 1, .rw, 6, .config, 0x0, .rng 0 8⟩,
  ⟨0x4008, 36, 0x40, 1, 0x5, 0x5, .u 1, .ro, 1, .vol, 0x1, .any⟩,
  ⟨0x4008, 36, 0x40, 1, 0x6, 0x6, .u 2, .ro, 1, .vol, 0x5, .any⟩,
  ⟨0x401a, 36, 0x40, 1, 0x1, 0x8, .u 8, .ro, 1, .vol, 0x0, .any⟩,
  ⟨0x4011, 36, 0x40, 8, 0x1, 0x1, .u 8, .ro, 1, .billing, 0x0, .any⟩]

/-- Objects 0x4000 to 0x48ff, part 2 (R193, R194, R195, R228, R229, R231, R246, R247). -/
def rowsMeter2 : List ObjRow := [
  ⟨0x4011, 36, 0x40, 8, 0x2, 0x2, .u 8, .ro, 1, .billing, 0x0, .any⟩,
  ⟨0x4011, 36, 0x40, 8, 0x3, 0x3, .u 8, .ro, 1, .billing, 0x0, .any⟩,
  ⟨0x4011, 36, 0x40, 8, 0x4, 0x4, .u 8, .ro, 1, .billing, 0x0, .any⟩,
  ⟨0x4011, 36, 0x40, 8, 0x5, 0x5, .u 8, .ro, 1, .billing, 0x0, .any⟩,
  ⟨0x4011, 36, 0x40, 8, 0x6, 0x6, .u 8, .ro, 1, .billing, 0x0, .any⟩,
  ⟨0x4019, 36, 0x40, 1, 0x1, 0x1, .u 8, .ro, 1, .billing, 0x0, .any⟩,
  ⟨0x4019, 36, 0x40, 1, 0x2, 0x2, .u 4, .ro, 1, .billing, 0x0, .any⟩,
  ⟨0x4019, 36, 0x40, 1, 0x3, 0x5, .u 12, .ro, 1, .billing, 0x0, .any⟩,
  ⟨0x4019, 36, 0x40, 1, 0x6, 0x8, .u 8, .ro, 1, .billing, 0x0, .any⟩,
  ⟨0x4019, 36, 0x40, 1, 0x9, 0x9, .u 4, .ro, 1, .billing, 0x0, .any⟩,
  ⟨0x4019, 36, 0x40, 1, 0xa, 0xa, .u 8, .ro, 1, .billing, 0x0, .any⟩,
  ⟨0x4019, 36, 0x40, 1, 0xb, 0xb, .u 1, .ro, 1, .billing, 0x0, .any⟩]

/-- Objects 0x4000 to 0x48ff. -/
def rowsMeter : List ObjRow := rowsMeter1 ++ rowsMeter2

/-- Objects 0x4900 to 0x49ff, part 1 (R196). -/
def rowsPulse1 : List ObjRow := [
  ⟨0x49f0, 4, 0x1, 1, 0x1, 0x1, .u 1, .rw, 24, .config, 0x0, .rngOr 0 35 0xFF⟩,
  ⟨0x49f0, 4, 0x1, 1, 0x2, 0x2, .u 1, .rw, 24, .config, 0x1, .rng 1 8⟩,
  ⟨0x49f0, 4, 0x1, 1, 0x3, 0x3, .u 4, .rw, 24, .config, 0x2710, .rng 1 1000000⟩,
  ⟨0x49f0, 4, 0x1, 1, 0x4, 0x4, .u 2, .rw, 24, .config, 0x40, .rng 32 3200⟩,
  ⟨0x49f0, 4, 0x1, 1, 0x5, 0x5, .u 12, .ro, 1, .billing, 0x0, .any⟩,
  ⟨0x49f0, 4, 0x1, 1, 0x6, 0x6, .u 4, .ro, 1, .billing, 0x0, .any⟩,
  ⟨0x49f0, 4, 0x1, 1, 0x7, 0x7, .u 8, .ro, 1, .vol, 0x0, .any⟩]

/-- Objects 0x4900 to 0x49ff. -/
def rowsPulse : List ObjRow := rowsPulse1

/-- Objects 0x4a00 to 0x4cff, part 1 (R237, R240, R255). -/
def rowsTariff1 : List ObjRow := [
  ⟨0x4a90, 1, 0x1, 1, 0x1, 0x1, .blob 12 12, .ro, 1, .vol, 0, .any⟩,
  ⟨0x4a90, 1, 0x1, 1, 0x2, 0x2, .blob 20 20, .wo, 6, .vol, 0, .any⟩,
  ⟨0x4a90, 1, 0x1, 1, 0x3, 0x3, .s 4, .wo, 6, .vol, 0, .srng (-60000) 60000⟩,
  ⟨0x4a90, 1, 0x1, 1, 0x4, 0x4, .s 4, .ro, 1, .vol, 0x0, .any⟩,
  ⟨0x4a90, 1, 0x1, 1, 0x5, 0x5, .bool, .ro, 1, .vol, 0x0, .any⟩,
  ⟨0x4a90, 1, 0x1, 1, 0x6, 0x6, .u 4, .ro, 1, .billing, 0x0, .any⟩,
  ⟨0x4a90, 1, 0x1, 1, 0x7, 0x7, .u 8, .ro, 1, .vol, 0x0, .any⟩,
  ⟨0x4a90, 1, 0x1, 1, 0x10, 0x10, .s 2, .rw, 6, .config, 0x0, .srng (-720) 840⟩,
  ⟨0x4a90, 1, 0x1, 1, 0x11, 0x11, .u 1, .rw, 6, .config, 0x3c, .rng 0 120⟩,
  ⟨0x4a90, 1, 0x1, 1, 0x12, 0x12, .u 4, .rw, 6, .config, 0x0, .rule⟩,
  ⟨0x4a90, 1, 0x1, 1, 0x13, 0x13, .u 4, .rw, 6, .config, 0x0, .rule⟩,
  ⟨0x4a90, 1, 0x1, 1, 0x14, 0x14, .blob 12 12, .ro, 1, .vol, 0, .any⟩,
  ⟨0x4a00, 4, 0x10, 1, 0x1, 0x1, .blob 1512 1512, .ro, 1, .config, 0, .any⟩,
  ⟨0x4a00, 4, 0x10, 1, 0x2, 0x2, .blob 1512 1512, .rw, 6, .config, 0, .any⟩,
  ⟨0x4a00, 4, 0x10, 1, 0x3, 0x3, .u 8, .rw, 6, .config, 0x0, .any⟩,
  ⟨0x4a00, 4, 0x10, 1, 0x4, 0x4, .u 4, .ro, 1, .config, 0, .any⟩,
  ⟨0x4a00, 4, 0x10, 1, 0x5, 0x5, .u 4, .ro, 1, .config, 0, .any⟩,
  ⟨0x4a00, 4, 0x10, 1, 0x6, 0x6, .u 4, .ro, 1, .config, 0x0, .any⟩,
  ⟨0x4c00, 1, 0x1, 1, 0x1, 0x1, .u 1, .rw, 6, .config, 0x1, .rng 0 28⟩,
  ⟨0x4c00, 1, 0x1, 1, 0x2, 0x2, .u 2, .rw, 6, .config, 0x0, .rng 0 1439⟩,
  ⟨0x4c00, 1, 0x1, 1, 0x3, 0x3, .u 1, .wo, 6, .vol, 0, .rng 1 2⟩,
  ⟨0x4c00, 1, 0x1, 1, 0x4, 0x4, .u 4, .ro, 1, .billing, 0x0, .any⟩,
  ⟨0x4c00, 1, 0x1, 1, 0x5, 0x5, .u 8, .ro, 1, .billing, 0x0, .any⟩,
  ⟨0x4c00, 1, 0x1, 1, 0x6, 0x6, .u 4, .ro, 1, .billing, 0x0, .any⟩,
  ⟨0x4c10, 36, 0x1, 1, 0x1, 0x24, .blob 1024 1024, .ro, 6, .billing, 0, .any⟩]

/-- Objects 0x4a00 to 0x4cff. -/
def rowsTariff : List ObjRow := rowsTariff1

/-- Objects 0x4d00 to 0x4fff, part 1 (R259, R277, R282, R287). -/
def rowsReading1 : List ObjRow := [
  ⟨0x4e00, 1, 0x1, 1, 0x1, 0x1, .u 4, .ro, 2, .billing, 0x0, .any⟩,
  ⟨0x4e00, 1, 0x1, 1, 0x2, 0x2, .u 4, .ro, 2, .billing, 0x0, .any⟩,
  ⟨0x4e00, 1, 0x1, 1, 0x3, 0x3, .u 4, .ro, 2, .billing, 0x0, .any⟩,
  ⟨0x4e20, 32, 0x1, 1, 0x1, 0x80, .blob 128 128, .ro, 2, .billing, 0, .any⟩,
  ⟨0x4e40, 32, 0x1, 1, 0x0, 0x0, .blob 128 128, .ro, 2, .vol, 0, .any⟩,
  ⟨0x4d80, 1, 0x1, 1, 0x1, 0x1, .u 4, .ro, 1, .vol, 0x0, .any⟩,
  ⟨0x4d80, 1, 0x1, 1, 0x2, 0x2, .bool, .ro, 1, .vol, 0x0, .any⟩,
  ⟨0x4d80, 1, 0x1, 1, 0x3, 0x3, .u 2, .ro, 1, .vol, 0x0, .any⟩,
  ⟨0x4d80, 1, 0x1, 1, 0x4, 0x4, .u 2, .ro, 1, .key, 0x0, .any⟩,
  ⟨0x4d80, 1, 0x1, 1, 0x5, 0x5, .blob 57 57, .ro, 1, .vol, 0, .any⟩,
  ⟨0x4d80, 1, 0x1, 1, 0x6, 0x6, .u 4, .ro, 1, .billing, 0x0, .any⟩,
  ⟨0x4d80, 1, 0x1, 1, 0x7, 0x7, .u 4, .ro, 1, .billing, 0x0, .any⟩,
  ⟨0x4d80, 1, 0x1, 1, 0x8, 0x8, .u 4, .ro, 1, .vol, 0x0, .any⟩,
  ⟨0x4d90, 36, 0x1, 1, 0x1, 0x1, .blob 242 242, .ro, 1, .vol, 0, .any⟩,
  ⟨0x4d90, 36, 0x1, 1, 0x2, 0x2, .bool, .wo, 7, .vol, 0, .any⟩,
  ⟨0x4d90, 36, 0x1, 1, 0x3, 0x3, .u 2, .rw, 6, .config, 0x0, .rng 0 1440⟩,
  ⟨0x4dc0, 32, 0x1, 1, 0x1, 0x80, .blob 242 242, .ro, 1, .billing, 0, .any⟩,
  ⟨0x4d00, 64, 0x1, 1, 0x1, 0x80, .blob 64 64, .ro, 1, .billing, 0, .any⟩,
  ⟨0x4d40, 1, 0x1, 1, 0x1, 0x1, .u 4, .ro, 1, .vol, 0x0, .any⟩,
  ⟨0x4d40, 1, 0x1, 1, 0x2, 0x2, .u 4, .ro, 1, .vol, 0x0, .any⟩,
  ⟨0x4d40, 1, 0x1, 1, 0x3, 0x3, .u 4, .ro, 1, .billing, 0x0, .any⟩,
  ⟨0x4de0, 1, 0x1, 1, 0x1, 0x1, .u 1, .rw, 24, .metrology, 0x1f, .any⟩,
  ⟨0x4de0, 1, 0x1, 1, 0x2, 0x2, .u 1, .rw, 24, .metrology, 0x0, .any⟩,
  ⟨0x4de0, 1, 0x1, 1, 0x3, 0x3, .s 1, .rw, 24, .metrology, 0x0, .srng (-127) 127⟩,
  ⟨0x4de0, 1, 0x1, 1, 0x4, 0x4, .u 1, .ro, 1, .tamper, 0x0, .any⟩,
  ⟨0x4de0, 1, 0x1, 1, 0x5, 0x5, .u 2, .ro, 1, .tamper, 0x0, .any⟩,
  ⟨0x4de0, 1, 0x1, 1, 0x6, 0x6, .u 1, .ro, 1, .tamper, 0x0, .any⟩,
  ⟨0x4de1, 1, 0x1, 1, 0x1, 0x8, .u 1, .rw, 24, .metrology, 0x20, .rng 1 255⟩,
  ⟨0x4de2, 1, 0x1, 1, 0x1, 0x40, .blob 16 16, .ro, 1, .tamper, 0, .any⟩,
  ⟨0x4de3, 1, 0x1, 1, 0x1, 0x8, .u 2, .ro, 1, .tamper, 0x0, .any⟩]

/-- Objects 0x4d00 to 0x4fff. -/
def rowsReading : List ObjRow := rowsReading1

/-- Objects 0x5000 to 0x5fff, part 1 (R343, R344, R345, R346). -/
def rowsOutlet1 : List ObjRow := [
  ⟨0x5000, 32, 0x20, 1, 0x1, 0x1, .u 1, .rw, 2, .config, 0x0, .mask 0x87⟩,
  ⟨0x5000, 32, 0x20, 1, 0x2, 0x2, .u 1, .rw, 2, .config, 0xff, .rngOr 0 63 0xFF⟩,
  ⟨0x5000, 32, 0x20, 1, 0x3, 0x3, .u 1, .rw, 2, .config, 0xff, .rngOr 0 63 0xFF⟩,
  ⟨0x5000, 32, 0x20, 1, 0x4, 0x4, .u 1, .rw, 2, .config, 0xff, .rngOr 0 63 0xFF⟩,
  ⟨0x5000, 32, 0x20, 1, 0x5, 0x5, .u 2, .rw, 2, .config, 0xffff, .rngOr 0 287 0xFFFF⟩,
  ⟨0x5000, 32, 0x20, 1, 0x6, 0x6, .u 2, .rw, 2, .config, 0xffff, .rngOr 0 287 0xFFFF⟩,
  ⟨0x5000, 32, 0x20, 1, 0x7, 0x7, .u 2, .rw, 2, .config, 0xffff, .rngOr 0 287 0xFFFF⟩,
  ⟨0x5000, 32, 0x20, 1, 0x8, 0x8, .u 4, .rw, 2, .config, 0x0, .any⟩,
  ⟨0x5000, 32, 0x20, 1, 0x9, 0x9, .u 2, .rw, 2, .config, 0x0, .any⟩,
  ⟨0x5000, 32, 0x20, 1, 0xa, 0xa, .u 1, .rw, 2, .config, 0x1, .rng 1 255⟩,
  ⟨0x5000, 32, 0x20, 1, 0xb, 0xb, .u 4, .rw, 2, .config, 0x0, .any⟩,
  ⟨0x5000, 32, 0x20, 1, 0xc, 0xc, .bool, .rw, 2, .config, 0x0, .any⟩,
  ⟨0x5000, 32, 0x20, 1, 0xd, 0xd, .u 2, .rw, 2, .config, 0x3, .rng 1 4096⟩,
  ⟨0x5001, 32, 0x20, 1, 0x1, 0x1, .u 4, .rw, 2, .vol, 0x0, .any⟩,
  ⟨0x5001, 32, 0x20, 1, 0x2, 0x2, .u 4, .rw, 2, .vol, 0x0, .any⟩,
  ⟨0x5001, 32, 0x20, 1, 0x3, 0x3, .u 4, .rw, 2, .vol, 0x0, .any⟩,
  ⟨0x5001, 32, 0x20, 1, 0x4, 0x4, .u 4, .rw, 2, .vol, 0x0, .any⟩,
  ⟨0x5001, 32, 0x20, 1, 0x5, 0x5, .u 8, .rw, 2, .vol, 0x0, .any⟩,
  ⟨0x5001, 32, 0x20, 1, 0x6, 0x6, .u 1, .rw, 2, .vol, 0x0, .rng 0 1⟩,
  ⟨0x5002, 32, 0x20, 1, 0x1, 0x1, .bool, .rw, 2, .vol, 0x0, .any⟩,
  ⟨0x5002, 32, 0x20, 1, 0x2, 0x2, .u 1, .rw, 2, .vol, 0x0, .rng 0 3⟩,
  ⟨0x5002, 32, 0x20, 1, 0x3, 0x3, .blob 0 16, .rw, 2, .vol, 0, .any⟩,
  ⟨0x5002, 32, 0x20, 1, 0x4, 0x4, .u 1, .wo, 2, .vol, 0, .one [1, 2, 4]⟩,
  ⟨0x5002, 32, 0x20, 1, 0x5, 0x5, .bool, .wo, 16, .config, 0, .any⟩,
  ⟨0x5003, 32, 0x20, 1, 0x1, 0x1, .u 1, .ro, 1, .vol, 0x0, .any⟩,
  ⟨0x5003, 32, 0x20, 1, 0x2, 0x2, .u 2, .ro, 1, .vol, 0x0, .any⟩,
  ⟨0x5003, 32, 0x20, 1, 0x3, 0x3, .u 4, .ro, 1, .vol, 0x0, .any⟩,
  ⟨0x5003, 32, 0x20, 1, 0x4, 0x4, .u 4, .ro, 1, .vol, 0x0, .any⟩,
  ⟨0x5003, 32, 0x20, 1, 0x5, 0x5, .u 2, .ro, 1, .vol, 0x0, .any⟩,
  ⟨0x5004, 32, 0x20, 1, 0x1, 0x1, .u 4, .ro, 1, .vol, 0x0, .any⟩,
  ⟨0x5004, 32, 0x20, 1, 0x2, 0x2, .u 2, .ro, 1, .vol, 0x2710, .any⟩,
  ⟨0x5004, 32, 0x20, 1, 0x3, 0x3, .u 2, .rw, 2, .config, 0x933, .any⟩,
  ⟨0x5004, 32, 0x20, 1, 0x4, 0x4, .u 2, .rw, 2, .config, 0x776, .any⟩,
  ⟨0x5004, 32, 0x20, 1, 0x5, 0x5, .u 2, .rw, 2, .config, 0x55c, .any⟩,
  ⟨0x5004, 32, 0x20, 1, 0x6, 0x6, .u 2, .rw, 2, .config, 0x329, .any⟩,
  ⟨0x5004, 32, 0x20, 1, 0x7, 0x7, .u 4, .rw, 2, .config, 0x0, .any⟩,
  ⟨0x5004, 32, 0x20, 1, 0x8, 0x8, .u 2, .rw, 2, .config, 0x0, .any⟩,
  ⟨0x5005, 32, 0x20, 1, 0x1, 0x1, .u 1, .rw, 2, .config, 0x0, .rng 0 60⟩,
  ⟨0x5005, 32, 0x20, 1, 0x2, 0x2, .u 1, .rw, 2, .config, 0x28, .rng 0 80⟩,
  ⟨0x5005, 32, 0x20, 1, 0x3, 0x3, .u 8, .ro, 2, .vol, 0x0, .any⟩]

/-- Objects 0x5000 to 0x5fff, part 2 (R343, R344, R345, R346). -/
def rowsOutlet2 : List ObjRow := [
  ⟨0x5005, 32, 0x20, 1, 0x4, 0x4, .u 1, .rw, 2, .config, 0x1, .rng 0 2⟩,
  ⟨0x5005, 32, 0x20, 1, 0x5, 0x5, .u 2, .rw, 2, .config, 0x200, .any⟩,
  ⟨0x5006, 32, 0x20, 1, 0x2, 0x2, .u 4, .rw, 2, .config, 64000, .any⟩,
  ⟨0x5006, 32, 0x20, 1, 0x3, 0x3, .u 4, .rw, 2, .config, 640000, .any⟩,
  ⟨0x5006, 32, 0x20, 1, 0x4, 0x4, .u 4, .rw, 2, .config, 224000, .any⟩,
  ⟨0x5006, 32, 0x20, 1, 0x5, 0x5, .u 4, .rw, 2, .config, 6400, .any⟩,
  ⟨0x5006, 32, 0x20, 1, 0x6, 0x6, .u 4, .rw, 2, .config, 0, .any⟩,
  ⟨0x5006, 32, 0x20, 1, 0x7, 0x7, .u 4, .rw, 2, .config, 64000, .any⟩,
  ⟨0x5006, 32, 0x20, 1, 0x8, 0x8, .u 4, .rw, 2, .config, 16000, .any⟩,
  ⟨0x5006, 32, 0x20, 1, 0x9, 0x9, .u 4, .rw, 2, .config, 64000, .any⟩,
  ⟨0x5006, 32, 0x20, 1, 0xa, 0xa, .u 2, .rw, 2, .config, 0x3e8, .rng 100 10000⟩,
  ⟨0x5006, 32, 0x20, 1, 0xb, 0xb, .u 2, .rw, 2, .config, 0x3e8, .rng 10 10000⟩,
  ⟨0x5800, 1, 0x1, 1, 0x1, 0x1, .u 4, .rw, 6, .config, 0x0, .any⟩,
  ⟨0x5800, 1, 0x1, 1, 0x2, 0x2, .u 4, .rw, 6, .config, 0x0, .any⟩,
  ⟨0x5800, 1, 0x1, 1, 0x3, 0x3, .u 4, .rw, 6, .config, 0x0, .any⟩,
  ⟨0x5800, 1, 0x1, 1, 0x4, 0x4, .u 1, .rw, 6, .config, 0x0, .mask 0xF⟩,
  ⟨0x5800, 1, 0x1, 1, 0x5, 0x5, .u 4, .rw, 6, .config, 0x0, .any⟩,
  ⟨0x5810, 1, 0x1, 1, 0x0, 0x0, .blob 16 16, .rw, 6, .config, 0, .any⟩,
  ⟨0x5811, 1, 0x1, 1, 0x1, 0x1, .bool, .ro, 1, .vol, 0x0, .any⟩,
  ⟨0x5811, 1, 0x1, 1, 0x2, 0x2, .u 4, .ro, 1, .vol, 0x0, .any⟩,
  ⟨0x5811, 1, 0x1, 1, 0x3, 0x3, .u 4, .ro, 1, .vol, 0x0, .any⟩,
  ⟨0x5811, 1, 0x1, 1, 0x4, 0x4, .u 4, .ro, 1, .vol, 0x0, .any⟩]

/-- Objects 0x5000 to 0x5fff. -/
def rowsOutlet : List ObjRow := rowsOutlet1 ++ rowsOutlet2

/-- Objects 0x6000 to 0x67ff, part 1 (R369, R371, R372). -/
def rowsFault1 : List ObjRow := [
  ⟨0x6000, 32, 0x1, 1, 0x1, 0x1, .u 1, .rw, 2, .config, 0xff, .rngOr 0 7 0xFF⟩,
  ⟨0x6000, 32, 0x1, 1, 0x2, 0x2, .u 2, .rw, 2, .config, 0xffff, .rngOr 0 287 0xFFFF⟩,
  ⟨0x6000, 32, 0x1, 1, 0x3, 0x3, .u 1, .rw, 2, .config, 0x0, .rng 0 1⟩,
  ⟨0x6000, 32, 0x1, 1, 0x4, 0x4, .u 4, .rw, 2, .config, 0x3e800258, .band⟩,
  ⟨0x6000, 32, 0x1, 1, 0x5, 0x5, .u 4, .rw, 2, .config, 0x6401770, .band⟩,
  ⟨0x6000, 32, 0x1, 1, 0x6, 0x6, .u 4, .rw, 2, .config, 0x2804e20, .band⟩,
  ⟨0x6000, 32, 0x1, 1, 0x7, 0x7, .u 4, .rw, 2, .config, 0xc800bb8, .band⟩,
  ⟨0x6000, 32, 0x1, 1, 0x8, 0x8, .u 4, .rw, 2, .config, 0x6401770, .band⟩,
  ⟨0x6000, 32, 0x1, 1, 0x9, 0x9, .u 4, .rw, 2, .config, 0xa03a98, .band⟩,
  ⟨0x6000, 32, 0x1, 1, 0xa, 0xa, .u 4, .rw, 2, .config, 0x0, .any⟩,
  ⟨0x6000, 32, 0x1, 1, 0xb, 0xb, .u 4, .rw, 2, .config, 0x0, .any⟩,
  ⟨0x6000, 32, 0x1, 1, 0xc, 0xc, .u 1, .rw, 2, .config, 0x3, .rng 1 32⟩,
  ⟨0x6000, 32, 0x1, 1, 0xd, 0xd, .u 1, .rw, 2, .config, 0x0, .mask 0x87⟩,
  ⟨0x6000, 32, 0x1, 1, 0xe, 0xe, .u 4, .rw, 2, .config, 0x2710, .rng 1000 100000⟩,
  ⟨0x6000, 32, 0x1, 1, 0xf, 0xf, .bool, .rw, 2, .config, 0x0, .any⟩,
  ⟨0x6000, 32, 0x1, 1, 0x10, 0x10, .s 4, .ro, 1, .vol, 0x0, .any⟩,
  ⟨0x6000, 32, 0x1, 1, 0x11, 0x11, .u 4, .ro, 1, .vol, 0x0, .any⟩,
  ⟨0x6000, 32, 0x1, 1, 0x12, 0x12, .u 2, .ro, 1, .config, 0x0, .any⟩,
  ⟨0x6000, 32, 0x1, 1, 0x13, 0x13, .u 4, .ro, 1, .config, 0x0, .any⟩,
  ⟨0x6000, 32, 0x1, 1, 0x14, 0x14, .u 8, .ro, 1, .config, 0x0, .any⟩,
  ⟨0x6000, 32, 0x1, 1, 0x15, 0x15, .bool, .wo, 18, .vol, 0, .any⟩,
  ⟨0x6000, 8, 0x1, 1, 0x20, 0x20, .u 2, .rw, 2, .config, 0xfa, .rng 5 500⟩,
  ⟨0x6000, 8, 0x1, 1, 0x21, 0x21, .u 2, .rw, 2, .config, 0xfa, .rng 5 500⟩,
  ⟨0x6000, 8, 0x1, 1, 0x22, 0x22, .u 1, .rw, 2, .config, 0x0, .rng 0 3⟩,
  ⟨0x6000, 8, 0x1, 1, 0x23, 0x23, .u 1, .ro, 1, .vol, 0x0, .any⟩,
  ⟨0x6000, 8, 0x1, 1, 0x24, 0x24, .s 2, .ro, 1, .vol, 0x0, .any⟩,
  ⟨0x6000, 8, 0x1, 1, 0x25, 0x25, .u 4, .ro, 1, .vol, 0x0, .any⟩,
  ⟨0x6000, 8, 0x1, 1, 0x26, 0x26, .bool, .wo, 2, .vol, 0, .any⟩,
  ⟨0x6100, 32, 0x1, 1, 0x1, 0x1, .u 1, .rw, 2, .config, 0x0, .rng 0 1⟩,
  ⟨0x6100, 32, 0x1, 1, 0x2, 0x2, .u 2, .rw, 2, .config, 0xffff, .rngOr 0 287 0xFFFF⟩,
  ⟨0x6100, 32, 0x1, 1, 0x3, 0x3, .u 2, .rw, 2, .config, 0xffff, .rngOr 0 287 0xFFFF⟩,
  ⟨0x6100, 32, 0x1, 1, 0x4, 0x4, .u 4, .rw, 2, .config, 0x30d40, .rng 10000 2000000⟩,
  ⟨0x6100, 32, 0x1, 1, 0x5, 0x5, .u 1, .rw, 2, .config, 0x3e, .mask 0x3F⟩,
  ⟨0x6100, 32, 0x1, 1, 0x6, 0x6, .u 2, .rw, 2, .config, 0x190, .rng 200 5000⟩,
  ⟨0x6100, 32, 0x1, 1, 0x7, 0x7, .u 2, .rw, 2, .config, 0x1f4, .rng 1 10000⟩,
  ⟨0x6100, 32, 0x1, 1, 0x8, 0x8, .u 2, .rw, 2, .config, 0x64, .rng 1 10000⟩,
  ⟨0x6100, 32, 0x1, 1, 0x9, 0x9, .u 1, .rw, 2, .config, 0x2, .rng 1 8⟩,
  ⟨0x6100, 32, 0x1, 1, 0xa, 0xa, .u 4, .ro, 1, .vol, 0xffffffff, .any⟩,
  ⟨0x6100, 32, 0x1, 1, 0xb, 0xb, .u 4, .ro, 1, .vol, 0xffffffff, .any⟩,
  ⟨0x6100, 32, 0x1, 1, 0xc, 0xc, .u 4, .ro, 1, .vol, 0xffffffff, .any⟩]

/-- Objects 0x6000 to 0x67ff, part 2 (R369, R371, R372). -/
def rowsFault2 : List ObjRow := [
  ⟨0x6100, 32, 0x1, 1, 0xd, 0xd, .u 1, .ro, 1, .vol, 0x0, .any⟩,
  ⟨0x6100, 32, 0x1, 1, 0xe, 0xe, .u 4, .ro, 1, .vol, 0x0, .any⟩]

/-- Objects 0x6000 to 0x67ff. -/
def rowsFault : List ObjRow := rowsFault1 ++ rowsFault2

/-- Objects 0x6800 to 0x6fff, part 1 (R398). -/
def rowsAxis1 : List ObjRow := [
  ⟨0x6800, 4, 0x1, 1, 0x1, 0x1, .u 2, .rw, 18, .config, 0x10, .mask 0x3F⟩,
  ⟨0x6800, 4, 0x1, 1, 0x2, 0x3, .u 4, .rw, 18, .config, 0x0, .rng 0 2147483647⟩,
  ⟨0x6800, 4, 0x1, 1, 0x4, 0x4, .u 1, .rw, 18, .config, 0x18, .rng 4 64⟩,
  ⟨0x6800, 4, 0x1, 1, 0x5, 0x5, .u 1, .rw, 18, .config, 0x2, .rng 1 8⟩,
  ⟨0x6800, 4, 0x1, 1, 0x6, 0x6, .u 4, .rw, 18, .config, 0x7d0, .any⟩,
  ⟨0x6800, 4, 0x1, 1, 0x7, 0x7, .u 4, .rw, 18, .config, 0x4e20, .any⟩,
  ⟨0x6800, 4, 0x1, 1, 0x8, 0x8, .u 4, .rw, 18, .config, 0x3e8, .any⟩,
  ⟨0x6800, 4, 0x1, 1, 0x9, 0x9, .u 4, .rw, 18, .config, 0x0, .any⟩,
  ⟨0x6800, 4, 0x1, 1, 0xa, 0xa, .u 1, .rw, 18, .config, 0x0, .rng 0 1⟩,
  ⟨0x6800, 4, 0x1, 1, 0xb, 0xc, .s 8, .rw, 18, .config, 0x0, .any⟩,
  ⟨0x6800, 4, 0x1, 1, 0xd, 0xd, .u 4, .rw, 18, .config, 0x0, .any⟩,
  ⟨0x6800, 4, 0x1, 1, 0xe, 0xe, .u 1, .rw, 18, .config, 0x0, .rng 0 2⟩,
  ⟨0x6800, 4, 0x1, 1, 0xf, 0xf, .u 4, .rw, 18, .config, 0x3e8, .any⟩,
  ⟨0x6800, 4, 0x1, 1, 0x10, 0x10, .u 4, .rw, 18, .config, 0x0, .any⟩,
  ⟨0x6800, 4, 0x1, 1, 0x11, 0x11, .u 4, .rw, 18, .config, 0x2710, .any⟩,
  ⟨0x6800, 4, 0x1, 1, 0x12, 0x12, .u 2, .rw, 18, .config, 0x7d0, .rng 10 10000⟩,
  ⟨0x6800, 4, 0x1, 1, 0x13, 0x13, .u 1, .rw, 18, .config, 0x1e, .rng 1 120⟩,
  ⟨0x6800, 4, 0x1, 1, 0x14, 0x14, .s 8, .rw, 18, .config, 0x0, .any⟩,
  ⟨0x6800, 4, 0x1, 1, 0x15, 0x15, .u 4, .rw, 18, .config, 0x64, .any⟩,
  ⟨0x6800, 4, 0x1, 1, 0x16, 0x16, .u 4, .rw, 18, .config, 0x0, .any⟩,
  ⟨0x6800, 4, 0x1, 1, 0x18, 0x18, .u 4, .rw, 18, .config, 0xc350, .any⟩,
  ⟨0x6800, 4, 0x1, 1, 0x20, 0x20, .u 1, .wo, 2, .vol, 0, .rng 1 3⟩,
  ⟨0x6800, 4, 0x1, 1, 0x21, 0x21, .bool, .wo, 2, .vol, 0, .any⟩,
  ⟨0x6800, 4, 0x1, 1, 0x22, 0x22, .bool, .wo, 18, .vol, 0, .any⟩,
  ⟨0x6800, 4, 0x1, 1, 0x30, 0x30, .u 2, .ro, 1, .vol, 0x1, .any⟩,
  ⟨0x6800, 4, 0x1, 1, 0x31, 0x32, .s 8, .ro, 1, .vol, 0x0, .any⟩,
  ⟨0x6800, 4, 0x1, 1, 0x33, 0x34, .s 4, .ro, 1, .vol, 0x0, .any⟩,
  ⟨0x6800, 4, 0x1, 1, 0x35, 0x35, .u 4, .ro, 1, .vol, 0x0, .any⟩,
  ⟨0x6800, 4, 0x1, 1, 0x36, 0x36, .u 1, .ro, 1, .config, 0x0, .any⟩,
  ⟨0x6800, 4, 0x1, 1, 0x37, 0x37, .u 1, .ro, 1, .config, 0x0, .any⟩,
  ⟨0x6800, 4, 0x1, 1, 0x38, 0x38, .u 4, .ro, 1, .vol, 0x0, .any⟩,
  ⟨0x6800, 4, 0x1, 1, 0x39, 0x39, .u 8, .ro, 1, .vol, 0x0, .any⟩,
  ⟨0x6800, 4, 0x1, 1, 0x3f, 0x3f, .u 4, .ro, 1, .vol, 0, .any⟩,
  ⟨0x6800, 4, 0x1, 1, 0x40, 0x40, .u 1, .ro, 1, .vol, 0x0, .any⟩,
  ⟨0x6800, 4, 0x1, 1, 0x41, 0x41, .u 4, .ro, 1, .config, 0x0, .any⟩,
  ⟨0x6800, 4, 0x1, 1, 0x42, 0x42, .u 4, .ro, 1, .config, 0x0, .any⟩,
  ⟨0x6800, 4, 0x1, 1, 0x43, 0x43, .u 8, .ro, 1, .vol, 0x0, .any⟩]

/-- Objects 0x6800 to 0x6fff. -/
def rowsAxis : List ObjRow := rowsAxis1

/-- Objects 0x7000 to 0x73ff, part 1 (R414). -/
def rowsLoad1 : List ObjRow := [
  ⟨0x7000, 64, 0x1, 1, 0x1, 0x1, .u 2, .rw, 2, .config, 0x41, .mask 0x77⟩,
  ⟨0x7000, 64, 0x1, 1, 0x2, 0x2, .u 1, .rw, 2, .config, 0xa, .rng 1 100⟩,
  ⟨0x7000, 64, 0x1, 1, 0x3, 0x3, .u 1, .rw, 2, .vol, 0x0, .rng 0 1⟩,
  ⟨0x7000, 64, 0x1, 1, 0x10, 0x10, .u 2, .ro, 1, .vol, 0x0, .any⟩,
  ⟨0x7000, 64, 0x1, 1, 0x11, 0x11, .u 2, .ro, 1, .vol, 0x0, .any⟩,
  ⟨0x7000, 64, 0x1, 1, 0x12, 0x12, .u 2, .ro, 1, .vol, 0x0, .any⟩,
  ⟨0x7000, 64, 0x1, 1, 0x13, 0x13, .s 2, .ro, 1, .vol, 0x0, .any⟩,
  ⟨0x7000, 64, 0x1, 1, 0x14, 0x14, .u 2, .ro, 1, .vol, 0x0, .any⟩,
  ⟨0x7000, 64, 0x1, 1, 0x15, 0x15, .u 4, .ro, 1, .vol, 0x0, .any⟩,
  ⟨0x7000, 64, 0x1, 1, 0x16, 0x16, .u 4, .ro, 1, .vol, 0x0, .any⟩,
  ⟨0x7000, 64, 0x1, 1, 0x17, 0x17, .bool, .wo, 18, .vol, 0, .any⟩,
  ⟨0x7000, 64, 0x1, 1, 0x20, 0x20, .u 2, .ro, 1, .vol, 0x0, .any⟩,
  ⟨0x7000, 64, 0x1, 1, 0x21, 0x21, .s 2, .ro, 1, .vol, 0x0, .any⟩,
  ⟨0x7000, 64, 0x1, 1, 0x22, 0x22, .u 1, .ro, 1, .vol, 0x1, .any⟩,
  ⟨0x7000, 64, 0x1, 1, 0x23, 0x23, .u 4, .ro, 1, .vol, 0x0, .any⟩,
  ⟨0x7000, 64, 0x1, 1, 0x30, 0x30, .u 2, .ro, 1, .vol, 0x1770, .any⟩,
  ⟨0x7000, 64, 0x1, 1, 0x31, 0x31, .u 2, .ro, 1, .vol, 0x0, .any⟩,
  ⟨0x7000, 64, 0x1, 1, 0x32, 0x32, .u 8, .ro, 1, .vol, 0x0, .any⟩,
  ⟨0x7000, 64, 0x1, 1, 0x33, 0x33, .u 4, .ro, 1, .vol, 0x0, .any⟩,
  ⟨0x7000, 64, 0x1, 1, 0x34, 0x34, .u 1, .ro, 1, .vol, 0x0, .any⟩]

/-- Objects 0x7000 to 0x73ff. -/
def rowsLoad : List ObjRow := rowsLoad1

/-- Objects 0x7400 to 0x77ff, part 1 (R435, R437). -/
def rowsDisp1 : List ObjRow := [
  ⟨0x7400, 2, 0x1, 1, 0x1, 0x1, .u 2, .rw, 2, .config, 0x0, .mask 1⟩,
  ⟨0x7400, 2, 0x1, 1, 0x2, 0x2, .u 2, .rw, 2, .config, 0xc8, .rng 1 400⟩,
  ⟨0x7400, 2, 0x1, 1, 0x3, 0x3, .u 2, .rw, 2, .config, 0x3e8, .rng 600 1100⟩,
  ⟨0x7400, 2, 0x1, 1, 0x4, 0x4, .u 2, .rw, 2, .config, 0x190, .rng 0 1100⟩,
  ⟨0x7400, 2, 0x1, 1, 0x5, 0x5, .u 2, .rw, 2, .config, 0xffff, .rngOr 0 287 0xFFFF⟩,
  ⟨0x7400, 2, 0x1, 1, 0x6, 0x6, .u 1, .rw, 2, .config, 0x2, .rng 0 5⟩,
  ⟨0x7400, 2, 0x1, 1, 0x7, 0x7, .u 1, .ro, 1, .vol, 0x2, .any⟩,
  ⟨0x7400, 2, 0x1, 1, 0x8, 0x8, .u 2, .ro, 1, .vol, 0x0, .any⟩,
  ⟨0x7400, 2, 0x1, 1, 0x9, 0x9, .u 4, .ro, 1, .vol, 0x0, .any⟩,
  ⟨0x7400, 2, 0x1, 1, 0xa, 0xa, .u 4, .ro, 1, .vol, 0x0, .any⟩,
  ⟨0x7400, 2, 0x1, 1, 0xb, 0xb, .u 4, .ro, 1, .vol, 0x0, .any⟩,
  ⟨0x7400, 2, 0x1, 1, 0xc, 0xc, .u 4, .ro, 1, .vol, 0x0, .any⟩,
  ⟨0x7400, 2, 0x1, 1, 0xd, 0xd, .u 2, .ro, 1, .vol, 0x0, .any⟩,
  ⟨0x7400, 2, 0x1, 1, 0xe, 0xe, .u 2, .ro, 1, .vol, 0x0, .any⟩,
  ⟨0x7408, 2, 0x1, 1, 0x1, 0x10, .u 4, .rw, 26, .config, 0x0, .mask 0x9FFFFFFF⟩,
  ⟨0x7408, 2, 0x1, 1, 0x11, 0x20, .u 2, .rw, 24, .config, 0x0, .legal⟩,
  ⟨0x7408, 2, 0x1, 1, 0x21, 0x30, .u 1, .ro, 1, .vol, 0x0, .any⟩,
  ⟨0x7410, 6, 0x1, 1, 0x0, 0x0, .blob 12544 12544, .rw, 24, .config, 0, .any⟩,
  ⟨0x7418, 6, 0x1, 1, 0x0, 0x0, .blob 12544 12544, .rw, 24, .config, 0, .any⟩,
  ⟨0x7420, 2, 0x1, 1, 0x1, 0x10, .blob 0 8192, .wo, 2, .vol, 0, .any⟩,
  ⟨0x7428, 1, 0x1, 1, 0x0, 0x0, .blob 4 12292, .rw, 24, .config, 0, .any⟩]

/-- Objects 0x7400 to 0x77ff. -/
def rowsDisp : List ObjRow := rowsDisp1

/-- Objects 0x7800 to 0x79ff, part 1 (R463, R465). -/
def rowsTwist1 : List ObjRow := [
  ⟨0x7801, 3, 0x1, 1, 0x1, 0x1, .bool, .rw, 6, .config, 0x0, .any⟩,
  ⟨0x7801, 3, 0x1, 1, 0x2, 0x2, .u 1, .rw, 6, .config, 0x0, .rng 0 3⟩,
  ⟨0x7801, 1, 0x1, 1, 0x3, 0x3, .u 1, .rw, 6, .config, 0, .rng 0 5⟩,
  ⟨0x7802, 1, 0x1, 1, 0x3, 0x3, .u 1, .rw, 6, .config, 2, .rng 0 5⟩,
  ⟨0x7803, 1, 0x1, 1, 0x3, 0x3, .u 1, .rw, 6, .config, 4, .rng 0 5⟩,
  ⟨0x7801, 3, 0x1, 1, 0x4, 0x4, .u 1, .rw, 6, .config, 0x28, .rng 1 80⟩,
  ⟨0x7801, 3, 0x1, 1, 0x5, 0x5, .u 2, .rw, 6, .config, 0x32, .rng 10 5000⟩,
  ⟨0x7801, 3, 0x1, 1, 0x6, 0x6, .u 2, .rw, 6, .config, 0x2328, .rng 100 10000⟩,
  ⟨0x7801, 3, 0x1, 1, 0x10, 0x10, .u 2, .ro, 1, .vol, 0x0, .any⟩,
  ⟨0x7801, 3, 0x1, 1, 0x11, 0x11, .u 4, .ro, 1, .vol, 0x0, .any⟩,
  ⟨0x7801, 3, 0x1, 1, 0x12, 0x12, .u 4, .ro, 1, .vol, 0x0, .any⟩,
  ⟨0x7801, 3, 0x1, 1, 0x13, 0x13, .u 4, .ro, 1, .vol, 0x0, .any⟩,
  ⟨0x7801, 3, 0x1, 1, 0x14, 0x14, .u 4, .ro, 1, .vol, 0x0, .any⟩,
  ⟨0x7801, 3, 0x1, 1, 0x15, 0x15, .u 4, .ro, 1, .vol, 0x0, .any⟩,
  ⟨0x7801, 3, 0x1, 1, 0x16, 0x16, .u 4, .ro, 1, .vol, 0x0, .any⟩,
  ⟨0x7801, 3, 0x1, 1, 0x17, 0x17, .u 4, .ro, 1, .vol, 0x0, .any⟩,
  ⟨0x7801, 3, 0x1, 1, 0x18, 0x18, .u 4, .ro, 1, .vol, 0x0, .any⟩,
  ⟨0x7801, 3, 0x1, 1, 0x19, 0x19, .u 2, .ro, 1, .vol, 0x0, .any⟩,
  ⟨0x7801, 3, 0x1, 1, 0x1a, 0x1a, .u 4, .ro, 1, .vol, 0x0, .any⟩,
  ⟨0x7810, 6, 0x1, 1, 0x0, 0x0, .blob 32 32, .ro, 1, .config, 0, .any⟩,
  ⟨0x7818, 6, 0x1, 1, 0x0, 0x0, .blob 32 32, .rw, 6, .config, 0, .any⟩,
  ⟨0x7820, 1, 0x1, 1, 0x1, 0x1, .u 8, .rw, 6, .config, 0x0, .any⟩,
  ⟨0x7820, 1, 0x1, 1, 0x2, 0x2, .u 4, .ro, 1, .config, 0x0, .any⟩]

/-- Objects 0x7800 to 0x79ff. -/
def rowsTwist : List ObjRow := rowsTwist1

/-- Objects 0x7a00 to 0x7bff, part 1 (R486). -/
def rowsMesh1 : List ObjRow := [
  ⟨0x7a00, 1, 0x1, 1, 0x1, 0x1, .u 1, .rw, 6, .config, 0x0, .rng 0 2⟩,
  ⟨0x7a00, 1, 0x1, 1, 0x2, 0x2, .u 2, .rw, 6, .config, 0x0, .any⟩,
  ⟨0x7a00, 1, 0x1, 1, 0x3, 0x3, .u 2, .rw, 6, .config, 0x3c, .rng 10 600⟩,
  ⟨0x7a00, 1, 0x1, 1, 0x4, 0x4, .u 2, .rw, 6, .config, 0x3c, .rng 5 1440⟩,
  ⟨0x7a00, 1, 0x1, 1, 0x5, 0x5, .u 2, .rw, 6, .config, 0x400, .rng 0 4096⟩,
  ⟨0x7a00, 1, 0x1, 1, 0x6, 0x6, .bool, .rw, 6, .config, 0x1, .any⟩,
  ⟨0x7a00, 1, 0x1, 1, 0x10, 0x10, .u 4, .ro, 1, .vol, 0x3fffe, .any⟩,
  ⟨0x7a00, 1, 0x1, 1, 0x11, 0x11, .u 4, .ro, 1, .vol, 0x0, .any⟩,
  ⟨0x7a00, 1, 0x1, 1, 0x12, 0x12, .u 1, .ro, 1, .vol, 0x0, .any⟩,
  ⟨0x7a00, 1, 0x1, 1, 0x13, 0x13, .u 2, .ro, 1, .vol, 0x0, .any⟩,
  ⟨0x7a00, 1, 0x1, 1, 0x14, 0x14, .u 2, .ro, 1, .vol, 0x0, .any⟩,
  ⟨0x7a00, 1, 0x1, 1, 0x15, 0x15, .u 2, .ro, 1, .vol, 0x0, .any⟩,
  ⟨0x7a00, 1, 0x1, 1, 0x16, 0x16, .u 4, .ro, 1, .vol, 0x0, .any⟩,
  ⟨0x7a00, 1, 0x1, 1, 0x17, 0x17, .u 4, .ro, 1, .vol, 0x0, .any⟩,
  ⟨0x7a00, 1, 0x1, 1, 0x18, 0x18, .u 4, .ro, 1, .vol, 0x0, .any⟩,
  ⟨0x7a00, 1, 0x1, 1, 0x19, 0x19, .u 4, .ro, 1, .vol, 0x0, .any⟩,
  ⟨0x7a00, 1, 0x1, 1, 0x1a, 0x1a, .u 4, .ro, 1, .vol, 0x0, .any⟩,
  ⟨0x7a00, 1, 0x1, 1, 0x1b, 0x1d, .u 4, .ro, 1, .vol, 0x0, .any⟩,
  ⟨0x7a00, 1, 0x1, 1, 0x1e, 0x1e, .u 2, .ro, 1, .vol, 0x0, .any⟩,
  ⟨0x7a20, 1, 0x1, 1, 0x1, 0x1, .blob 16 16, .wo, 6, .warm, 0, .any⟩,
  ⟨0x7a20, 1, 0x1, 1, 0x2, 0x2, .u 4, .rw, 6, .vol, 0x0, .mask 0x3FFFF⟩,
  ⟨0x7a20, 1, 0x1, 1, 0x3, 0x3, .blob 48 48, .ro, 6, .vol, 0, .any⟩,
  ⟨0x7a30, 16, 0x1, 1, 0x1, 0x1, .blob 32 32, .rw, 6, .config, 0, .any⟩,
  ⟨0x7a30, 16, 0x1, 1, 0x2, 0x2, .u 4, .ro, 1, .config, 0x0, .any⟩,
  ⟨0x7a30, 16, 0x1, 1, 0x3, 0x3, .u 4, .ro, 1, .config, 0x0, .any⟩,
  ⟨0x7a30, 16, 0x1, 1, 0x4, 0x4, .u 4, .ro, 1, .config, 0x0, .any⟩]

/-- Objects 0x7a00 to 0x7bff. -/
def rowsMesh : List ObjRow := rowsMesh1

/-- Objects 0x7c00 to 0x7cff, part 1 (R511). -/
def rowsTag1 : List ObjRow := [
  ⟨0x7c00, 1, 0x1, 1, 0x1, 0x1, .u 2, .rw, 2, .config, 0x12c, .rng 10 3600⟩,
  ⟨0x7c00, 1, 0x1, 1, 0x2, 0x2, .u 2, .ro, 1, .vol, 0x0, .any⟩,
  ⟨0x7c01, 4, 0x1, 1, 0x1, 0x1, .bool, .rw, 2, .config, 0x0, .any⟩,
  ⟨0x7c01, 4, 0x1, 1, 0x2, 0x2, .u 1, .rw, 2, .config, 0x1, .any⟩,
  ⟨0x7c01, 4, 0x1, 1, 0x3, 0x3, .u 1, .rw, 2, .config, 0x7, .mask 7⟩,
  ⟨0x7c01, 4, 0x1, 1, 0x4, 0x4, .u 1, .rw, 2, .config, 0xa, .rng 1 30⟩,
  ⟨0x7c01, 4, 0x1, 1, 0x5, 0x5, .u 2, .rw, 2, .config, 0x32, .rng 10 2000⟩,
  ⟨0x7c01, 4, 0x1, 1, 0x6, 0x6, .u 1, .rw, 2, .config, 0x0, .rngOr 0 7 0xFF⟩,
  ⟨0x7c01, 4, 0x1, 1, 0x7, 0x7, .u 1, .rw, 2, .config, 0x0, .rngOr 0 7 0xFF⟩,
  ⟨0x7c01, 4, 0x1, 1, 0x10, 0x10, .u 2, .ro, 1, .vol, 0x0, .any⟩,
  ⟨0x7c01, 4, 0x1, 1, 0x11, 0x11, .u 4, .ro, 1, .vol, 0x0, .any⟩,
  ⟨0x7c01, 4, 0x1, 1, 0x12, 0x12, .u 1, .ro, 1, .vol, 0x0, .any⟩,
  ⟨0x7c01, 4, 0x1, 1, 0x13, 0x13, .u 4, .ro, 1, .vol, 0x0, .any⟩,
  ⟨0x7c01, 4, 0x1, 1, 0x14, 0x14, .u 4, .ro, 1, .vol, 0x0, .any⟩,
  ⟨0x7c01, 4, 0x1, 1, 0x15, 0x15, .u 4, .ro, 1, .vol, 0x0, .any⟩,
  ⟨0x7c01, 4, 0x1, 1, 0x16, 0x16, .blob 2 18, .ro, 2, .vol, 0, .any⟩]

/-- Objects 0x7c00 to 0x7cff. -/
def rowsTag : List ObjRow := rowsTag1

/-- The rows whose index range of R50 holds `ix`. -/
def rowsFor (ix : Nat) : List ObjRow :=
  if ix < 0x2000 then rowsComm
  else if ix < 0x2200 then rowsTick
  else if ix < 0x2400 then rowsKey
  else if ix < 0x2500 then rowsLog
  else if ix < 0x2680 then rowsPort
  else if ix < 0x2700 then rowsLink
  else if ix < 0x3600 then rowsChan
  else if ix < 0x4000 then rowsCal
  else if ix < 0x4900 then rowsMeter
  else if ix < 0x4a00 then rowsPulse
  else if ix < 0x4d00 then rowsTariff
  else if ix < 0x5000 then rowsReading
  else if ix < 0x6000 then rowsOutlet
  else if ix < 0x6800 then rowsFault
  else if ix < 0x7000 then rowsAxis
  else if ix < 0x7400 then rowsLoad
  else if ix < 0x7800 then rowsDisp
  else if ix < 0x7a00 then rowsTwist
  else if ix < 0x7c00 then rowsMesh
  else if ix < 0x7d00 then rowsTag
  else []
/-- Whether a row holds the index. -/
def ObjRow.hasIx (r : ObjRow) (ix : Nat) : Bool :=
  r.base ≤ ix && (ix - r.base) / r.stride < r.n && (ix - r.base) % r.stride < r.inner

/-- Whether a row holds the index and sub-index. -/
def ObjRow.has (r : ObjRow) (ix sub : Nat) : Bool := r.hasIx ix && r.subLo ≤ sub && sub ≤ r.subHi

/-- The row of an object, none where no chapter defines it. -/
def objRow (ix sub : Nat) : Option ObjRow := (rowsFor ix).find? fun r => r.has ix sub

/-- Whether an index exists (check 6 of R55). -/
def objIndexExists (ix : Nat) : Bool := (rowsFor ix).any fun r => r.hasIx ix

/-- The highest sub-index present (R45). -/
def objHighestSub (ix : Nat) : Nat := maxN 0 (((rowsFor ix).filter fun r => r.hasIx ix).map ObjRow.subHi)

/-- Size in bytes of a type of fixed size. -/
def ObjTy.size : ObjTy → Option Nat
  | .bool => some 1
  | .u b => some b
  | .s b => some b
  | _ => none

/-- Whether a value of the type is held as a byte string. -/
def ObjTy.isBytes : ObjTy → Bool
  | .blob _ _ => true
  | .str _ => true
  | .dom _ => true
  | _ => false

/-- A calendar of one season, one week and one day profile at rate 1 (07 R238, R240). -/
def defaultCalendar : Bytes :=
  [1#8, 1#8, 1#8, 1#8, 0#8, 1#8, 0#8, 0#8] ++ [1#8, 1#8, 0#8, 0#8] ++ zeros 92 ++ [0#8, 0#8, 1#8, 1#8] ++ zeros 1404

/-- The default pulse map (15 R449): slots 13 to 18 control and slots 1 to 12 and 19 to 30 bulk, each of capacity 3. -/
def defaultMap : Bytes :=
  (List.range 32).map fun i =>
    if i = 0 || i = 31 then 0#8 else if 13 ≤ i && i ≤ 18 then 0x03#8 else 0x07#8

/-- A waveform table in the Factory state (14 R423): each record of two different levels holds one entry, which drives and reaches
the new level. -/
def defaultWaveform : Bytes :=
  (List.range 256).flatMap fun i =>
    if i / 16 = i % 16 then zeros 49 else [1#8, BitVec.ofNat 8 (17 * (i % 16))] ++ zeros 47

/-- The bytes of a coefficient bank as shipped: `n` taps of stage `s`, Q2.30 little-endian (04 R130, R132). -/
def defaultBank (s n : Nat) : Bytes :=
  (List.range n).flatMap fun t => natLE 4 (spat 32 (defaultCoef s t))

/-- The version as decimal text (02 R83, 20 R581). -/
def versionText (v : Nat) : Bytes :=
  decDigits 3 (field v 24 8) ++ asciiB "." ++ decDigits 3 (field v 16 8) ++ asciiB "." ++ decDigits 5 (field v 0 16)

/-- A calibration record (06 R223) of constants given by `g`, bands given by `b`. -/
def calBytes (g : Nat → Nat) (b : Nat → Bytes) : Bytes :=
  let body := natLE 4 (g 1) ++ natLE 4 (g 2) ++ natLE 4 (g 4) ++ natLE 2 (g 3) ++ natLE 2 (g 5) ++ natLE 1 (g 6) ++ zeros 3
    ++ ((List.range 6).flatMap fun i => padTo 16 (b (0x11 + i))) ++ natLE 4 (g 0xA)
  body ++ natLE 4 (crc32 body) ++ zeros 4

/-- The default of a BLOB, STRING or DOMAIN object: the bytes its chapter gives, else zero bytes where the length is fixed, else
none (log entry 5). -/
def blobDefault (ix sub : Nat) : Bytes :=
  if ix = 0x1008 then asciiB "XH3240"
  else if ix = 0x100A then versionText Config.factoryVersion
  else if ix = 0x2280 && sub = 3 then sliceB (shake256 16 (asciiB "xaeth-kid" ++ Config.transportKey)) 0 16
  else if (ix = 0x2281 || ix = 0x2282) && sub = 3 then sliceB (Config.imageKey (ix - 0x2280)) 0 57
  else if 0x2311 ≤ ix && ix < 0x2314 && sub = 0xB then sliceB (Config.factoryHeader (ix - 0x2310)) 24 64
  else if ix = 0x34F0 then
    (List.range 4096).flatMap fun (x : Nat) => (List.range 12).flatMap fun t => natLE 4 (spat 32 (phaseTap ((x : Int) - 2048) t))
  else if ix = 0x34F1 then defaultBank 0 32 ++ defaultBank 1 11 ++ defaultBank 2 79 ++ defaultBank 3 2048
  else if 0x3400 ≤ ix && ix < 0x3480 then
    (match (ix % 16) / 2 with
     | 0 => defaultBank 0 32
     | 1 => defaultBank 1 11
     | 2 => defaultBank 2 79
     | _ => defaultBank 3 2048)
  else if 0x4A00 ≤ ix && ix < 0x4A40 then defaultCalendar
  else if 0x7410 ≤ ix && ix < 0x741E then defaultWaveform
  else if ix = 0x7428 then [7, 12, 0, 0] ++ (List.range 576).map Config.fontGlyphs
  else if 0x7810 ≤ ix && ix < 0x781E then defaultMap
  else if 0x3600 ≤ ix && ix < 0x3720 && sub = 0x10 then
    calBytes (fun i => match objRow 0x3600 i with | some r => r.dflt | none => 0) fun _ => zeros 16
  else
    match objRow ix sub with
    | some r => (match r.ty with
                 | .blob lo hi => if lo = hi then zeros hi else []
                 | _ => [])
    | none => []

/-- Bytes of the safety parameters .01 to .18 of axis `a`, by their values (12 R398). -/
def axisParams (a : Nat) (g : Nat → Nat) : Bytes :=
  (List.range 25).flatMap fun sub =>
    match objRow (0x6800 + a) sub with
    | some r => natLE (r.ty.size.getD 0) (g sub)
    | none => []

/-- The default of a table row, 0 where there is none. -/
def rowDefault (ix sub : Nat) : Nat :=
  match objRow ix sub with
  | some r => r.dflt
  | none => 0

/-- The default of a numeric object: the table's, the CRC of what it covers for a CRC object (04 R158, 07 R240, 12 R398), else 0
(log entry 5). -/
def objDefault (ix sub : Nat) : Nat :=
  if 0x3480 ≤ ix && ix < 0x3484 && 3 ≤ sub && sub ≤ 0xA then crc32 (blobDefault (0x3400 + 16 * (ix - 0x3480) + (sub - 3)) 0)
  else if 0x4A00 ≤ ix && ix < 0x4A40 && (sub = 4 || sub = 5) then crc32 defaultCalendar
  else if 0x2280 ≤ ix && ix < 0x2283 && sub = 2 then 2
  else if 0x2510 ≤ ix && ix < 0x2536 && sub = 0xB then rowDefault ix 1
  else if 0x6800 ≤ ix && ix < 0x6804 && sub = 0x3F then crc32 (axisParams (ix - 0x6800) (rowDefault ix))
  else rowDefault ix sub

end Sys2Proof.Machine
end

