-- ==== Sys2Proof/Machine/State.lean ====
section
/-! DEFINITION. The state of the part as plain data: the object store, the units' own state that no object shows, the debug
memory and the queue of waiting commands. -/
namespace Sys2Proof.Machine

/-- Why the model stops with a fault. -/
inductive Fault where
  /-- Raised by no meaning: the spec stops the part nowhere; safe. -/
  | stopped
deriving DecidableEq, Repr

/-- Why the model refuses a command. -/
inductive Refusal where
  /-- Raised by no arm: every command has its meaning; safe. -/
  | notModelled (mnemonic : String)
deriving DecidableEq, Repr

/-! ## The dies and the supply (chapters 01 and 09) -/

/-- How far the Loom die is. -/
inductive Loom where
  /-- a rail is out of range: the power-on reset is in force -/
  | unpowered
  /-- the power-on reset is released and a cold start is due -/
  | released
  /-- reset with its supplies present: a warm start is due (a cold start of the state after a supply reset) -/
  | inReset
  /-- the start is done and the first tick is due -/
  | started
  /-- ticks run -/
  | running
  /-- no application image could be loaded: recovery (20 R594) -/
  | recovery
deriving DecidableEq, Repr

/-- The reset-hold window and the safe sequence of the Mill die (09 R302 to R304). -/
structure HoldRec where
  active : Bool := false
  /-- safe sequence begun: step 1 done -/
  safe : Bool := false
  /-- groups confirmed at zero -/
  confirmed : Nat := 0
  /-- groups whose action-2 channels have been turned off -/
  opened : Nat := 0
  /-- groups opened under step 4 -/
  unconfirmed : Nat := 0
  /-- load channels that the safe sequence turned off -/
  dropped : List Nat := []
  /-- duration from the reset to the reclaim, microseconds -/
  micros : Nat := 0
  /-- reset-hold actions as the last command frame refreshed them, by load channel -/
  actions : Tab Nat := []
  /-- zero bands as the last command frame refreshed them, by group -/
  bands : Tab Nat := []
deriving DecidableEq, Repr

/-- The tick monitor (01 R34, R35): windows H1 to H10 as 1 to 10, tasks AP0 to AP3 as 0x11 to 0x14. -/
structure TickRec where
  /-- windows and tasks still unfinished at their deadline in the latest tick -/
  late : List Nat := []
  /-- ticks without a valid marker -/
  markerMiss : Nat := 0
  /-- ticks without markers from P0 -/
  p0Miss : Nat := 0
  /-- ticks without a site share -/
  shareMiss : Nat := 0
  /-- slew still to go to the master's tick edge, ns -/
  slewNs : Int := 0
  /-- the P0 part is back and takes its roles at the next multiple of 32 000 -/
  p0Back : Bool := false
  /-- a command frame has been sent since the start (09 R290) -/
  framed : Bool := false
  /-- tick of the latest check of the calibration records (06 R225) -/
  calCheck : Nat := 0
  /-- the mirror window (19 R541) by lines of 256 bytes -/
  mirror : Tab Bytes := []
deriving DecidableEq, Repr

/-! ## Roving links (chapter 03) -/

/-- What the part takes from the valid core of an upstream frame (03 R92). -/
structure HeadCore where
  period : Nat := 0
  bits : Bytes := []
  pilot : List Int := []
  prox : Nat := 0
  status : Nat := 0
deriving DecidableEq, Repr

/-- One Roving link (03 R99 to R109). -/
structure LinkRec where
  /-- the tick in which the present state was entered -/
  since : Nat := 0
  /-- consecutive frames without a valid core -/
  noCore : Nat := 0
  /-- the latest valid core -/
  core : Option HeadCore := none
  /-- the latest period whose samples are known to be invalid, plus 1 -/
  badPeriod : Nat := 0
  /-- line rate generation, 1 or 2 -/
  lineGen : Nat := 1
  /-- generation chosen in IDENTIFY -/
  chosen : Nat := 1
  /-- a Gen 2 acquisition failed: only Gen 1 is offered -/
  gen2Failed : Bool := false
  /-- the switch tick of the rate training set -/
  switchTick : Nat := 0
  /-- turnaround of the head, ns (03 R101) -/
  turnaround : Nat := 0
  /-- round trips measured in ALIGN, 0.25 ns, the latest first (03 R102) -/
  trips : List Nat := []
  /-- consecutive upstream markers within 8 ns of their due time -/
  good : Nat := 0
  /-- D_adj of CW6, 0.25 ns; 0 before the delay is measured -/
  dAdj : Nat := 0
  /-- identity of the head last seen, class N (03 R106) -/
  identity : Option Nat := none
  /-- identity of a new head that holds the link in IDENTIFY -/
  held : Option Nat := none
  /-- capabilities of the head that holds the link -/
  heldCaps : Nat := 0
  /-- RUN was reached since the latest start of the Loom die -/
  everRun : Bool := false
  /-- CW4 access waiting for its frame -/
  cw4 : Nat := 0
  /-- tick of the frame that carried a CW4 access not yet answered -/
  cw4Sent : List Nat := []
  /-- control words CW0 to CW7 of the latest downstream frame -/
  cw : List Nat := []
  /-- what the part sends in the tick: a frame from K28.1 to K29.7 or a training set, nothing where only idle pairs go out -/
  sent : Bytes := []
  /-- modem receive samples of the latest period, zeros where discarded -/
  modem : List Int := []
  /-- CAN transceiver in normal mode and 10BASE-T1S TX_EN, as the down sideband sends them -/
  sideband : Nat := 1
deriving DecidableEq, Repr

/-! ## Filter units and lock groups (chapter 04) -/

/-- The configuration that a filter unit works under, as it stood when it began the head period in hand (04 R139, R153). -/
structure ChanCfg where
  mode : Nat := 1
  ty : Nat := 0
  ratio : Nat := 32
  profile : Nat := 0
  period : Nat := 32
  group : Nat := 0
  dcCorner : Nat := 20
  leakCorner : Nat := 50
  tau : Int := 0
  coilG : Int := 0
deriving DecidableEq, Repr

/-- A word handed over in H1 (04 R155): flags of the map and the data. -/
structure HWord where
  data : Int := 0
  invalid : Bool := true
  saturated : Bool := false
  settling : Bool := false
  unlocked : Bool := false
  flywheel : Bool := false
  index : Nat := 0
  number : Nat := 0
deriving DecidableEq, Repr

/-- The filter unit's state of one channel; histories newest first. -/
structure ChanRec where
  cfg : ChanCfg := {}
  /-- a configuration write discards the state before the next head period -/
  changed : Bool := false
  /-- modulator bytes, oldest first -/
  hist : Bytes := []
  cmpIn : List Int := []
  hb1In : List Int := []
  hb2In : List Int := []
  coilX : Int := 0
  coilD : Int := 0
  coilY : Int := 0
  phsIn : List Int := []
  /-- main-path words, the latest first -/
  main : List HWord := []
  /-- latest cycle-locked word of this tick -/
  locked : Option HWord := none
  /-- mode-2 word of this tick -/
  conv : Option HWord := none
  /-- main-path samples below this number are invalid under 04 R152 -/
  invUntil : Nat := 0
  /-- main-path samples below this number are settling -/
  settleUntil : Nat := 0
  /-- first head period processed under the present configuration -/
  firstPeriod : Nat := 0
  /-- latest substituted head period, plus 1 -/
  subPeriod : Nat := 0
  satMain : Bool := false
  satLocked : Bool := false
  satConv : Bool := false
deriving DecidableEq, Repr

/-- A lock group (04 R145, R146); positions and lengths in units of 2^-36 sample. -/
structure LockRec where
  armed : Bool := false
  prev : Option Nat := none
  /-- the last 8 periods, newest first -/
  periods : List Nat := []
  /-- latest counted crossing -/
  counted : Option Nat := none
  p0 : Nat := 0
  len : Nat := 0
  k : Nat := 0
  misses : Nat := 0
  /-- a cycle is laid out -/
  laid : Bool := false
  /-- after sample 255 in acquiring: waits for the crossing that begins a lock until this position -/
  waitUntil : Option Nat := none
  /-- end of sample 255 of the cycle before the wait -/
  waitFrom : Nat := 0
  /-- index of the cycle-locked sample handed over in this tick -/
  sample : Option Nat := none
deriving DecidableEq, Repr

/-- The bank switch of a profile (04 R137): banks in use before the tick of effect. -/
structure ProfRec where
  used : Nat := 0
deriving DecidableEq, Repr

/-! ## Calibration units and captures (chapter 06) -/

/-- A calibrated sample. -/
structure CalSample where
  y : Int := 0
  valid : Bool := false
deriving DecidableEq, Repr

/-- A running or complete capture (06 R207, R208). -/
structure CapRec where
  start : Nat := 0
  len : Nat := 0
  count : Nat := 0
  sats : Nat := 0
  sx : Int := 0
  sxx : Nat := 0
  sy : Int := 0
  syy : Nat := 0
deriving DecidableEq, Repr

/-- The calibration unit's state of one channel. -/
structure CalRec where
  /-- calibrated main-path samples, the latest first, 127 of them -/
  main : List CalSample := []
  /-- the latest of them saturated, in the filter or in calibration -/
  mainSat : Bool := false
  /-- calibrated cycle-locked sample of this tick with its index -/
  locked : Option (CalSample × Nat) := none
  /-- latest valid sample as a temperature source, and its tick -/
  temp : Option Int := none
  tempAt : Nat := 0
  /-- tick from which the present source counts -/
  srcSince : Nat := 0
  /-- the latest sample of the channel was valid -/
  wasValid : Bool := false
  /-- runs of invalid samples that debug halts began and no event records yet (21 R605) -/
  haltRuns : Nat := 0
  gtSat : Bool := false
  cap : CapRec := {}
deriving DecidableEq, Repr

/-! ## Metering engines and pulse outputs (chapter 05) -/

/-- The configuration of a meter that a quantum registers under (05 R187). -/
structure MeterCfg where
  kind : Nat := 0
  enabled : Nat := 0
  vch : List Nat := []
  ich : List Nat := []
  ist : List Nat := []
  group : Nat := 0
deriving DecidableEq, Repr

/-- The sums of one direction quantum and the configuration it registers under (05 R172, R187). -/
structure Quantum where
  first : Nat := 0
  /-- the sample after the last, where closed -/
  stop : Nat := 0
  forced : Bool := false
  regAt : Nat := 0
  /-- the configuration before a drain, none where the present one holds -/
  cfg : Option MeterCfg := none
  /-- elements whose gate a drain has reset, their gates for this quantum and the openings still to be counted -/
  reset : Nat := 0
  gates : Nat := 0
  opened : Nat := 0
  ap : List Int := [0, 0, 0, 0]
  aq : List Int := [0, 0, 0, 0]
  ms : List Nat := [0, 0, 0, 0]
  nv : List Nat := [0, 0, 0, 0]
deriving DecidableEq, Repr

/-- A completed demand subinterval (07 R244, R245). -/
structure SubRec where
  e : List Nat := [0, 0, 0]
  ticks : Nat := 0
  irregular : Bool := false
  short : Bool := false
deriving DecidableEq, Repr

/-- The metering engine's and the billing engine's state of one meter. -/
structure MeterRec where
  armed : Bool := false
  /-- the open quantum -/
  cur : Option Quantum := none
  /-- a quantum that has reached 1 024 samples and waits for its forced close -/
  due : Option Quantum := none
  /-- closed quanta awaiting registration, oldest first -/
  closed : List Quantum := []
  /-- sums of squares and counts of the RMS span, by element -/
  vv : List Nat := [0, 0, 0, 0]
  vn : List Nat := [0, 0, 0, 0]
  ii : List Nat := [0, 0, 0, 0]
  iin : List Nat := [0, 0, 0, 0]
  /-- completed subintervals of the window, newest first -/
  window : List SubRec := []
  /-- a change of period or k waits for the step that closes the subinterval: the old length in seconds and the old k -/
  closeNow : Option (Nat × Nat) := none
  /-- civil time was stepped inside the open subinterval -/
  stepped : Bool := false
  /-- UTC instant of the latest demand boundary taken -/
  last : Nat := 0
  /-- a rate has been in force since the Factory state -/
  rated : Bool := false
deriving DecidableEq, Repr

/-- A pulse output (05 R189): the tick until which it is high, and the tick from which its low time counts. -/
structure PulseRec where
  high : Option Nat := none
  lowFrom : Nat := 0
  raised : Bool := false
deriving DecidableEq, Repr

/-! ## Billing engine (chapter 07) -/

/-- A record staged for MRAM (07 R263 to R266): its object, its bytes' length, the tick it was staged for, what the object held before, and
numeric objects it stands for with their values before. Of a snapshot its number, flags, instant and the scheduled instant before it; of a
session record its number; a demand record has index 0 and its meter as sub-index. -/
structure StagedRec where
  ix : Nat := 0
  sub : Nat := 0
  size : Nat := 0
  tick : Nat := 0
  old : Bytes := []
  nums : List (Nat × Nat) := []
  /-- snapshot sequence number or session number, 0 for other records -/
  snapshot : Nat := 0
  session : Nat := 0
  flags : Nat := 0
  utc : Nat := 0
  prev : Nat := 0
deriving DecidableEq, Repr

/-- An open session of an outlet (07 R256). -/
structure SessRec where
  number : Nat := 0
  start : Nat := 0
  generation : Nat := 0
  returnOk : Bool := false
  invalidAtStart : Bool := false
  utcStart : Nat := 0
  acc1 : Nat := 0
  acc2 : Nat := 0
  ident : Bytes := []
  identLen : Nat := 0
  identKind : Nat := 0
  rate : Nat := 1
  reading : Nat := 0
  reason : Nat := 0
  /-- tick E of the end, where reached -/
  ended : Option Nat := none
  maxPower : Nat := 0
deriving DecidableEq, Repr

/-- The billing engine's own state. -/
structure BillRec where
  staging : List StagedRec := []
  /-- next numbers; 0 in the factory state, from which a start makes 1 (07 R266; 09 R299) -/
  nextSnapshot : Nat := 0
  nextSession : Nat := 0
  /-- a boundary step is held or deferred -/
  deferred : Bool := false
  lastActivation : List Nat := [0, 0, 0, 0]
  /-- snapshots lost under 07 R266 to be retaken: lost number, flags and instant of each -/
  retake : List (Nat × Nat × Nat) := []
  /-- a commanded snapshot waits for the step: its type -/
  commanded : Option Nat := none
  sessions : Tab SessRec := []
  /-- first tick in which the outlet may open a session again -/
  notBefore : Tab Nat := []
deriving DecidableEq, Repr

/-! ## Signed readings (chapter 08) -/

/-- A captured reading: its content, and its signature once signed. -/
structure ReadingRec where
  number : Nat := 0
  kind : Nat := 1
  meter : Nat := 0
  content : Bytes := []
  sig : Option Bytes := none
  /-- private key in force at the capture, which signs it -/
  key : Bytes := []
  /-- tick of effect of the request it answers, 0 where it answers none -/
  asked : Nat := 0
deriving DecidableEq, Repr

/-- A reading lost and to be taken again from the record of its session or snapshot number (08 R276). -/
structure LostReading where
  kind : Nat := 2
  meter : Nat := 0
  number : Nat := 0
  source : Nat := 0
deriving DecidableEq, Repr

/-- What a capture fixes beside the state of the part (08 R268). -/
structure Capture where
  kind : Nat
  meter : Nat
  time : Nat
  utc : Nat × Nat
  acc1 : Nat
  acc2 : Nat
  session : Nat := 0
  snapshot : Option Nat := none
  subject : Option Bytes := none
  reissue : Bool := false
  asked : Nat := 0
deriving DecidableEq, Repr

/-- The reading queue (08 R272 to R276). -/
structure ReadRec where
  queue : List ReadingRec := []
  next : Nat := 1
  /-- content of the reading before, none after a start -/
  prev : Option Bytes := none
  /-- the next reading is the first after a start -/
  restarted : Bool := true
  lost : List LostReading := []
  /-- requests waiting for the end of H4 of their tick of effect -/
  asked : List (Nat × Nat) := []
  /-- outlets whose session-start reading of the present tick is still to be captured -/
  starts : List Nat := []
  /-- meters whose periodic reading of the present tick is still to be captured -/
  periodic : List Nat := []
  /-- the snapshot readings of the boundary step of the tick that begins -/
  snaps : List Capture := []
  /-- a switch of slot 8 waits for the end of a supply warning or for room in the queue -/
  switchDue : Bool := false
  /-- numbers up to here are given out or counted at 0x4D80.06 -/
  counted : Nat := 0
  /-- the calibration digest of the latest sealing (06 R224) -/
  sealDigest : Bytes := []
deriving DecidableEq, Repr

/-! ## Civil time and the tamper domain (chapters 07 and 08) -/

/-- Civil time (07 R233, R234): the base pair, and the slew in thousandths of a tick, done and still to go. -/
structure CivilRec where
  valid : Bool := false
  base : Int := 0
  secs : Nat := 0
  frac : Nat := 0
  slewDone : Int := 0
  slewLeft : Int := 0
deriving DecidableEq, Repr

/-- The tamper domain on the Mill die (08 R283 to R287). -/
structure TamperRec where
  /-- battery clock: seconds and 2^-15 s, none where invalid -/
  clock : Option (Nat × Nat) := none
  /-- the crystal's count, seconds and 2^-15 s untrimmed, when the clock was last brought up to date, and 2 000 000ths of 2^-15 s over -/
  crystal : Option (Nat × Nat) := none
  rem : Nat := 0
  stopped : Bool := false
  restarted : Bool := false
  /-- battery voltage at the restart, mV -/
  restartMv : Nat := 0
  /-- next record sequence number -/
  next : Nat := 1
  /-- configuration that the domain was loaded with: inputs enabled, input mode, clock trim in 0.5 ppm, debounce counts -/
  enabled : Nat := 0x1F
  mode : Nat := 0
  trim : Int := 0
  debounce : List Nat := [0x20, 0x20, 0x20, 0x20, 0x20, 0x20, 0x20, 0x20]
deriving DecidableEq, Repr

/-- The logs (08 R280, 21 R611, R612). -/
structure LogRec where
  /-- the next Skein entry is the first after a start -/
  firstAfterStart : Bool := true
  /-- next Skein entry to be drained -/
  skeinNext : Nat := 1
  /-- next metrology event to be drained -/
  eventNext : Nat := 1
deriving DecidableEq, Repr

/-- A record of a stream of the Hank port (19 R552): type, type word, payload. -/
structure StreamRec where
  ty : Nat
  word : Nat
  payload : Bytes
deriving DecidableEq, Repr

/-- A record that fence markers hold (19 R533): its place in arrival, and the markers by channel and records before them. -/
structure FencedRec where
  no : Nat := 0
  holds : List (Nat × Nat) := []
  rec' : StreamRec
deriving DecidableEq, Repr

/-- One virtual channel of the Hank port (19 R548 to R553). -/
structure VcRec where
  /-- records waiting to be sent -/
  out : List StreamRec := []
  /-- number of the latest record sent -/
  outNo : Nat := 0
  /-- bytes of a record begun and still to be sent -/
  tail : Bytes := []
  /-- bytes of a record not yet complete, received -/
  part : Bytes := []
  /-- number of the last record taken -/
  inNo : Nat := 0
  /-- blocks of this channel that the part has released -/
  released : Nat := 0
  /-- data cells sent on the channel since RUN -/
  sent : Nat := 0
  /-- latest count of the other side's credits -/
  credit : Nat := 0
  /-- records taken since the latest start -/
  got : Nat := 0
  /-- records held by fence markers, oldest first -/
  fenced : List FencedRec := []
  /-- card frames that wait for the exchange before them, and the one whose answer is awaited, with their place in arrival -/
  taken : List (Nat × StreamRec) := []
  /-- markers that hold what arrives: channel and the records that had arrived on it before -/
  holds : List (Nat × Nat) := []
deriving DecidableEq, Repr

/-- The Hank link (19 R547 to R550). -/
structure HankRec where
  rxRun : Bool := false
  txRun : Bool := false
  /-- next sequence to send, next expected, last accepted (none before any) -/
  seq : Nat := 0
  expect : Nat := 0
  ack : Option Nat := none
  /-- unacknowledged data cells, oldest first: channel, payload, whether aborted -/
  unacked : List (Nat × Bytes × Bool) := []
  /-- data cells kept over a loss of the link, to be sent again -/
  again : List (Nat × Bytes × Bool) := []
  /-- cells put on the wire, the latest first (at most 64 are kept) -/
  wire : List Bytes := []
  /-- tick of the latest credit cell -/
  creditAt : Nat := 0
  /-- consecutive good and bad cells received -/
  good : Nat := 0
  bad : Nat := 0
deriving DecidableEq, Repr

/-- A waveform capture that waits or streams (19 R555): its first tick, its length, its number and its channels. -/
structure HankCap where
  start : Nat := 0
  len : Nat := 0
  number : Nat := 0
  chans : List Nat := []
deriving DecidableEq, Repr

/-- The host port's status bits (19 R542) and the latest responses to transports without a mailbox. -/
structure HostRec where
  mirrorSeen : Bool := false
  overrun : Bool := false
deriving DecidableEq, Repr

/-- One mailbox pair of the host port (19 R543). -/
structure MboxRec where
  /-- the bytes of the request mailbox, 2 KiB; those not listed are 0 -/
  area : Bytes := []
  busy : Bool := false
  len : Nat := 0
  /-- request written but held while 16 responses wait -/
  held : Option Bytes := none
  /-- response in the mailbox -/
  ready : Option Bytes := none
  waiting : List Bytes := []
deriving DecidableEq, Repr

/-! ## The supply monitor and the power-fail save (chapter 09) -/

/-- One of the two save areas (09 R295): the header, the commit record, and the billing state image (07 R261, R262). -/
structure SaveArea where
  header : Bool := false
  committed : Bool := false
  provisional : Bool := false
  /-- device time and battery clock of the image -/
  point : Nat := 0
  clock : Option (Nat × Nat) := none
  objs : Tab Nat := []
  meters : Tab MeterRec := []
  pulses : Tab PulseRec := []
  civil : CivilRec := {}
  bill : BillRec := {}
  /-- boot epoch, local-time objects 0x4A90.10 to .13, and each meter's rate source: kept with the image, taken up by nothing -/
  epoch : Nat := 0
  localTime : List Nat := []
  sources : List Nat := []
deriving DecidableEq, Repr

/-- One copy of the boundary index (07 R260): the highest snapshot and session numbers written, the last instants as the global block has them,
and the CRC-32 over their bytes. -/
structure IndexCopy where
  snapshot : Nat := 0
  session : Nat := 0
  instants : List Nat := []
  crc : Nat := 0
deriving DecidableEq, Repr

/-- The supply monitor, the power-fail save and the reset that is due (09 R292 to R301). -/
structure SupplyRec where
  /-- the warning comparator: PFW_N is low -/
  warning : Bool := false
  /-- the tick whose status frame first showed the warning, T+1 -/
  seenAt : Option Nat := none
  /-- from T+2 steps, records, readings, sending and fields are held -/
  hold : Bool := false
  /-- the area being written -/
  writing : Option Nat := none
  /-- the warning ended before the commit: the save is to be provisional -/
  toProvisional : Bool := false
  /-- the save of the latest warning is committed and its staged records are still to be written -/
  saved : Bool := false
  areas : Tab SaveArea := []
  /-- the two copies of the boundary index in the billing partition -/
  index : IndexCopy × IndexCopy := ({}, {})
  /-- the live billing state of the last completed H4 (09 R299) -/
  bank : SaveArea := {}
  /-- cause of the latest reset, as 0x2100.01 gives it at the start -/
  cause : Nat := 1
  /-- a commanded warm reset waits for the next completed H4 -/
  resetDue : Bool := false
  /-- the tick in which a committed save was marked provisional -/
  marked : Option Nat := none
  /-- the live billing state is held: a start has been completed since the latest power-on or supply reset -/
  live : Bool := false
deriving DecidableEq, Repr
/-! ## Load channels (chapter 13), on the Mill die -/

/-- One load channel (13 R403 to R413). -/
structure LoadRec where
  /-- command in force, from the sequencer or L.03 -/
  on : Bool := false
  /-- slew of the ramp in progress, 0.1 V/ms; 0 for a ramp that an undervoltage keeps from beginning -/
  slew : Nat := 0
  /-- output voltage when the ramp was paused, 10 mV -/
  reached : Nat := 0
  /-- state 4 was entered from a ramp, paused or not -/
  inRamp : Bool := false
  /-- ticks in state 0 -/
  offTicks : Nat := 0
  /-- ticks in state 0 at the end of the latest open-load phase -/
  phaseEnd : Nat := 320
  /-- the present open-load phase has the pull-up on -/
  pullUp : Bool := true
  /-- latest results, newest first: with the pull-up on and off -/
  upRes : List Bool := []
  downRes : List Bool := []
deriving DecidableEq, Repr

/-- The package budget monitor (13 R409, R410). -/
structure BudgetRec where
  /-- mean dissipation in 2^-15 mW -/
  mean : Int := 0
  /-- consecutive ticks below 0.8 of the budget -/
  under : Nat := 0
  /-- ticks since the latest shed or restore -/
  since : Nat := 0
  /-- shed channels, the latest first -/
  order : List Nat := []
  /-- the budget B of the latest tick, mW -/
  limit : Nat := 6000
deriving DecidableEq, Repr

/-! ## Protection (chapter 11) -/

/-- A power group: comparator and permit (11 R347 to R353), on the Mill die. -/
structure GroupRec where
  /-- the latch has been set and the Loom die has not yet seen it -/
  unseen : Bool := false
  /-- comparator output -/
  out : Bool := false
  /-- consecutive ticks with the input in the zero band -/
  zeroRun : Nat := 0
  /-- group enabled by the command frame -/
  enabled : Bool := false
deriving DecidableEq, Repr

/-- The insulation monitor of an outlet (11 R360 to R362). -/
structure InsRec where
  /-- state of the measurement in hand: 0 none, 1 or 2 -/
  state : Nat := 0
  /-- first tick of the state -/
  start : Nat := 0
  vp : Int := 0
  vn : Int := 0
  vp1 : Int := 0
  vn1 : Int := 0
  /-- consecutive measurements at fault level -/
  faults : Nat := 0
  /-- the cable-side voltage has been within 5 % of the test voltage throughout -/
  inBand : Bool := true
  /-- step 3 has passed -/
  passed : Bool := false
deriving DecidableEq, Repr

/-- The protection engine's state of an outlet (11 R355 to R363). -/
structure ProtRec where
  /-- residual samples, the latest first, up to 640 -/
  win : List CalSample := []
  /-- band counters, DC 1 to 3 and AC 1 to 3 -/
  counts : List Nat := [0, 0, 0, 0, 0, 0]
  /-- consecutive samples over their limit: elements 0 to 3, then the voltage -/
  above : List Nat := [0, 0, 0, 0, 0]
  /-- the band counters stay at 0 before this tick (11 R358) -/
  quiet : Nat := 0
  /-- self-test: its tick T, and whether the first check is done -/
  selfTest : Option Nat := none
  firstDone : Bool := false
  /-- the self-test has run for the start permit in hand -/
  selfDone : Bool := false
  /-- device times of the latest two trips, class N -/
  trips : List Nat := []
  ins : InsRec := {}
deriving DecidableEq, Repr

/-! ## Outlets (chapter 10) -/

/-- SLAC of an outlet (10 R317): stage 0 idle, 1 parameters answered, 2 sounding, 3 attenuation ready, 4 attenuation sent,
5 matched. -/
structure SlacRec where
  stage : Nat := 0
  mac : Nat := 0
  run : Nat := 0
  left : Nat := 0
  sounds : Nat := 0
  sums : List Nat := []
  /-- average attenuation, dB -/
  average : Nat := 0
  nmk : Bytes := []
deriving DecidableEq, Repr

/-- The sequencer and the vehicle link of an outlet (10 R313 to R334). -/
structure OutRec where
  /-- generation code of the session in hand (10 R334) -/
  code : Nat := 0
  /-- tick of entry to the step, moved on by time under a supply warning -/
  since : Nat := 0
  /-- pilot samples of the pilot period in hand, the latest first -/
  pilot : List Int := []
  /-- state the last evaluations gave, and for how many consecutive periods -/
  cand : Nat := 0
  candRun : Nat := 0
  /-- tick of the latest host limits, none before any -/
  limitsAt : Option Nat := none
  /-- waits in step 0 for the vehicle to be absent -/
  waitAbsent : Bool := false
  /-- causes of an end asked for: bit r for reason r, bit 0 for a trip, whose reason is 3 -/
  ask : Nat := 0
  /-- end reason fixed -/
  reason : Nat := 0
  /-- consecutive ticks that meet the condition of the step -/
  run : Nat := 0
  /-- the setpoint falls at the ramp rate after a link loss -/
  linkLoss : Bool := false
  /-- a protection trip ends the session: step 7 waits only for the current (10 R331) -/
  tripped : Bool := false
  /-- tick of the trip that asks for the end, bit 0 of `ask`: the sequencer acts on it in the next tick (11 R364) -/
  tripAt : Nat := 0
  /-- setpoint of the latest H6, 2^-4 A -/
  current : Nat := 0
  /-- tick at which the precharge contactor goes off -/
  preOff : Option Nat := none
  /-- decoded vehicle request (10 R320): current 2^-4 A, voltage 2^-4 V, charging enabled, and its tick -/
  reqI : Nat := 0
  reqV : Nat := 0
  reqOn : Bool := false
  reqAt : Nat := 0
  /-- tick of the latest frame of the vehicle link -/
  frameAt : Nat := 0
  slac : SlacRec := {}
  /-- frames of the host waiting to be sent, oldest first: whether CAN, and the payload -/
  out : List (Bool × Bytes) := []
deriving DecidableEq, Repr

/-- The site power allocator (10 R335 to R342). -/
structure AllocRec where
  /-- curtailment known: in force, waiting for its start, its end where known -/
  inForce : Bool := false
  waiting : Bool := false
  ends : Option Nat := none
  /-- demand reports of the other parts for the next H6: source position and payload -/
  reports : List (Nat × Bytes) := []
  /-- site shares received, for the next H6: watts by outlet -/
  shares : Option (List Nat) := none
  /-- a curtailment to be forwarded in the next report -/
  forward : Option Bytes := none
deriving DecidableEq, Repr

/-! ## Motion safety (chapter 12) -/

/-- A safe stop 1 or the envelope down to the halved limit (12 R380, R388): its first tick and the window counts of each channel at
it, and whether the host asked for it. -/
structure StopRec where
  start : Nat := 0
  dx : Int := 0
  dy : Int := 0
  host : Bool := false
deriving DecidableEq, Repr

/-- An encoder channel of an axis. -/
structure EncRec where
  /-- counter of the latest status frame -/
  last : Int := 0
  /-- extended position in counts -/
  p : Int := 0
  /-- positions of the latest ticks, newest first, 65 of them -/
  hist : List Int := []
  /-- count and position in units that referencing has tied together -/
  origin : Int := 0
  ref : Int := 0
  /-- the index edge has occurred since arming -/
  edge : Bool := false
  /-- position in the H5 before the other channel's index edge, where this one is the late one -/
  since : Int := 0
  /-- counts from the H5 before this channel's index edge to the edge -/
  ahead : Int := 0
  /-- count from which forbidden travel is measured -/
  sdi : Int := 0
deriving DecidableEq, Repr

/-- An axis (12 R375 to R398). -/
structure AxisRec where
  started : Bool := false
  x : EncRec := {}
  y : EncRec := {}
  /-- channel faults reported for the next H5, as A.37 -/
  pend : Nat := 0
  armed : Bool := false
  /-- consecutive evaluations outside a limit: discrepancy, then SLS, reference speed, envelope, SLP, predicted SLP and SDI of X, and of Y -/
  runs : List Nat := []
  /-- a function is in violation in the latest H5 -/
  viol : Bool := false
  ss1 : Option StopRec := none
  entry : Option StopRec := none
  degradedAt : Option Nat := none
  /-- ticks at standstill -/
  standRun : Nat := 0
  /-- ticks without channel fault or discrepancy -/
  clean : Nat := 0
  /-- device times of the latest two trips, class N -/
  trips : List Nat := []
  /-- only role S in Service may clear the trip, class N -/
  service : Bool := false
  /-- STO that waits for the end of a takeover: its cause, and whether outlets in step 6 end -/
  due : Option (Nat × Bool) := none
  /-- SS1 that waits for the end of a takeover -/
  dueSs1 : Bool := false
  /-- the Mill die drives both outputs low after an output fault -/
  outLow : Bool := false
  /-- ticks of the latest test pulses of outputs X and Y -/
  pulseX : Option Nat := none
  pulseY : Option Nat := none
deriving DecidableEq, Repr

/-- The Whorl pairs and the safety island (12 R389 to R393). -/
structure WhorlRec where
  /-- tick T of a takeover that runs -/
  takeover : Option Nat := none
  /-- the spare has passed its test in the takeover -/
  spareOk : Bool := false
  /-- permit enables and STO commands that the latest command frame of a pair carried -/
  permits : Nat := 0
  sto : Nat := 0xFF
  /-- sequence number of the next heartbeat, and the latest heartbeat word sent -/
  seq : Nat := 0
  word : Nat := 0
  /-- ticks without a valid heartbeat -/
  silent : Nat := 0
  /-- the island removes the permits and applies STO -/
  island : Bool := false
  /-- EV70 is due at the next start or the next tick -/
  islandDue : Bool := false
deriving DecidableEq, Repr

/-! ## Panels (chapter 14) -/

/-- A pixel that runs a waveform (14 R422). -/
structure PixRec where
  old : Nat := 0
  band : Nat := 0
  index : Nat := 0
  reached : Nat := 0
deriving DecidableEq, Repr

/-- An update waiting for its commit: region, definition, data and tick of effect (14 R425). -/
structure StagedUpd where
  region : Nat := 0
  defn : Nat := 0
  data : Bytes := []
  at' : Nat := 0
deriving DecidableEq, Repr

/-- One display port (14 R418 to R434). Pixels are keyed by 256 × common + segment; only levels and drives that are not 0 are listed. -/
structure DispRec where
  image : Tab Nat := []
  /-- the billing engine's copy of the image -/
  copy : Tab Nat := []
  pixels : Tab PixRec := []
  /-- forward drives that the Mill die keeps -/
  drives : Tab Nat := []
  staged : List StagedUpd := []
  /-- the port runs: enabled at a frame boundary -/
  active : Bool := false
  /-- the enable bit has been cleared since the latest frame boundary -/
  cut : Bool := false
  /-- waveform tables that stay in force until the next frame boundary, by the band written -/
  tables : Tab Bytes := []
  /-- frames with a mismatch: 1 the image is to be rewritten, 2 the port is to be blanked -/
  bad : Nat := 0
  /-- number and frame of the latest rendering of a legal region; no number where it is to be rendered afresh -/
  shown : Tab (Option Nat × Nat) := []
  /-- a band has been formed since the start -/
  banded : Bool := false
deriving DecidableEq, Repr

/-! ## Twist signalling and the mesh (chapters 15 and 16) -/

/-- A control frame waiting to be sent or acknowledged (15 R459, 16 R473 to R479): bytes 0 to 39, attempts, priority, backoff in
windows, whether it counts as traffic the node originates, and the submission it belongs to. -/
structure CtlTx where
  data : Bytes := []
  tries : Nat := 0
  prio : Nat := 2
  wait : Nat := 0
  own : Bool := false
  tag : Option Nat := none
  /-- windows since its last window, once sent -/
  since : Nat := 0
deriving DecidableEq, Repr

/-- A bulk frame waiting to be sent: the tick it was queued, the frame, its priority, whether it counts as originated, and the
submission it belongs to. -/
structure BulkTx where
  at' : Nat := 0
  frame : Bytes := []
  prio : Nat := 2
  own : Bool := false
  tag : Option Nat := none
deriving DecidableEq, Repr

/-- A control frame in reception or a candidate for one (15 R452, R453): its bits, none for an erased or own slot, and the bits of each of
its slots, under the map of the window they came in. -/
structure RxFrame where
  bits : List (Option Bool) := []
  caps : List Nat := []
deriving DecidableEq, Repr

/-- A bulk block in reception (15 R452, R456), its windows oldest first: the byte of each row, none for a window that was not decided, and
the bits of each bulk slot. -/
structure BulkRx where
  wins : List (Option Bytes) := []
  caps : List (List Nat) := []
deriving DecidableEq, Repr

/-- One lane (15 R442 to R460). -/
structure LaneRec where
  /-- fixed windows that have not ended, oldest first: opening tick and edge -/
  wins : List (Nat × Nat) := []
  /-- opening tick of the latest window fixed -/
  last : Nat := 0
  /-- windows since the lock -/
  sinceLock : Nat := 0
  /-- receive samples of the two latest status frames -/
  s0 : List Int := []
  s1 : List Int := []
  /-- slots decided in the window, newest first: none for a slot of an own pulse, some none for an erased one -/
  decided : List (Option (Option Nat)) := []
  /-- positive amplitudes of slot 0 of the last 64 windows without own sending -/
  noise : List Int := []
  /-- opening tick of the window that is open in state 2, and of the latest window that was decided -/
  opened : Option Nat := none
  closed : Nat := 0
  /-- candidate syncs, by the window they begin in -/
  cands : List RxFrame := []
  /-- the control frame in reception -/
  rx : Option RxFrame := none
  /-- control frames received whole that are not yet decoded, oldest first -/
  rxDone : List RxFrame := []
  /-- whether each of the last two windows was busy with control class -/
  busy : List Bool := []
  /-- the block in reception -/
  bulkRx : Option BulkRx := none
  /-- blocks received whole that are not yet decoded, oldest first -/
  bulkDone : List BulkRx := []
  /-- a burst is in reception: from a marker to the last window of a last block, or to a window in which no further block begins -/
  burstOpen : Bool := false
  /-- windows since the latest block marker, and whether its block was the last of a burst -/
  marker : Nat := 1000
  markedLast : Bool := false
  /-- control bits still to be sent -/
  txBits : List Bool := []
  /-- bulk bits of each window still to be sent, with whether the window carries the marker -/
  txBulk : List (Bool × List Bool) := []
  /-- the control frame or the burst has not begun: its first window is still to be judged by R459 -/
  txFresh : Bool := false
  bulkFresh : Bool := false
  /-- shapes of the own window, by slot -/
  txWin : List Nat := []
  /-- control bits and bulk windows that the own window takes -/
  txNow : Nat × Nat := (0, 0)
  /-- map of the open window -/
  map : Bytes := []
  /-- threshold and blank level of the window fixed last, mV, and its transmit amplitude, 0.5 V -/
  dmin : Nat := 0
  blank : Nat := 0
  amp : Nat := 0
  /-- shape of the slot that the next command frame carries -/
  shape : Nat := 0
  /-- the control frame in flight -/
  flight : Option CtlTx := none
  ctlQ : List CtlTx := []
  await : List CtlTx := []
  bulkQ : List BulkTx := []
  burst : List BulkTx := []
  burstWait : Nat := 0
  /-- sendings of the last 600 s: tick, windows of originated traffic, windows of priority 4 -/
  sent : List (Nat × Nat × Nat) := []
  /-- windows of the lane that have closed, placed or decided -/
  passed : Nat := 0
  /-- sequence of the latest decoded block and the bytes of the frame it left open -/
  blockSeq : Option Nat := none
  /-- slot errors and slots of decoded blocks whose sender is not yet known -/
  blockErrs : List (Nat × Nat) := []
  part : Bytes := []
  /-- whole bulk frames of decoded blocks -/
  ready : List Bytes := []
deriving DecidableEq, Repr

/-- A neighbour on a lane (16 R470, R474). -/
structure NbrRec where
  err : Nat := 4096
  pathCost : Nat := 0
  hop : Nat := 0
  relays : Bool := false
  joins : Bool := false
  heardAt : Nat := 0
  /-- consecutive beacon periods in which it has offered a cost at least 25 % lower -/
  better : Nat := 0
deriving DecidableEq, Repr

/-- A downward entry: next hop, lane, tick of its latest refresh (16 R472). -/
structure DownRec where
  next : Nat := 0
  lane : Nat := 0
  at' : Nat := 0
deriving DecidableEq, Repr

/-- An endpoint record of the collector (16 R477). -/
structure EndRec where
  ident : Nat := 0
  state : Nat := 0
  hops : Nat := 0
  lane : Nat := 0
  groups : Nat := 0
  first : Nat := 0
  cost : Nat := 0
  gateway : Bool := false
  failed : Nat := 0
  path : Nat := 0
  heard : Nat := 0
  /-- descendants it declared that it can hold, units of 64 -/
  capacity : Nat := 0
deriving DecidableEq, Repr

/-- A queued submission of the host or exchange of a read job (16 R480, R481). -/
structure SubmRec where
  tag : Nat := 0
  /-- read job, none for a submission -/
  job : Option Nat := none
  kind : Nat := 0
  target : Nat := 0
  prio : Nat := 2
  bulk : Bool := false
  deadline : Nat := 0
  frame : Bytes := []
  /-- sent, waiting for the answer -/
  sent : Bool := false
  retries : Nat := 0
  /-- handed to the lanes -/
  placed : Bool := false
  /-- image pieces, which nothing answers (16 R484) -/
  piece : Bool := false
  /-- lane of the latest transmission, and the windows of that lane that had closed by then -/
  lane : Nat := 0
  since : Nat := 0
deriving DecidableEq, Repr

/-- The mesh layer (chapter 16). Neighbours are keyed by lane × 2^18 + address. -/
structure MeshRec where
  nbrs : Tab NbrRec := []
  down : Tab DownRec := []
  /-- parent's lane and address -/
  parent : Option (Nat × Nat) := none
  joined : Bool := false
  /-- tick from which the node listens -/
  listen : Nat := 0
  /-- tick of the join request that waits for its accept -/
  joinAt : Option Nat := none
  beaconSeq : Nat := 0
  /-- tick of the latest beacon and of the latest keep-alive -/
  beaconAt : Nat := 0
  keepAt : Nat := 0
  /-- a keep-alive is due for the rebuild bit -/
  keepDue : Bool := false
  /-- identity of the collector -/
  collector : Nat := 0
  /-- flood sequence numbers seen, the latest first, and the next own one -/
  floods : List Nat := []
  flood : Nat := 0
  /-- maps do not match those of the beacons: the node does not send -/
  mapsBad : Bool := false
  rebuild : Option Nat := none
  table : Tab EndRec := []
  queue : List SubmRec := []
  /-- endpoints of the running cycle of a job still without result -/
  jobLeft : Tab Nat := []
  /-- the latest cycle of a job that has begun, plus 1 -/
  cycles : Tab Nat := []
  /-- relay addresses of the own path, packed by 18 bits -/
  path : Nat := 0
  /-- next transaction number of a scheduled read -/
  trans : Nat := 0
  /-- result 5 has been given -/
  queueFull : Bool := false
deriving DecidableEq, Repr

/-! ## The tag reader (chapter 17) -/

/-- A four-step write (17 R507, R508): host tag, identifier, profile, block 0 of a profile S tag, write number, first block, data;
step 0 nothing answered, 1 command answered, 2 every block answered, 3 COMMIT sent whole, 4 COMMIT answered. -/
structure TagWrite where
  tag : Nat := 0
  ident : Nat := 0
  profile : Nat := 0
  fleet : Bytes := []
  w : Nat := 0
  first : Nat := 0
  data : Bytes := []
  step : Nat := 0
  sent : Nat := 0
  /-- last tick of the re-entry window, once the field has collapsed -/
  until' : Nat := 0
deriving DecidableEq, Repr

/-- The Selected tag and its session (17 R499 to R506); stage 0 Open, 1 r received, 2 after AUTH1, 3 Secured, 4 Secured and reported,
5 waits for REDRAW. -/
structure TagSess where
  ident : Nat := 0
  flags : Nat := 0
  top : Nat := 0
  stage : Nat := 0
  r : Bytes := []
  rr : Bytes := []
  rt : Bytes := []
  kt : Bytes := []
  ks : Bytes := []
  sentNo : Nat := 0
  gotNo : Nat := 0
  fleet : Bytes := []
  /-- blocks the latest READ returned -/
  blocks : Bytes := []
deriving DecidableEq, Repr

/-- A card that a channel holds (17 R495): 1 for Type A or 2 for Type B, and its UID or PUPI. -/
structure HeldCard where
  ty : Nat := 1
  ident : Bytes := []
deriving DecidableEq, Repr

/-- One reader channel (17 R488 to R493); phase 0 field off, 1 nothing found and dwelling, 2 holding a card or a tag. -/
structure ReaderRec where
  phase : Nat := 0
  /-- antenna of the latest visit, and the first one that the next visit looks at -/
  antenna : Nat := 0
  next : Nat := 0
  /-- tick of the latest change of the field -/
  since : Nat := 0
  /-- tick of the latest presence check -/
  checkAt : Nat := 0
  /-- drive current learnt, by antenna -/
  learnt : Tab Nat := []
  /-- cards held, the one selected last at the end -/
  cards : List HeldCard := []
  /-- a frame of the host that waits for the card's answer, and the last tick of its waiting time -/
  exch : Option (Bytes × Nat) := none
  /-- tags recorded and still to be selected -/
  queue : List (Nat × Nat × Nat) := []
  sess : Option TagSess := none
  /-- identifiers ignored until the antenna's next visit -/
  ignored : List Nat := []
  wr : Option TagWrite := none
  /-- last tick of a drain -/
  drain : Option Nat := none
  /-- transmit power in 50 mW, dwell time in ms and groups of the visit (17 R509) -/
  power : Nat := 10
  dwell : Nat := 50
  groupS : Nat := 0
  groupL : Nat := 0
  /-- bits of the frames sent since the field came on, between SOF and EOF, the latest first (256 are kept) -/
  tx : List (List Bool) := []
deriving DecidableEq, Repr
/-! ## The Spindle arbiter (chapter 18) -/

/-- A request for a service (18 R518 to R521): the requester, whether it opens a locked run, its units, its first cycle, and
whether its wait has reached the threshold. -/
structure ArbReq where
  q : Nat := 0
  locked : Bool := false
  units : Nat := 1
  at' : Nat := 0
  told : Bool := false
deriving DecidableEq, Repr

/-- A service: its grant and the cycle it was decided in, the previous winner and the one before it, the requests that wait, the cycle
up to which its use is counted, cycles used by rank since the latest refresh, its latest dead cycle, the latest grant that has ended with
its last cycle, and whether the present grant has raised its requester's count. -/
structure SvcRec where
  grant : Option ArbReq := none
  decided : Nat := 0
  prev : Nat := 37
  prev2 : Nat := 37
  waiting : List ArbReq := []
  paid : Nat := 0
  occ : List Nat := [0, 0, 0, 0, 0, 0, 0, 0]
  dead : Option Nat := none
  ended : Option (ArbReq × Nat) := none
  bumped : Bool := true
deriving DecidableEq, Repr

/-- The arbiter: its present cycle, refills done, tick of the latest occupancy refresh, cycles up to which each requester's counter
has been reduced, the last cycle of each requester's latest grant that has ended, and whether staged records run at rank 7 (07 R263). -/
structure ArbRec where
  cycle : Nat := 0
  refills : Nat := 0
  occAt : Nat := 0
  svcs : Tab SvcRec := []
  paid : Tab Nat := []
  held : Tab Nat := []
  top : Bool := false
deriving DecidableEq, Repr
/-! ## The ring (chapter 19) -/

/-- One ring port (19 R556 to R560). -/
structure PortRec where
  /-- round trips less turnarounds, 0.25 ns, the latest 16 first -/
  trips : List Nat := []
  /-- pings since the last echo -/
  pings : Nat := 0
  /-- frames, bytes 0 to CRC, and markers put out, the latest first (64 are kept) -/
  sent : List Bytes := []
deriving DecidableEq, Repr

/-- The ring (19 R558, R559). -/
structure RingRec where
  seq : Nat := 0
  /-- the last 64 sequences of each source, the latest first -/
  seen : Tab (List Nat) := []
  /-- hops to a position by a port, by position * 2 + port -/
  hops : Tab Nat := []
  /-- copy of the marker used in this tick: its hops and port -/
  best : Option (Nat × Nat) := none
  /-- copies of the marker in this tick -/
  copies : Nat := 0
  /-- positions last seen while a port was in RUN, kept while none is (01 R42) -/
  lastSeen : Nat := 0
  /-- neighbours lost with their port and not heard since (01 R40) -/
  gone : Nat := 0
  /-- the master's marker came back in this tick after a holdover -/
  back : Bool := false
  /-- the part sent its own markers in the latest tick -/
  marked : Bool := false
deriving DecidableEq, Repr

/-! ## Bobbin slots (chapter 20) -/

/-- The two halves of a Bobbin slot: key bytes, none where the half is empty. -/
structure KeyRec where
  active : Option Bytes := none
  pend : Option Bytes := none
  /-- challenge last read from the slot, none where used -/
  challenge : Option Bytes := none
deriving DecidableEq, Repr


/-! ## Lifecycle and update (chapter 20) -/

/-- A lifecycle transition that waits for its tick of effect (20 R578, R579): the target, the role, the numbers of the readings to
be given out first, and whether signing was available. -/
structure TransRec where
  target : Nat := 0
  role : Nat := 0
  readings : List Nat := []
  signed : Bool := true
  /-- the final readings wait for the end of a supply warning -/
  owed : Bool := false
deriving DecidableEq, Repr

/-- The images of one kind (20 R580 to R588): the header in force (none as shipped) and the blocks of the active slot, the header of the
inactive slot and what its blocks hold, the blocks stored and the sectors erased in the latest transfer, whether a transfer runs, and the origin
of the ring chain. -/
structure ImageRec where
  active : Option Bytes := none
  activeBlocks : Tab Bytes := []
  header : Bytes := []
  blocks : Tab Bytes := []
  stored : List Nat := []
  erased : List Nat := []
  running : Bool := false
  origin : Option Nat := none
deriving DecidableEq, Repr

/-- A ring frame of type 0x30 that waits for its acknowledgement: destination, tick of the latest sending, payload. -/
structure RingBlk where
  dst : Nat := 0
  at' : Nat := 0
  payload : Bytes := []
deriving DecidableEq, Repr

/-- One copy of the boot record (20 R580): the active slots and the version floors of the kinds 1 to 3, and the CRC-32 over their bytes. -/
structure BootCopy where
  slots : List Nat := []
  floors : List Nat := []
  crc : Nat := 0
deriving DecidableEq, Repr

/-- The update process: images by kind, metrology pieces, ring blocks sent and waiting, the activation's first tick and role. -/
structure UpdRec where
  images : Tab ImageRec := []
  pieces : Tab Bytes := []
  unacked : List RingBlk := []
  waiting : List RingBlk := []
  since : Nat := 0
  role : Nat := 0
  /-- the pause is the second one, after a revert (20 R592) -/
  back : Bool := false
  /-- no metrology image, no safety-island image could be loaded (20 R594) -/
  noMetrology : Bool := false
  noIsland : Bool := false
  /-- the two copies of the boot record, none as shipped, and the one in use (20 R580) -/
  boot : Option BootCopy × Option BootCopy := (none, none)
  bootUse : Nat := 0
  /-- blocks of the flash that it cannot program: kind, slot, block (20 R584; log entry 119) -/
  flashBad : List (Nat × Nat × Nat) := Config.flashBad
deriving DecidableEq, Repr
/-! ## The dictionary queue (chapter 02) -/

/-- One entry of a request (02 R71). -/
structure DEntry where
  ix : Nat := 0
  sub : Nat := 0
  flags : Nat := 0
  off : Nat := 0
  len : Nat := 0
  data : Bytes := []
deriving DecidableEq, Repr

/-- Where the response to a request goes (02 R72 to R78): a host queue, an Ethernet source from the listening port, a CAN source, the lane, far address and
direction of a Twist frame, or nowhere (a broadcast command); and the heartbeat of a CAN port (02 R83). -/
inductive ReplyTo where
  | host (q : Nat)
  /-- by Ethernet: the client's address and port, the port that listens, the part's own address that the request named, and once sent the
  address on the link that it goes to -/
  | ether (e : Nat) (v6 : Bool) (ip : Bytes) (port listen : Nat) (own via : Bytes)
  | can (p : Nat) (fd : Bool) (client : Nat)
  | twist (lane : Nat) (bulk : Bool) (hop far : Nat) (up : Bool)
  | nowhere
  | heartbeat (p : Nat)
deriving DecidableEq, Repr

/-- How far a request is. -/
inductive DPhase where
  /-- in the queue, not yet checked -/
  | queued
  /-- checks 1 to 4 passed -/
  | accepted
  /-- a write that passed every check and waits for its MRAM commit -/
  | checked
  /-- a write that waits for its tick of effect -/
  | ready
  /-- in effect; the response waits for a transition or an activation -/
  | waiting
  /-- a copy of a request in progress -/
  | copy
  /-- a fence refused at checks 4 to 12, which completes in its order -/
  | refused
deriving DecidableEq, Repr

/-- A request in the dictionary queue. -/
structure DReq where
  dest : ReplyTo := .nowhere
  /-- bytes 0 to 23 of the source record that the request belongs to (02 R62, R632) -/
  src : Bytes := []
  /-- the channel is bound to role O (02 R51, R84) -/
  bound : Bool := false
  /-- the request came over Twist, and in the compact form (02 R78) -/
  twist : Bool := false
  compact : Bool := false
  malformed : Bool := false
  op : Nat := 0
  epoch : Nat := 0
  trans : Nat := 0
  roleCode : Nat := 0
  /-- the tag, where the request carries one, and the bytes it is over -/
  tag : Option Bytes := none
  signed : Bytes := []
  /-- key that the response is tagged with -/
  key : Option Bytes := none
  role : Role := .P
  entries : List DEntry := []
  /-- CRC-32 digest of the entries (02 R63) -/
  digest : Nat := 0
  phase : DPhase := .queued
  /-- tick of effect of a request for readings -/
  eff : Nat := 0
  /-- ranks and weights that a validated write has changed before its commit, as they were (18 R524) -/
  olds : List (Nat × Nat × Nat) := []
  /-- of a refused fence: its statuses, the status of the whole request for its envelope, and whether the result is recorded -/
  res : List Nat := []
  whole : Nat := 0
  keeps : Bool := false
deriving DecidableEq, Repr

/-- A number in a duplicate window (02 R63): its digest, its result once recorded, whether a segmented transfer carries it, and the
source's highest number before it. -/
structure WinRec where
  n : Nat := 0
  digest : Nat := 0
  result : Option (List Nat) := none
  seg : Bool := false
  was : Nat := 0
deriving DecidableEq, Repr

/-- A source record (02 R63, R632). -/
structure SrcRec where
  key : Bytes := []
  h : Nat := 0
  /-- tick of the source's latest write -/
  at' : Nat := 0
  /-- accepted numbers, the latest first: the window is the first 64; the ones before come back where a number is taken out (02 R65) -/
  window : List WinRec := []
deriving DecidableEq, Repr

/-- A segmented write in progress (02 R80, R81): the lengths of its segments by offset, the bytes staged. -/
structure SegRec where
  src : Bytes := []
  trans : Nat := 0
  ix : Nat := 0
  sub : Nat := 0
  data : Bytes := []
  segs : Tab Nat := []
  at' : Nat := 0
deriving DecidableEq, Repr

/-- The copy that a segmented read is served from (02 R82). -/
structure CopyRec where
  src : Bytes := []
  trans : Nat := 0
  data : Bytes := []
  at' : Nat := 0
deriving DecidableEq, Repr

/-- The dictionary queue, the source records by number, the segmented transfers, the latest response to each CAN source, and the
latest 64 answers that left by Ethernet or CAN. -/
structure DictRec where
  queue : List DReq := []
  srcs : Tab SrcRec := []
  segs : List SegRec := []
  copies : List CopyRec := []
  canResp : Tab Bytes := []
  sent : List (ReplyTo × Bytes) := []
deriving DecidableEq, Repr


/-! ## The debug port and boundary scan (chapter 21) -/

/-- The debug port (21 R599 to R608). -/
structure DbgRec where
  /-- the latest response: status, tag, length, payload, CRC -/
  resp : Bytes := []
  auth : Bool := false
  /-- challenge last issued, none before any and after a start -/
  challenge : Option Bytes := none
  /-- authentication failures since the latest power-on reset -/
  fails : Nat := 0
  /-- a halt takes effect at the end of the tick -/
  pending : Bool := false
  halted : Bool := false
  /-- a step runs at the next tick edge -/
  stepping : Bool := false
  /-- work resumes at the next tick edge -/
  resuming : Bool := false
  /-- cause of the halt: 0 command, 1 breakpoint; index, address, data and cycle of the match -/
  cause : Nat := 0
  index : Nat := 0
  addr : Nat := 0
  data : Nat := 0
  cycle : Nat := 0
  /-- breakpoint descriptors -/
  points : Tab Bytes := []
deriving DecidableEq, Repr

/-- Boundary scan (21 R609, R610): instruction register, the bytes that the selected data register shifts out, the boundary register's
preload and capture, and whether an instruction holds the Loom die in reset. -/
structure JtagRec where
  instr : Nat := 1
  shift : Bytes := [0x4F#8, 0x0A#8, 0x24#8, 0x13#8]
  preload : Bytes := []
  captured : Bytes := []
  hold : Bool := false
deriving DecidableEq, Repr
/-! ## The whole state -/

/-- Everything the part holds but the debug memory and the queue. -/
structure Dev where
  /-- device time in ticks (01 R24), shown at 0x2000.01 -/
  now : Nat := 0
  /-- index of the next free value (log entry 2) -/
  freeIdx : Nat := 0
  /-- status of the latest object write (02 R69) -/
  status : Nat := 0
  /-- numeric objects that differ from their default or were written, by index * 256 + sub-index -/
  objs : Tab Nat := []
  /-- BLOB, STRING and DOMAIN objects, by index * 256 + sub-index -/
  blobs : Tab Bytes := []
  loom : Loom := .unpowered
  supply : SupplyRec := {}
  hold : HoldRec := {}
  tick : TickRec := {}
  links : Tab LinkRec := []
  chans : Tab ChanRec := []
  locks : Tab LockRec := []
  profs : Tab ProfRec := []
  cals : Tab CalRec := []
  meters : Tab MeterRec := []
  pulses : Tab PulseRec := []
  /-- the latest 15 demand records of each meter, the latest first (07 R260) -/
  demand : Tab (List Bytes) := []
  bill : BillRec := {}
  reads : ReadRec := {}
  keys : Tab KeyRec := []
  civil : CivilRec := {}
  tamper : TamperRec := {}
  log : LogRec := {}
  vcs : Tab VcRec := []
  hank : HankRec := {}
  capt : Option HankCap := none
  host : HostRec := {}
  mbox : Tab MboxRec := []
  dict : DictRec := {}
  loads : Tab LoadRec := []
  budget : BudgetRec := {}
  groups : Tab GroupRec := []
  prots : Tab ProtRec := []
  outs : Tab OutRec := []
  alloc : AllocRec := {}
  ports : Tab PortRec := []
  ring : RingRec := {}
  axes : Tab AxisRec := []
  whorl : WhorlRec := {}
  disps : Tab DispRec := []
  lanes : Tab LaneRec := []
  mesh : MeshRec := {}
  readers : Tab ReaderRec := []
  /-- writes of outcome 2 or 3 kept for the re-entry window (17 R508) -/
  unresolved : List TagWrite := []
  arb : ArbRec := {}
  trans : Option TransRec := none
  upd : UpdRec := {}
  dbg : DbgRec := {}
  jtag : JtagRec := {}
deriving DecidableEq, Repr

/-- The state of the block: the queue of waiting commands, first in first out, the debug memory (21 R602) and the part. -/
structure State where
  pending : List Instr := []
  mem : List Host.Cell := []
  dev : Dev := {}
deriving DecidableEq, Repr

/-- What a byte of memory that nothing has written reads as (log entry 3). -/
def memDefault : Byte := 0#8

/-- The part with no supply: every object at its default, every unit at rest, no command waiting (log entry 4). -/
def State.reset : State := {}

end Sys2Proof.Machine
end

