-- ==== Sys2Proof/Machine/Ops.lean ====
section
/-! DEFINITION. The named operations over the part: reading and writing objects, free values, the debug memory, and lifting
an effect on the part to a step's outcome. -/
namespace Sys2Proof.Machine

/-- The outcome of a step. -/
abbrev Out := Host.Outcome State Fault Refusal

/-- A command whose effect touches neither the queue nor the debug memory. -/
def onDev (f : Dev → Dev) (s : State) : Out := .next { s with dev := f s.dev }

/-- `f` where `b` holds, else no effect (log entry 9: an event whose condition does not hold does not come about). -/
def Dev.when (b : Bool) (f : Dev → Dev) (d : Dev) : Dev := if b then f d else d

/-! ## Numeric objects -/

/-- The key of an object. -/
def okey (ix sub : Nat) : Nat := ix * 256 + sub

/-- The value of a numeric object. -/
def Dev.get (d : Dev) (ix sub : Nat) : Nat :=
  match tfind d.objs (okey ix sub) with
  | some v => v
  | none => objDefault ix sub

/-- The part with a numeric object set. -/
def Dev.set (d : Dev) (ix sub v : Nat) : Dev := { d with objs := tset d.objs (okey ix sub) v }

/-- The signed value of a numeric object of `w` bits. -/
def Dev.getS (d : Dev) (w ix sub : Nat) : Int := sval w (d.get ix sub)

/-- The part with a signed object of `w` bits set. -/
def Dev.setS (d : Dev) (w ix sub : Nat) (v : Int) : Dev := d.set ix sub (spat w v)

/-- Add `k` to a counter of `w` bits that saturates. -/
def Dev.satInc (d : Dev) (w ix sub k : Nat) : Dev := d.set ix sub (satAdd w (d.get ix sub) k)

/-- Add 1 to a counter of 32 bits that saturates. -/
def Dev.inc (d : Dev) (ix sub : Nat) : Dev := d.satInc 32 ix sub 1

/-- Add 1 to a counter of 32 bits that wraps. -/
def Dev.incWrap (d : Dev) (ix sub : Nat) : Dev := d.set ix sub ((d.get ix sub + 1) % 2 ^ 32)

/-- Set or clear bit `i` of an object. -/
def Dev.setBitO (d : Dev) (ix sub i : Nat) (b : Bool) : Dev := d.set ix sub (setBit (d.get ix sub) i b)

/-- Bit `i` of an object. -/
def Dev.bitO (d : Dev) (ix sub i : Nat) : Bool := (d.get ix sub).testBit i

/-! ## Byte-string objects -/

/-- The value of a BLOB, STRING or DOMAIN object. -/
def Dev.getB (d : Dev) (ix sub : Nat) : Bytes :=
  match tfind d.blobs (okey ix sub) with
  | some v => v
  | none => blobDefault ix sub

/-- The part with a byte-string object set. -/
def Dev.setB (d : Dev) (ix sub : Nat) (v : Bytes) : Dev := { d with blobs := tset d.blobs (okey ix sub) v }

/-! ## Free values -/

/-- The next free value below `n` (below 1 where `n` is 0), and the part with the index advanced. -/
def Dev.fresh (d : Dev) (n : Nat) : Nat × Dev := (Config.free d.freeIdx % max n 1, { d with freeIdx := d.freeIdx + 1 })

/-- `n` free bytes. -/
def Dev.freshBytes (d : Dev) (n : Nat) : Bytes × Dev :=
  (natLE n (Config.free d.freeIdx), { d with freeIdx := d.freeIdx + 1 })

/-! ## The tick and the dies -/

/-- The tick at which a write validated now takes effect (02 R58, log entry 10). -/
def Dev.effTick (d : Dev) : Nat := d.now + 1

/-- Whether ticks run. -/
def Dev.ticking (d : Dev) : Bool := d.loom == .running

/-- Whether the Loom die does its work: ticks run and no debug halt is in force (21 R603). -/
def Dev.running (d : Dev) : Bool := d.ticking && !d.dbg.halted

/-- An event that comes about only while the Loom die does its work. -/
def onRun (f : Dev → Dev) (s : State) : Out := onDev (fun d => d.when d.running f) s

/-- The lifecycle state (20 R576): 0 Factory, 1 Provisioned, 2 Sealed, 3 Service, 4 Retired. -/
def Dev.life (d : Dev) : Nat := d.get 0x2200 1

/-- Whether the part is in the Service state. -/
def Dev.inService (d : Dev) : Bool := d.life == 3

/-- Whether the part is sealed. -/
def Dev.isSealed (d : Dev) : Bool := d.life == 2

/-- Whether the activation of an image of kind `k` is in its pause (20 R591). -/
def Dev.pausing (d : Dev) (k : Nat) : Bool := d.get 0x2300 2 == k + 8

/-- Whether an activation waits, pauses or confirms (20 R590). -/
def Dev.activating (d : Dev) : Bool := d.get 0x2300 2 != 0

/-- Ring position (01 R37). -/
def Dev.position (d : Dev) : Nat := d.get 0x2000 6 % 8

/-! ## Folding over numbers -/

/-- `f` for each number of a list in turn. -/
def eachN (l : List Nat) (f : Nat → Dev → Dev) (d : Dev) : Dev := l.foldl (fun d i => f i d) d

/-- `f` for 0 to `n - 1` in turn. -/
def each (n : Nat) (f : Nat → Dev → Dev) (d : Dev) : Dev := eachN (List.range n) f d

/-! ## Checks of an object write (02 R55, checks 6 to 12) -/

/-- The first status that is not 0. -/
def firstStatus : List Nat → Nat
  | [] => 0
  | x :: r => if x = 0 then firstStatus r else x

/-- The bit of a role in a mask of roles (00 R14). -/
def roleMask : Role → Nat
  | .P => 1
  | .O => 2
  | .U => 4
  | .M => 8
  | .S => 16
  | .D => 32

/-- The code of a role in frames and logs (02 R70, 08 R280). -/
def roleCode : Role → Nat
  | .P => 0
  | .O => 1
  | .U => 2
  | .M => 3
  | .S => 4
  | .D => 5

/-- Whether an access that names the roles of `m` admits a role; P admits every request (00 R14). -/
def roleOk (m : Nat) (r : Role) : Bool := m.testBit 0 || (Nat.land m (roleMask r) != 0)

/-- The value of a write: a number of a fixed-size type or a byte string. -/
inductive Val where
  | num (n : Nat)
  | raw (b : Bytes)
deriving DecidableEq, Repr

/-- The number of a value, little-endian where it is a byte string. -/
def Val.nat : Val → Nat
  | .num n => n
  | .raw b => leNat b

/-- The bytes of a value. -/
def Val.bytes : Val → Bytes
  | .num n => natLE 8 n
  | .raw b => b

/-- A valid UTF-8 tail of `k` continuation bytes, then the rest. -/
def utf8Go : Nat → Nat → Bytes → Bool
  | 0, _, _ => true
  | _ + 1, 0, [] => true
  | _ + 1, _ + 1, [] => false
  | f + 1, 0, b :: r =>
    if b.toNat < 0x80 then utf8Go f 0 r
    else if 0xC2 ≤ b.toNat && b.toNat < 0xE0 then utf8Go f 1 r
    else if 0xE0 ≤ b.toNat && b.toNat < 0xF0 then utf8Go f 2 r
    else if 0xF0 ≤ b.toNat && b.toNat < 0xF5 then utf8Go f 3 r
    else false
  | f + 1, k + 1, b :: r => if 0x80 ≤ b.toNat && b.toNat < 0xC0 then utf8Go f k r else false

/-- Length and type (check 11, R46, R47): 0 or 0x07. -/
def lenStatus (ty : ObjTy) (v : Val) : Nat :=
  match ty, v with
  | .bool, .num n => if n < 256 then 0 else 7
  | .u w, .num n => if n < 2 ^ (8 * w) then 0 else 7
  | .s w, .num n => if n < 2 ^ (8 * w) then 0 else 7
  | .blob lo hi, .raw b => if lo ≤ b.length && b.length ≤ hi then 0 else 7
  | .str hi, .raw b => if b.length ≤ hi then 0 else 7
  | .dom hi, .raw b => if b.length ≤ hi then 0 else 7
  | .bool, .raw b => if b.length = 1 then 0 else 7
  | .u w, .raw b => if b.length = w then 0 else 7
  | .s w, .raw b => if b.length = w then 0 else 7
  | _, .num _ => 7

/-- Whether a band entry is in its ranges (11 R369): level 1 to 1 048 575 in bits 19:0, delay 1 to 4 095 in bits 31:20. -/
def bandOk (n : Nat) : Bool := decide (1 ≤ field n 0 20 ∧ 1 ≤ field n 20 12)

/-- Value in range (check 12, R3, R46): 0 or 0x08. -/
def rangeStatus (ty : ObjTy) (c : Chk) (v : Val) : Nat :=
  let n := v.nat
  let base := match ty with
    | .bool => decide (n ≤ 1)
    | .str _ => utf8Go (v.bytes.length + 1) 0 v.bytes
    | _ => true
  let w := match ty with
    | .s w => 8 * w
    | _ => 64
  let own := match c with
    | .any => true
    | .rng lo hi => decide (lo ≤ n ∧ n ≤ hi)
    | .srng lo hi => decide (lo ≤ sval w n ∧ sval w n ≤ hi)
    | .rngOr lo hi x => decide ((lo ≤ n ∧ n ≤ hi) ∨ n = x)
    | .mask m => Nat.land n m == n
    | .one l => l.contains n
    | .rule => true
    | .band => bandOk n
    | .legal => decide (n % 64 ≤ 35 ∧ 1 ≤ field n 9 4 ∧ field n 9 4 ≤ 12)
  if base && own then 0 else 8

/-- Statuses that an object's own chapter adds, by the check that carries them (R55). -/
structure Rules where
  atDir : Nat := 0
  atLife : Nat := 0
  atLen : Nat := 0
  atRange : Nat := 0
deriving DecidableEq, Repr

/-- Lifecycle state (check 10): an object of class C is writable only in the Service state (R48), none in Retired (20 R579). -/
def lifeStatus (d : Dev) (c : Cls) : Nat :=
  if d.life = 4 then 4
  else
    match c with
    | .metrology => if d.inService then 0 else 4
    | _ => 0

/-- Checks 6 to 12 of R55 for a write. -/
def writeStatus (d : Dev) (role : Role) (ix sub : Nat) (v : Val) (x : Rules) : Nat :=
  if !objIndexExists ix then 1
  else
    match objRow ix sub with
    | none => if sub = 0 then 5 else 2
    | some r =>
      firstStatus [if r.dir = .ro then 5 else 0, x.atDir, if roleOk r.roles role then 0 else 3,
        lifeStatus d r.cls, x.atLife, x.atLen, lenStatus r.ty v, rangeStatus r.ty r.chk v, x.atRange]

/-- Checks 6 to 10 for a read of `len` accepted bytes (R47, R59). -/
def readStatus (role : Role) (ix sub : Nat) : Nat :=
  if !objIndexExists ix then 1
  else
    match objRow ix sub with
    | none => if sub = 0 then 0 else 2
    | some r => firstStatus [if r.dir = .wo then 6 else 0, if roleOk r.roles role then 0 else 3]

/-- The part with the status of the latest object write recorded. -/
def Dev.answer (d : Dev) (st : Nat) : Dev := { d with status := st }

/-- Whether the part acts on a write: while it works, and in recovery on an image block and an activation (20 R594). -/
def Dev.acts (d : Dev) (ix : Nat) : Bool := d.running || (d.loom == .recovery && (ix == 0x2330 || ix == 0x2300))

/-- A write to an object that the part acts on: the checks of R55, then the effect and status 0x00, or the refusal and nothing else. -/
def writeObj (role : Role) (ix sub : Nat) (v : Val) (x : Rules) (eff : Dev → Dev) (d : Dev) : Dev :=
  let st := writeStatus d role ix sub v x
  d.when (d.acts ix) fun d => if st = 0 then (eff d).answer 0 else d.answer st

/-- Store the value of a write in its object. -/
def Dev.store (d : Dev) (ix sub : Nat) (v : Val) : Dev :=
  match objRow ix sub with
  | some r => if r.ty.isBytes then d.setB ix sub v.bytes else d.set ix sub v.nat
  | none => d

/-- Whether an object is committed to MRAM before it takes effect (02 R49). -/
def committed (e : DEntry) : Bool :=
  match objRow e.ix e.sub with
  | some r => r.cls == .config || r.cls == .metrology
  | none => false

/-- Canonical bytes of an object for a response, an event or a copy. -/
def Dev.objBytes (d : Dev) (ix sub : Nat) : Bytes :=
  match objRow ix sub with
  | some r => (match r.ty.size with
               | some w => natLE w (if ix = 0x2000 && sub = 1 then d.now else d.get ix sub)
               | none => d.getB ix sub)
  | none => if sub = 0 then [BitVec.ofNat 8 (objHighestSub ix)] else []

/-! ## The debug memory (21 R602) -/

/-- The byte at a debug address. -/
def memGet (m : List Host.Cell) (a : Nat) : Byte := tget memDefault m a

/-- Put a byte into memory, keeping the canonical form: addresses rising, no entry equal to the default. -/
def memSet : List Host.Cell → Nat → Byte → List Host.Cell
  | [], a, b => if b = memDefault then [] else [(a, b)]
  | (k, w) :: r, a, b =>
    if a = k then (if b = memDefault then r else (a, b) :: r)
    else if a < k then (if b = memDefault then (k, w) :: r else (a, b) :: (k, w) :: r)
    else (k, w) :: memSet r a b

/-- Put bytes into memory from an address on. -/
def memPut : List Host.Cell → Nat → Bytes → List Host.Cell
  | m, _, [] => m
  | m, a, b :: r => memPut (memSet m a b) (a + 1) r

/-- `n` bytes from an address on. -/
def memRead (m : List Host.Cell) (a n : Nat) : Bytes := (List.range n).map fun i => memGet m (a + i)

/-- Whether a list of cells is in canonical form. -/
def memWf : List Host.Cell → Bool
  | [] => true
  | [(_, b)] => b != memDefault
  | (a, b) :: (a', b') :: r => b != memDefault && decide (a < a') && memWf ((a', b') :: r)

end Sys2Proof.Machine
end

