-- ==== Sys2Proof/Machine/Flags.lean ====
section
/-! DEFINITION. Events, the Skein log, the metrology event log and the streams they drain into (21 R611 to R613, 19 R544,
R553, 08 R280). -/
namespace Sys2Proof.Machine

/-- Raise event source EV`n`: its bit of EVPEND is set (19 R544, 21 R613). -/
def Dev.raiseEv (d : Dev) (n : Nat) : Dev := d.setBitO 0x2410 (n / 32 % 8 + 1) (n % 32) true

/-- Whether EV`n` is pending. -/
def Dev.evPending (d : Dev) (n : Nat) : Bool := d.bitO 0x2410 (n / 32 % 8 + 1) (n % 32)

/-- Whether the Loom die drives the outputs: the first command frame has gone out and control is reclaimed (09 R290, R302, R305). -/
def Dev.drives (d : Dev) : Bool := d.tick.framed && !d.hold.active

/-- Whether interrupt line `k` is asserted: a pending source is enabled to it by its entry of 0x2608 (19 R544), while the part drives its
outputs. -/
def Dev.irq (d : Dev) (k : Nat) : Bool :=
  d.drives && (List.range 256).any fun s =>
    d.evPending s && (byteAt (d.getB 0x2608 0) s).testBit 7 && byteAt (d.getB 0x2608 0) s % 8 == k

/-- Put a record on stream channel `v`, where the channel is enabled (19 R553, R562). -/
def Dev.stream (d : Dev) (v : Nat) (r : StreamRec) : Dev :=
  if d.get (0x2618 + v) 1 = 1 then
    let c := tget {} d.vcs v
    { d with vcs := tset d.vcs v { c with out := c.out ++ [r] } }
  else d

/-- The slot of a ring of BLOB objects at `base`: 128 sub-indices to an index. -/
def slotIx (base s : Nat) : Nat := base + s / 128
/-- The sub-index of the slot. -/
def slotSub (s : Nat) : Nat := s % 128 + 1

/-- Drain the Skein log: stream each entry from the drain pointer on (21 R612). -/
def drainSkeinGo : Nat → Dev → Dev
  | 0, d => d
  | f + 1, d =>
    let n := max (max d.log.skeinNext (d.get 0x2400 4)) (d.get 0x2400 1 + 1 - 16384)
    if (d.get 0x2400 2).testBit 0 && n ≤ d.get 0x2400 1 then
      let e := d.getB (slotIx 0x2480 (n % 16384)) (slotSub (n % 16384))
      drainSkeinGo f { d.stream 7 ⟨0x70, 0, e⟩ with log := { d.log with skeinNext := n + 1 } }
    else d

/-- Drain the metrology event log (21 R612). -/
def drainEventsGo : Nat → Dev → Dev
  | 0, d => d
  | f + 1, d =>
    let n := max (max d.log.eventNext (d.get 0x2400 5)) (d.get 0x4D40 1 + 1 - 8192)
    if (d.get 0x2400 2).testBit 1 && n ≤ d.get 0x4D40 1 then
      let e := d.getB (slotIx 0x4D00 (n % 8192)) (slotSub (n % 8192))
      drainEventsGo f { d.stream 7 ⟨0x70, 1, e⟩ with log := { d.log with eventNext := n + 1 } }
    else d

/-- What a Skein entry records (21 R611). -/
structure Skein where
  kind : Nat
  ev : Option Nat := none
  role : Nat := 0xFF
  ix : Nat := 0
  sub : Nat := 0
  before : Bytes := []
  after : Bytes := []
deriving DecidableEq, Repr

/-- Write an entry to the Skein log: the next number, its slot, the count of entries overwritten undrained with EV6, and the
drain (21 R611, R612). -/
def Dev.skein (d : Dev) (e : Skein) : Dev :=
  let n := d.get 0x2400 1 + 1
  let flags := b2n e.ev.isSome + 2 * b2n d.log.firstAfterStart
  let bytes := natLE 4 n ++ natLE 8 d.now ++ natLE 1 e.kind ++ natLE 1 flags ++ natLE 1 (e.ev.getD 0) ++ natLE 1 e.role
    ++ natLE 2 e.ix ++ natLE 1 e.sub ++ natLE 1 0 ++ padTo 8 e.before ++ padTo 4 e.after
  let above := decide (16384 < n ∧ d.log.skeinNext ≤ n - 16384)
  let d := d.when above fun d => (d.inc 0x2400 6).raiseEv 6
  let d := (d.setB (slotIx 0x2480 (n % 16384)) (slotSub (n % 16384)) bytes).set 0x2400 1 (n % 2 ^ 32)
  drainSkeinGo 2 { d with log := { d.log with firstAfterStart := false } }

/-- Civil time at the edge of tick `n`: seconds and the fraction in 2^-32 s (07 R233, R234). -/
def Dev.civilAt (d : Dev) (n : Nat) : Nat × Nat :=
  let t := ((n : Int) - d.civil.base) * 1000 + d.civil.slewDone
  let f := (t % 32000000).toNat * 2 ^ 32 / 32000000 + d.civil.frac
  (((t / 32000000) + d.civil.secs).toNat + f / 2 ^ 32, f % 2 ^ 32)

/-- UTC seconds at the edge of tick `n`, 0 where civil time is invalid. -/
def Dev.utcAt (d : Dev) (n : Nat) : Nat := if d.civil.valid then (d.civilAt n).1 else 0

/-- UTC seconds at the present tick, 0 where civil time is invalid. -/
def Dev.utc (d : Dev) : Nat := d.utcAt d.now

/-- One 64-byte entry of the metrology event log in the next slot, for device time `t` (08 R280). -/
def Dev.eventEntry (d : Dev) (t code role cont subject : Nat) (data : Bytes) : Dev :=
  let n := d.get 0x4D40 1 + 1
  let body := natLE 4 n ++ natLE 2 code ++ natLE 1 role ++ natLE 1 cont ++ natLE 8 t ++ natLE 8 (d.utcAt t)
    ++ natLE 4 subject ++ padTo 32 data
  let d := d.when (decide (8192 < n)) fun d => d.inc 0x4D40 3
  let d := (d.setB (slotIx 0x4D00 (n % 8192)) (slotSub (n % 8192)) (body ++ natLE 4 (crc32 body))).set 0x4D40 1 n
  drainEventsGo 2 (d.set 0x4D40 2 (max 1 (n + 1 - 8192)))

/-- A metrology event of tick `t` with a value before and a value after (08 R280). -/
def Dev.eventAt (d : Dev) (t code role subject : Nat) (before after : Bytes) : Dev :=
  d.eventEntry t code role 0 subject (padTo 16 before ++ padTo 16 after)

/-- A metrology event of the present tick. -/
def Dev.event (d : Dev) (code role subject : Nat) (before after : Bytes) : Dev := d.eventAt d.now code role subject before after

/-- The metrology event of a write: its time is the tick in which the write takes effect (06 R198, R206, 07 R234). -/
def Dev.eventEff (d : Dev) (code role subject : Nat) (before after : Bytes) : Dev := d.eventAt d.effTick code role subject before after

/-- Continuation entries of a stream of data. -/
def eventMore : Nat → Nat → Nat → Nat → Nat → Bytes → Dev → Dev
  | 0, _, _, _, _, _, d => d
  | f + 1, t, code, role, subject, data, d =>
    if data = [] then d
    else
      eventMore f t code role subject (data.drop 32)
        (d.eventEntry t code role (2 + b2n (decide (32 < data.length))) subject (data.take 32))

/-- A metrology event of tick `t` with other data: one stream over the entry and its continuations (08 R280). -/
def Dev.eventDataAt (d : Dev) (t code role subject : Nat) (data : Bytes) : Dev :=
  eventMore (data.length / 32 + 1) t code role subject (data.drop 32)
    (d.eventEntry t code role (b2n (decide (32 < data.length))) subject (data.take 32))

/-- A metrology event of the present tick with other data. -/
def Dev.eventData (d : Dev) (code role subject : Nat) (data : Bytes) : Dev := d.eventDataAt d.now code role subject data

/-- The metrology event of a write with other data, at its tick of effect. -/
def Dev.eventDataEff (d : Dev) (code role subject : Nat) (data : Bytes) : Dev := d.eventDataAt d.effTick code role subject data

/-- The subject of an event about an object. -/
def subjObj (ix sub : Nat) : Nat := ix * 65536 + sub * 256

end Sys2Proof.Machine
end

