-- ==== Sys2Proof/Machine/Links.lean ====
section
/-! DEFINITION. The Roving links to the heads: frames, capability sets, states, recovery and their objects (chapter 03). -/
namespace Sys2Proof.Machine

/-- The record of link `l`. -/
def Dev.link (d : Dev) (l : Nat) : LinkRec := tget {} d.links l
/-- The part with the record of link `l` set. -/
def Dev.setLink (d : Dev) (l : Nat) (r : LinkRec) : Dev := { d with links := tset d.links l r }
/-- The object index of link `l` (03 R116). -/
def linkIx (l : Nat) : Nat := 0x2680 + l
/-- The state of link `l` (03 R103): 0 DOWN, 1 ACQUIRE, 2 IDENTIFY, 3 ALIGN, 4 RATE, 5 RUN, 6 RECOVER, 7 DISABLED. -/
def Dev.linkState (d : Dev) (l : Nat) : Nat := d.get (linkIx l) 2

/-- Enter a state of R103 at the present tick; ALIGN measures its delay anew. -/
def Dev.enterLink (d : Dev) (l st : Nat) : Dev :=
  let d := d.set (linkIx l) 2 st
  let r := d.link l
  let r := if st = 3 then { r with trips := [], dAdj := 0 } else r
  d.setLink l { r with since := d.now, noCore := 0, good := 0, everRun := r.everRun || st == 5 }

/-- The head's latest valid core while its link is in RUN; outside RUN its samples are invalid (03 R107). -/
def Dev.headCore (d : Dev) (l : Nat) : Option HeadCore := if d.linkState l = 5 then (d.link l).core else none

/-- A relink: counted, EV12 and a Skein entry (03 R107). -/
def Dev.relink (d : Dev) (l st : Nat) : Dev :=
  let was := d.linkState l
  let d := (d.inc (linkIx l) 8).raiseEv 12
  let d := d.skein { kind := 3, ev := some 12, ix := linkIx l, sub := 2, before := natLE 1 was, after := natLE 1 st }
  let d := d.enterLink l st
  if st = 0 then
    let d := d.set (linkIx l) 3 0
    d.setLink l { d.link l with lineGen := 1, held := none }
  else d

/-- Whether link `l` is a metering link: an enabled element of any meter names one of its channels (03 R106). -/
def Dev.meteringLink (d : Dev) (l : Nat) : Bool :=
  (List.range 36).any fun m => (List.range 4).any fun e =>
    (d.get (0x4000 + 0x40 * m) 2).testBit e &&
      (d.get (0x4001 + 0x40 * m + e) 1 / 8 == l || d.get (0x4001 + 0x40 * m + e) 2 / 8 == l)

/-- The samples of head period `p` are invalid (03 R107). -/
def Dev.badPeriod (d : Dev) (l p : Nat) : Dev :=
  let r := d.link l
  d.setLink l { r with badPeriod := p + 1, core := none }

/-- The device time whose low 32 bits are `w`, nearest below or at `now`. -/
def fullTime (now w : Nat) : Nat :=
  let t := now / 2 ^ 32 * 2 ^ 32 + w
  if t ≤ now then t else t - 2 ^ 32

/-- The 12-bit two's complement sample `i` of a packed field (03 R95). -/
def packed12 (b : Bytes) (i : Nat) : Nat :=
  let g := leAt b (3 * (i / 2)) 3
  if i % 2 = 0 then g % 4096 else g / 4096

/-- The core of an upstream frame whose 299 bytes (offsets 1 to 299) are given (03 R92). -/
def parseCore (now : Nat) (b : Bytes) : HeadCore :=
  { period := fullTime now (leAt b 0 4)
    bits := sliceB b 7 256
    pilot := (List.range 16).map fun i => sval 12 (packed12 (sliceB b 263 24) i)
    prox := leAt b 287 2 % 4096
    status := leAt b 291 4 }

/-- The 12-bit samples of packed bytes (03 R95). -/
def samples12 : Bytes → List Int
  | a :: b :: c :: r => let g := a.toNat + 256 * b.toNat + 65536 * c.toNat; sval 12 g :: sval 12 (g / 4096) :: samples12 r
  | _ => []

/-- The due time of an upstream marker after the tick edge, 0.25 ns (03 R101, R102): 2 500 ns, the turnaround and d. -/
def LinkRec.due (r : LinkRec) : Nat := 10000 + 4 * r.turnaround + (10000 - r.dAdj)

/-- Whether a marker arrives within 8 ns of its due time. -/
def LinkRec.inTime (r : LinkRec) (arrival : Nat) : Bool := decide (arrival ≤ r.due + 32 ∧ r.due ≤ arrival + 32)

/-- Count a marker: the run of markers in time goes on or ends. -/
def LinkRec.marked (r : LinkRec) (arrival : Nat) : LinkRec := { r with good := if r.inTime arrival then r.good + 1 else 0 }

/-- A marker in ALIGN before the delay is known: d is the mean over 16 ticks, and D_adj the rest of 2 500 ns. A delay above 2 000 ns, shown
as 2 000 ns, is measured anew and does not leave the state (03 R102; log entry 94). -/
def measureTrip (l arrival : Nat) (d : Dev) : Dev :=
  let r := d.link l
  let ts := arrival :: r.trips
  if ts.length < 16 then d.setLink l { r with trips := ts }
  else
    let dl := (sumN ts - 64 * r.turnaround) / 32
    (d.set (linkIx l) 5 (min dl 8000)).setLink l { r with trips := [], dAdj := 10000 - (if dl ≤ 8000 then dl else 10000) }

/-- The modem receive samples of a frame: zeros where the section is invalid or later than cycle 20 480 (03 R93, R107). -/
def modemSamples (modemAt : Nat) (b : Bytes) : List Int :=
  if modemAt ≤ 20480 && crc32 (sliceB b 607 4608) == leAt b 5215 4 then samples12 (sliceB b 607 4608) else List.replicate 3072 0

/-- A frame in RUN or RECOVER: copy A, else copy B, else none; the modem section on its own; the answer to the CW4 access of the frame
it answers (03 R93, R99, R107). -/
def takeFrame (l arrival modemAt : Nat) (b : Bytes) (d : Dev) : Dev :=
  let a := sliceB b 1 299
  let c := sliceB b 304 299
  let okA := crc32 a == leAt b 300 4
  let okC := crc32 c == leAt b 603 4
  let d := d.when (!okA || !okC) fun d => d.satInc 32 (linkIx l) 6 (b2n (!okA) + b2n (!okC))
  let was := d.link l
  let late := !was.inTime arrival
  let r : LinkRec := { was.marked arrival with modem := if was.lineGen = 2 then modemSamples modemAt b else [] }
  if okA || okC then
    let z := if okA then a else c
    let h := parseCore d.now z
    let d := d.setLink l { r with core := some h, noCore := 0, cw4Sent := r.cw4Sent.filter fun n => h.period < n }
    let d := d.when (r.cw4Sent.contains h.period) fun d => d.set (linkIx l) 0xC (leAt z 295 4)
    d.when late fun d => (d.badPeriod l h.period).when (d.linkState l == 5) fun d => d.relink l 6
  else
    let d := (d.setLink l { r with noCore := r.noCore + 1 }).inc (linkIx l) 7
    (d.badPeriod l (d.now - 1)).when (d.linkState l == 5 && (late || decide (4 ≤ r.noCore + 1))) fun d => d.relink l 6

/-- UPSTREAM_FRAME (03 R92, R93, R95, R99 to R103, R107): the frame's bytes from K28.1 to K29.7, the arrival of its K28.1 after the tick edge in
0.25 ns, and the cycle in which its modem section is complete. In ALIGN the marker is measured, then judged, and the cores are not looked at, so
that nothing is counted there: the model's choice (log entry 110); in RUN and RECOVER the frame is taken. -/
def upstreamFrame (l arrival modemAt : Nat) (b : Bytes) (d : Dev) : Dev :=
  if !d.ticking then d
  else if d.linkState l = 3 then
    if (d.link l).dAdj = 0 then measureTrip l arrival d else d.setLink l ((d.link l).marked arrival)
  else if d.linkState l = 5 ∨ d.linkState l = 6 then takeFrame l arrival modemAt b d
  else d

def execUpstreamFrame (l : Fin 36) (arrival : Nat × Nat) (frame : Bytes) (s : State) : Out :=
  onDev (upstreamFrame l arrival.1 arrival.2 frame) s

/-- CORE_MISSING (03 R107): no valid core by cycle 12 288; the samples of the period are invalid. -/
def coreMissing (l : Nat) (d : Dev) : Dev :=
  d.when (d.ticking && (d.linkState l == 5 || d.linkState l == 6)) fun d =>
    let d := (d.inc (linkIx l) 7).badPeriod l (d.now - 1)
    let n := (d.link l).noCore + 1
    let r := d.link l
    let d := d.setLink l { r with noCore := n, good := 0, modem := if r.lineGen = 2 then List.replicate 3072 0 else [] }
    d.when (d.linkState l == 5 && decide (4 ≤ n)) fun d => d.relink l 6

def execCoreMissing (l : Fin 36) (s : State) : Out := onDev (coreMissing l) s

/-- LINK_ACQUIRE (03 R103): DOWN to ACQUIRE. -/
def linkAcquire (l : Nat) (d : Dev) : Dev :=
  d.when (d.ticking && d.linkState l == 0 && d.get (linkIx l) 9 == 1) fun d => d.enterLink l 1

def execLinkAcquire (l : Fin 36) (s : State) : Out := onDev (linkAcquire l) s

/-- CHARACTER_ALIGNMENT_HELD (03 R103): held for 64 ticks, ACQUIRE to IDENTIFY. -/
def alignmentHeld (l : Nat) (d : Dev) : Dev :=
  d.when (d.ticking && d.linkState l == 1 && decide ((d.link l).since + 64 ≤ d.now)) fun d => d.enterLink l 2

def execCharacterAlignmentHeld (l : Fin 36) (s : State) : Out := onDev (alignmentHeld l) s

/-- One bit step of CRC-8, polynomial 0x07. -/
def crc8Bit (c : Nat) : Nat := if c.testBit 7 then (c * 2 % 256) ^^^ 7 else c * 2 % 256
/-- `n` bit steps. -/
def crc8Bits : Nat → Nat → Nat
  | 0, c => c
  | n + 1, c => crc8Bits n (crc8Bit c)
/-- CRC-8, polynomial 0x07, initial value 0 (03 R104). -/
def crc8 (b : Bytes) : Nat := b.foldl (fun c x => crc8Bits 8 (c ^^^ x.toNat)) 0

/-- Whether 15 bytes are a valid capability set (03 R104). -/
def capSetOk (b : Bytes) : Bool :=
  b.length == 15 && byteAt b 0 == 0x81 && crc8 (b.take 14) == byteAt b 14 &&
    decide (1 ≤ byteAt b 2 ∧ byteAt b 2 ≤ 8)

/-- The identity of a capability set: vendor, model and serial number as 0x2680+L.04 holds them. -/
def capIdentity (b : Bytes) : Nat := leAt b 5 2 * 2 ^ 48 + leAt b 7 2 * 2 ^ 32 + leAt b 9 4

/-- The highest generation that link `l` offers (03 R104, R105). -/
def Dev.linkOffer (d : Dev) (l : Nat) : Nat := if d.get (linkIx l) 1 = 2 ∧ (d.link l).gen2Failed = false then 2 else 1

/-- The request set of IDENTIFY, from K28.3 (03 R104). -/
def Dev.requestSet (d : Dev) (l : Nat) : Bytes := [0x7C, 0x01] ++ natLE 1 (d.linkOffer l) ++ zeros 13

/-- The rate set of RATE, from K28.3 (03 R104). -/
def Dev.rateSet (d : Dev) (l : Nat) : Bytes := [0x7C, 0x02] ++ natLE 4 (d.link l).switchTick ++ zeros 10

/-- The downstream frame of the tick from K28.1 to K29.7 (03 R91): two copies of device time, format and control words, each with its
CRC-32, and on Gen 2 the modem transmit samples with theirs. -/
def downFrame (now gen : Nat) (cw : List Nat) (modem : Bytes) : Bytes :=
  let core := natLE 4 now ++ natLE 1 (b2n (gen == 2)) ++ zeros 2 ++ cw.flatMap (natLE 4)
  let copy := core ++ natLE 4 (crc32 core)
  [0x3C] ++ copy ++ copy ++ (if gen = 2 then modem ++ natLE 4 (crc32 modem) else []) ++ [0xFD]

/-- Take the head into use: record its identity and go on to ALIGN (03 R103, R106). -/
def Dev.acceptHead (d : Dev) (l ident caps : Nat) : Dev :=
  let d := ((d.set (linkIx l) 4 ident).set (linkIx l) 0xA caps).enterLink l 3
  d.setLink l { d.link l with identity := some ident, held := none }

/-- CAPABILITY_TRAINING_SET (03 R103 to R106): four identical sets of the 15 bytes given. -/
def capabilitySet (l : Nat) (b : Bytes) (d : Dev) : Dev :=
  if d.ticking && d.linkState l == 2 && (d.link l).held == none && capSetOk b then
    let r := d.link l
    let gen := if (byteAt b 1).testBit 1 then d.linkOffer l else 1
    let caps := byteAt b 1 + 256 * byteAt b 2 + 65536 * byteAt b 13
    let ident := capIdentity b
    let d := d.setLink l { r with chosen := if r.lineGen = 2 then 2 else gen, turnaround := leAt b 3 2 }
    match r.identity with
    | some old =>
      if old ≠ ident && d.meteringLink l then
        let d := (d.event 0x0007 0xFF l (natLE 8 old) (natLE 8 ident)).raiseEv 13
        d.setLink l { d.link l with held := some ident, heldCaps := caps }
      else d.acceptHead l ident caps
    | none => d.acceptHead l ident caps
  else d

def execCapabilityTrainingSet (l : Fin 36) (set : Bytes) (s : State) : Out := onDev (capabilitySet l set) s

/-- ALIGN_COMPLETE (03 R103): the upstream marker, now at `arrival`, within 8 ns of its due time for 16 ticks. The rate set goes out from the next tick on and
names a switch tick 8 ticks after it (log entry 94). -/
def alignComplete (l arrival : Nat) (d : Dev) : Dev :=
  d.when (d.ticking && d.linkState l == 3 && (d.link l).inTime arrival && decide (16 ≤ (d.link l).good)) fun d =>
    let r := d.link l
    if r.chosen = 2 && r.lineGen = 1 then
      let d := d.enterLink l 4
      d.setLink l { d.link l with switchTick := d.now + 9 }
    else (d.enterLink l 5).set (linkIx l) 3 r.lineGen

def execAlignComplete (l : Fin 36) (arrival : Nat) (s : State) : Out := onDev (alignComplete l arrival) s

/-- RATE_SWITCH_TICK (03 R103, R104): to ACQUIRE at 5 Gbaud. -/
def rateSwitch (l : Nat) (d : Dev) : Dev :=
  d.when (d.ticking && d.linkState l == 4 && decide ((d.link l).switchTick ≤ d.now)) fun d =>
    let d := d.enterLink l 1
    d.setLink l { d.link l with lineGen := 2, switchTick := d.now }

def execRateSwitchTick (l : Fin 36) (s : State) : Out := onDev (rateSwitch l) s

/-- GEN2_ACQUISITION_TIMEOUT (03 R105, R107): not in ALIGN 64 ticks after the switch; DOWN at 1.25 Gbaud, and only Gen 1 is
offered. -/
def gen2Timeout (l : Nat) (d : Dev) : Dev :=
  d.when (d.ticking && (d.link l).lineGen == 2 && (d.linkState l == 1 || d.linkState l == 2)
      && decide ((d.link l).switchTick + 64 ≤ d.now)) fun d =>
    let d := d.relink l 0
    d.setLink l { d.link l with gen2Failed := true, chosen := 1 }

def execGen2AcquisitionTimeout (l : Fin 36) (s : State) : Out := onDev (gen2Timeout l) s

/-- FOUR_FRAMES_WITHOUT_CORE (03 R107): RUN to RECOVER. -/
def fourFrames (l : Nat) (d : Dev) : Dev :=
  d.when (d.ticking && d.linkState l == 5 && decide (3 ≤ (d.link l).noCore)) fun d =>
    ((d.inc (linkIx l) 7).badPeriod l (d.now - 1)).relink l 6

def execFourFramesWithoutCore (l : Fin 36) (s : State) : Out := onDev (fourFrames l) s

/-- MARKER_OUT_OF_TIME (03 R107): RUN to RECOVER, the samples of that frame invalid. -/
def markerOut (l : Nat) (d : Dev) : Dev :=
  d.when (d.ticking && d.linkState l == 5) fun d => (d.badPeriod l (d.now - 1)).relink l 6

def execMarkerOutOfTime (l : Fin 36) (s : State) : Out := onDev (markerOut l) s

/-- ALIGNMENT_LOST (03 R107): character alignment lost for 64 ticks; to DOWN from every state in which it is held. -/
def alignmentLost (l : Nat) (d : Dev) : Dev :=
  d.when (d.ticking && decide (1 ≤ d.linkState l ∧ d.linkState l ≤ 6)) fun d => (d.badPeriod l (d.now - 1)).relink l 0

def execAlignmentLost (l : Fin 36) (s : State) : Out := onDev (alignmentLost l) s

/-- RECOVER_SUCCESS (03 R103): 16 ticks within 8 ns. -/
def recoverSuccess (l : Nat) (d : Dev) : Dev :=
  d.when (d.ticking && d.linkState l == 6 && decide (16 ≤ (d.link l).good)) fun d => d.enterLink l 5

def execRecoverSuccess (l : Fin 36) (s : State) : Out := onDev (recoverSuccess l) s

/-- RECOVER_TIMEOUT (03 R103, R107): 48 ticks in RECOVER without success. -/
def recoverTimeout (l : Nat) (d : Dev) : Dev :=
  d.when (d.ticking && d.linkState l == 6 && decide ((d.link l).since + 48 ≤ d.now)) fun d => d.relink l 0

def execRecoverTimeout (l : Fin 36) (s : State) : Out := onDev (recoverTimeout l) s

/-! ## Writes -/

/-- The effect of a write of 0 to 0x2680+L.09 (03 R109). -/
def effLinkDisable (l : Nat) (d : Dev) : Dev :=
  let d := (d.set (linkIx l) 9 0).badPeriod l d.now
  let d := (d.enterLink l 7).set (linkIx l) 3 0
  d.setLink l { d.link l with held := none }

/-- The effect of a write of 1 to 0x2680+L.09 (03 R103, R105, R107): a disabled link goes to DOWN, which is no relink. -/
def effLinkEnable (l : Nat) (d : Dev) : Dev :=
  let d := d.set (linkIx l) 9 1
  let d := d.setLink l { d.link l with gen2Failed := false }
  d.when (d.linkState l == 7) fun d =>
    let d := d.enterLink l 0
    d.setLink l { d.link l with lineGen := 1, held := none }

/-- The refusals of a write to 0x2680+L (03 R106, R109). -/
def linkRules (d : Dev) (l sub v : Nat) : Rules :=
  if sub = 9 && v = 0 then { atLife := if d.isSealed && d.meteringLink l then 4 else 0 }
  else if sub = 0xB && v = 1 then { atLife := if d.inService then 0 else 4 }
  else if sub = 0xC then { atRange := if field v 30 2 = 3 then 8 else 0 }
  else {}

/-- End the hold of R106 in IDENTIFY: the new head is recorded and its start goes on. -/
def effAcceptHead (l : Nat) (d : Dev) : Dev :=
  match d.linkState l, (d.link l).held with
  | 2, some ident => d.acceptHead l ident (d.link l).heldCaps
  | _, _ => d

/-- The effect of a write to 0x2680+L (03 R116). -/
def effLink (l sub v : Nat) (d : Dev) : Dev :=
  if sub = 9 then (if v = 0 then effLinkDisable l d else effLinkEnable l d)
  else if sub = 0xB then (if v = 1 then effAcceptHead l d else d)
  else if sub = 0xC then d.setLink l { d.link l with cw4 := v }
  else
    let d := d.set (linkIx l) sub v
    d.setLink l { d.link l with gen2Failed := false }

/-- A write to 0x2680+L.sub. -/
def writeLink (role : Role) (l sub v : Nat) (d : Dev) : Dev :=
  writeObj role (linkIx l) sub (.num v) (linkRules d l sub v) (effLink l sub v) d

def execLinkDisable (role : Role) (l : Fin 36) (s : State) : Out := onDev (writeLink role l 9 0) s
def execLinkEnable (role : Role) (l : Fin 36) (s : State) : Out := onDev (writeLink role l 9 1) s
def execAcceptNewHead (role : Role) (l : Fin 36) (v : Nat) (s : State) : Out := onDev (writeLink role l 0xB v) s
def execHeadRegisterAccess (role : Role) (l : Fin 36) (v : Nat) (s : State) : Out := onDev (writeLink role l 0xC v) s

end Sys2Proof.Machine
end

