-- ==== Sys2Proof/Machine/Filter.lean ====
section
/-! DEFINITION. The filter and decimation chain, the lock groups and the cycle-locked stream, and the objects of channels,
profiles and lock groups (chapter 04). -/
namespace Sys2Proof.Machine

/-- The filter record of channel `c`. -/
def Dev.chan (d : Dev) (c : Nat) : ChanRec := tget {} d.chans c
/-- The part with the filter record of channel `c` set. -/
def Dev.setChan (d : Dev) (c : Nat) (r : ChanRec) : Dev := { d with chans := tset d.chans c r }
/-- The record of lock group `g`. -/
def Dev.lock (d : Dev) (g : Nat) : LockRec := tget {} d.locks g
/-- The part with the record of lock group `g` set. -/
def Dev.setLock (d : Dev) (g : Nat) (r : LockRec) : Dev := { d with locks := tset d.locks g r }

/-! ## The stages (04 R121 to R127, R140, R141) -/

/-- The modulator values of bytes oldest first, as a list newest first: a bit of 1 is +1, a bit of 0 is -1 (04 R122). -/
def bitVals (b : Bytes) : List Int :=
  (b.flatMap fun x => (List.range 8).map fun i => if x.getLsbD i then (1 : Int) else -1).reverse

/-- The sum of products of taps and inputs, the newest input first. -/
def fir (taps xs : List Int) : Int := sumI (List.zipWith (· * ·) taps xs)

/-- The accumulator rounded to Q2.30 and saturated, and whether it saturated (04 R126, R127). -/
def toQ230 (acc : Int) (s : Nat) : Int × Bool :=
  let q := rdiv acc (2 ^ s)
  (satS 32 q, ovfS 32 q)

/-- The coefficients of bank `b` of stage `s` of profile `p` (04 R130, R131). -/
def Dev.bank (d : Dev) (p s b : Nat) : List Int :=
  let x := d.getB (0x3400 + p * 16 + s * 2 + b) 0
  (List.range (x.length / 4)).map fun t => sval 32 (leAt x (4 * t) 4)

/-- One value into a history of `n`. -/
def push {α : Type} (n : Nat) (x : α) (h : List α) : List α := (x :: h).take n

/-- The coil coefficient of a corner frequency in mHz (04 R141). -/
def coilCoef (f : Nat) : Int := 2 ^ 30 - rdiv (2 * piNum * f * 2 ^ 30) (piDen * 32000000)

/-- The coil stage (04 R140): the record with its states moved on, the output and whether it saturated. -/
def coilStage (r : ChanRec) (x : Int) : ChanRec × Int × Bool :=
  let b := coilCoef r.cfg.dcCorner
  let a := coilCoef r.cfg.leakCorner
  let x := x * 1024
  let d := x - r.coilX + rdiv (b * r.coilD) (2 ^ 30)
  let ds := satS 64 d
  let y := rdiv (a * r.coilY) (2 ^ 30) + ds + r.coilD
  let ys := satS 64 y
  let z := toQ230 (ys * r.cfg.coilG) 48
  ({ r with coilX := x, coilD := ds, coilY := ys }, z.1, z.2 || ovfS 64 d || ovfS 64 y)

/-- The eight CIC outputs of a head period, oldest first, shifted left by 5 to Q2.30 (04 R122, R123). -/
def cicOutputs (hist bits : Bytes) : List Int :=
  let v := bitVals (hist ++ bits)
  let h := sinc5 32
  (List.range 8).map fun j => 32 * fir h ((v.drop (224 - 32 * j)).take 156)

/-- One CIC output through CMP, HB1 and HB2; `j` is its number in the period. -/
def decimate (cmp hb1 hb2 : List Int) (r : ChanRec) (sat : Bool) (out : Option Int) (j : Nat) (y : Int) :
    ChanRec × Bool × Option Int :=
  let r := { r with cmpIn := push 32 y r.cmpIn }
  if j % 2 = 1 then
    let c := toQ230 (fir cmp r.cmpIn) 30
    let r := { r with hb1In := push 11 c.1 r.hb1In }
    if j % 4 = 3 then
      let e := toQ230 (fir hb1 r.hb1In) 30
      let r := { r with hb2In := push 79 e.1 r.hb2In }
      if j % 8 = 7 then
        let f := toQ230 (fir hb2 r.hb2In) 30
        (r, sat || c.2 || e.2 || f.2, some f.1)
      else (r, sat || c.2 || e.2, out)
    else (r, sat || c.2, out)
  else (r, sat, out)

/-- The main path of one head period (04 R121): the record moved on, the main-path sample and whether a rounding point
saturated. -/
def mainPath (cmp hb1 hb2 : List Int) (r : ChanRec) (bits : Bytes) : ChanRec × Int × Bool :=
  let ys := cicOutputs r.hist bits
  let (r, sat, out) := (List.range 8).foldl
    (fun (a : ChanRec × Bool × Option Int) j => decimate cmp hb1 hb2 a.1 a.2.1 a.2.2 j (ys.getD j 0)) (r, false, none)
  let x := out.getD 0
  let (r, x, sat) := if r.cfg.ty = 3 then (let z := coilStage r x; (z.1, z.2.1, sat || z.2.2)) else (r, x, sat)
  let r := { r with phsIn := push 12 x r.phsIn }
  let p := toQ230 (fir ((List.range 12).map fun t => phaseTap r.cfg.tau t) r.phsIn) 30
  ({ r with hist := (r.hist ++ bits).drop (r.hist.length + bits.length - 20) }, p.1, sat || p.2)

/-- Least `b` with `n ≤ 2^b`. -/
def ceilLog2 (n : Nat) : Nat := if n ≤ 1 then 0 else Nat.log2 (n - 1) + 1

/-- The mode-2 output of the window ending now (04 R149). -/
def convOutput (ratio : Nat) (bytes : Bytes) : Int × Bool :=
  let y := fir (sinc5 ratio) (bitVals bytes)
  let b := ceilLog2 (ratio ^ 5)
  if b ≤ 30 then (y * 2 ^ (30 - b), false) else toQ230 y (b - 30)

/-- A channel's configuration as its objects give it (04 R156; phase constant and coil constant of 06 R197). -/
def Dev.chanCfg (d : Dev) (c : Nat) : ChanCfg :=
  let ix := 0x3000 + c
  { mode := d.get ix 1, ty := d.get ix 2, ratio := d.get ix 3, profile := d.get ix 4, period := d.get ix 5,
    group := d.get ix 6, dcCorner := d.get ix 7, leakCorner := d.get ix 8,
    tau := d.getS 16 (0x3600 + c) 3, coilG := d.getS 32 (0x3600 + c) 4 }

/-- The bits of channel `c` for head period `m`, none where they are invalid (03 R107, R100; 04 R152). -/
def Dev.chanBits (d : Dev) (c m : Nat) : Option Bytes :=
  let l := d.link (c / 8)
  match l.core with
  | some h =>
    if d.linkState (c / 8) = 5 && h.period = m && l.badPeriod ≠ m + 1 && !h.status.testBit (c % 8) && !h.status.testBit 8
    then some (sliceB h.bits (32 * (c % 8)) 32) else none
  | none => none

/-- The tick of the first sample that is not marked settling after a change to `g` at tick `n` (04 R153). -/
def settleEnd (g : ChanCfg) (n : Nat) : Nat :=
  if g.mode = 1 then n + 57
  else if g.mode = 2 then
    let w := 256 * max 1 g.period
    ((n - 1) * 256 + (5 * g.ratio - 4) + w - 1) / w * max 1 g.period + 1
  else 2 ^ 64

/-- Hand over the samples of tick `d.now` of channel `c` (04 R124, R149, R152); a change that takes effect in the tick abandons its mode-2
conversion (R153). In modes 0 and 2 0x3000+c.0C keeps the latest output of mode 1: the model's choice (log entry 111). -/
def handover (c : Nat) (d : Dev) : Dev :=
  let n := d.now
  let m := n - 2
  let r := d.chan c
  let bits := d.chanBits c m
  let sub := bits.isNone
  let lk := d.link (c / 8)
  let d := d.when (sub && r.cfg.mode != 0 && lk.everRun && d.linkState (c / 8) != 7) fun d => d.inc (0x3000 + c) 0xB
  let b := bits.getD (List.replicate 32 0x55#8)
  let r := if sub then { r with subPeriod := m + 1, invUntil := n + 57 } else r
  let p := r.cfg.profile
  let used := (tget {} d.profs p).used
  let bk := fun s => d.bank p s (b2n (used.testBit s))
  let inv := decide (n < r.invUntil)
  let set := decide (n < r.settleUntil)
  let (r, w) : ChanRec × HWord :=
    if r.cfg.mode = 1 then
      let z := mainPath (bk 0) (bk 1) (bk 2) r b
      (z.1, { data := z.2.1, invalid := inv || set, saturated := z.2.2, settling := set })
    else (r, { settling := set })
  let (r, cv) : ChanRec × Option HWord :=
    if r.cfg.mode = 2 then
      let per := max 1 r.cfg.period
      let r := { r with hist := (r.hist ++ b).drop ((r.hist ++ b).length - 32 * per) }
      if (m + 1) % per = 0 && !r.changed then
        let k := (m + 1) / per - 1
        let first := (m + 1) * 256 - (5 * r.cfg.ratio - 4)
        let z := convOutput r.cfg.ratio r.hist
        let inv := decide (first / 256 < r.subPeriod)
        let set := decide (first < r.firstPeriod * 256)
        (r, some { data := z.1, invalid := inv || set, saturated := z.2, settling := set, number := k })
      else (r, none)
    else (r, none)
  let r := { r with main := push 34 w r.main, conv := cv, locked := none }
  let d := d.when (r.cfg.mode == 1) fun d => d.setS 32 (0x3000 + c) 0xC w.data
  let d := match cv with
    | some v =>
      let first := (m + 1) * 256 - (5 * r.cfg.ratio - 4)
      let d := (d.setS 32 (0x3000 + c) 0xD v.data).set (0x3000 + c) 0xE v.number
      (d.setBitO (0x3000 + c) 9 9 v.saturated).setBitO (0x3000 + c) 9 10 (decide (first / 256 < r.subPeriod))
    | none => d
  d.setChan c r

/-- After H1 and H2 of tick `d.now`, channel `c`: a change discards all filter state, so that head period `n - 1` is the first one processed under the
new configuration (04 R153); a new tau or coil constant holds from the next output on (04 R139). -/
def takeConfig (c : Nat) (d : Dev) : Dev :=
  let n := d.now
  let r := d.chan c
  let new := d.chanCfg c
  d.setChan c (if r.changed then
      { ({} : ChanRec) with cfg := new, main := r.main, conv := r.conv, settleUntil := settleEnd new n, firstPeriod := n - 1,
                            invUntil := r.invUntil, subPeriod := r.subPeriod, satMain := r.satMain, satLocked := r.satLocked, satConv := r.satConv }
    else { r with cfg := { r.cfg with tau := new.tau, coilG := new.coilG } })

/-- The configuration that the filter unit of channel `c` starts under, with the status that shows it (04 R156, R157). -/
def startChan (c : Nat) (d : Dev) : Dev :=
  let g := d.chanCfg c
  (d.setChan c { d.chan c with cfg := g }).set (0x3000 + c) 9 (g.mode % 4 + 4 * (g.ty % 8) + 32 * (g.profile % 4))

/-! ## Lock groups (04 R144 to R148) -/

/-- One sample in units of 2^-36 sample. -/
def lkOne : Nat := 2 ^ 36

/-- Crossing detection on main-path sample `i` of the reference (04 R145). -/
def detect (g : LockRec) (i : Nat) (cur prev : HWord) : LockRec :=
  if cur.invalid then { g with armed := false }
  else
    let g := if cur.data < -0x1000000 then { g with armed := true } else g
    if g.armed && !prev.invalid && decide (prev.data < 0 ∧ 0 ≤ cur.data) then
      let f := rdiv (prev.data * 65536) (prev.data - cur.data).natAbs
      let c := ((i - 1) * 65536 + (-f).toNat) * 2 ^ 20
      let g := { g with armed := false }
      match g.prev with
      | some q =>
        let per := c - q
        if 32000 * lkOne ≤ 72 * per && 40 * per ≤ 32000 * lkOne then
          { g with periods := push 8 per g.periods, counted := some c, prev := some c }
        else { g with prev := some c }
      | none => { g with prev := some c }
    else g

/-- The mean of the periods in the list, none where it is empty. -/
def LockRec.est (g : LockRec) : Option Nat :=
  if g.periods = [] then none else some (sumN g.periods / g.periods.length)

/-- The nominal period of a group: 640 samples at 50 Hz, 533.333 at 60 Hz (04 R146, log entry 17). -/
def nominalPeriod (f : Nat) : Nat := if f = 0 then 640 * lkOne else 32000 * lkOne / 60

/-- Whether the list holds 8 periods, each within 0.5 % of their mean. -/
def LockRec.steady (g : LockRec) : Bool :=
  g.periods.length == 8 &&
    g.periods.all fun p => decide (200 * (8 * p) ≤ 201 * sumN g.periods ∧ 199 * sumN g.periods ≤ 200 * (8 * p))

/-- The length of the cycle about to begin at `g.p0`, the misses and the state after (04 R146). -/
def cycleStart (g : LockRec) (st nominal : Nat) : LockRec × Nat :=
  let t := g.est.getD (nominalPeriod nominal)
  if st = 0 || st = 1 then ({ g with len := nominalPeriod nominal }, st)
  else
    match g.counted with
    | some c =>
      if g.p0 ≤ c + 8 * lkOne && c ≤ g.p0 + 8 * lkOne then
        let l : Int := (t : Int) - ((g.p0 : Int) - c) / 2
        ({ g with len := (clampI (t - t / 128 : Int) (t + t / 128 : Int) l).toNat, misses := 0 }, 2)
      else ({ g with len := t, misses := g.misses + 1 }, if g.misses + 1 = 4 then 1 else 3)
    | none => ({ g with len := t, misses := g.misses + 1 }, if g.misses + 1 = 4 then 1 else 3)

/-- The part with the lock state of a group set: EV20 at each change, and a loss counted at locked or flywheel to acquiring. -/
def Dev.setLockState (d : Dev) (g st : Nat) : Dev :=
  let old := d.get (0x34C0 + g) 3
  if old = st then d
  else
    let d := (d.set (0x34C0 + g) 3 st).raiseEv 20
    d.when (decide (2 ≤ old) && st == 1) fun d => d.inc (0x34C0 + g) 6

/-- The cycle-locked sample of a channel at phase fraction `f` (2^-36), from its latest 33 main-path samples (04 R148). -/
def resample (bank : List Int) (main : List HWord) (f : Nat) : Int × Bool × Bool :=
  let ph := f * 64 / lkOne
  let w : Int := (f * 65536 / lkOne % 1024 : Nat)
  let x := fun i => (main.getD i {}).data
  let c := fun p t => bank.getD (32 * p + t) 0
  let ts := List.range 32
  let v0 := sumI (ts.map fun t => c ph t * x (32 - t))
  let v1 := if ph < 63 then sumI (ts.map fun t => c (ph + 1) t * x (32 - t)) else sumI (ts.map fun t => c 0 t * x (31 - t))
  let z := toQ230 (v0 * (1024 - w) + v1 * w) 40
  (z.1, z.2, main.any fun h => h.invalid)

/-- Hand a cycle-locked sample over to every mode-1 channel of the group, `late` ticks after its own; a change that takes effect in the tick
abandons it (04 R153). -/
def lockedSamples (g k number st f late : Nat) (d : Dev) : Dev :=
  each 288 (fun c d =>
    let r := d.chan c
    if r.cfg.mode = 1 && r.cfg.group = g && !r.changed then
      let used := (tget {} d.profs r.cfg.profile).used
      let x := (r.main.drop late).take 33
      let z := resample (d.bank r.cfg.profile 3 (b2n (used.testBit 3))) x f
      let w : HWord := { data := z.1, invalid := z.2.2 || decide (x.length < 33), saturated := z.2.1, settling := x.any HWord.settling,
                         unlocked := decide (st < 2), flywheel := st == 3, index := k, number := number % 65536 }
      d.setChan c { r with locked := some w }
    else d) d

/-- The sample of the group's cycle due in this tick, if any (04 R146). Where a lock begins less than a sample after sample 255, sample 0 is due
in the tick of sample 255, and follows one tick later, because no tick carries two: the model's choice (log entry 111). -/
def cycleSample (g : Nat) (d : Dev) : Dev :=
  let r := d.lock g
  let n := d.now
  let st := d.get (0x34C0 + g) 3
  if !r.laid then d
  else
    let q := r.p0 + r.k * r.len / 256
    if q / lkOne + 17 ≤ n then
      let (r, st', d) := if r.k = 0 then
          (let z := cycleStart r st (d.get (0x34C0 + g) 2)
           (z.1, z.2, (d.setLockState g z.2).incWrap (0x34C0 + g) 5))
        else (r, st, d)
      let late := n - (q / lkOne + 17)
      let d := if late ≤ 1 then lockedSamples g r.k (d.get (0x34C0 + g) 5) st' (q % lkOne) late d else d
      let r := { r with sample := if late ≤ 1 then some r.k else none }
      let r := if r.k < 255 then { r with k := r.k + 1 }
        else if st' = 1 && r.steady && (match r.counted with | some c => decide (r.p0 ≤ c) | none => false) then
          { r with laid := false, waitFrom := q, waitUntil := some (q + r.len) }
        else { r with p0 := r.p0 + r.len, k := 0 }
      d.setLock g r
    else d

/-- One tick of a lock group (04 R145, R146). The first cycle after a start begins at the number of its first tick; .04 is rounded down to
whole µHz and shows the nominal frequency while there is no period: the model's choices (log entry 111). -/
def lockTick (g : Nat) (d : Dev) : Dev :=
  let ref := d.chan (d.get (0x34C0 + g) 1)
  let cur := ref.main.headD {}
  let prev := (ref.main.drop 1).headD {}
  let n := d.now
  let r := { detect (d.lock g) n cur prev with sample := none }
  let st := d.get (0x34C0 + g) 3
  let d := d.when (st == 0 && !cur.invalid) fun d => d.setLockState g 1
  let (r, locks) : LockRec × Bool := if r.laid then (r, false)
    else match r.waitUntil with
      | none => ({ r with laid := true, p0 := n * lkOne, k := 0 }, false)
      | some u =>
        let c := r.counted.getD 0
        if r.waitFrom < c && c ≤ u then ({ r with laid := true, p0 := c, k := 0, waitUntil := none, misses := 0 }, true)
        else if u / lkOne + 17 ≤ n then ({ r with laid := true, p0 := u, k := 0, waitUntil := none }, false)
        else (r, false)
  let d := (d.when (locks && d.get (0x34C0 + g) 3 == 1) fun d => d.setLockState g 2).setLock g r
  let d := cycleSample g d
  let hz := match (d.lock g).est with
    | some t => if d.get (0x34C0 + g) 3 = 0 then (if d.get (0x34C0 + g) 2 = 0 then 50000000 else 60000000)
                else 32000000000 * lkOne / max t 1
    | none => if d.get (0x34C0 + g) 2 = 0 then 50000000 else 60000000
  d.set (0x34C0 + g) 4 hz

/-- The channel status of 04 R157; bits 9 and 10 speak of the main-path sample in mode 1 and of the latest conversion in mode 2: the model's choice
(log entry 111). -/
def chanStatus (c : Nat) (d : Dev) : Dev :=
  let r := d.chan c
  let ix := 0x3000 + c
  let w := r.main.headD {}
  let lockd := decide (d.get ix 6 < 4) && d.get (0x34C0 + d.get ix 6) 3 == 2
  d.set ix 9 (d.get ix 1 % 4 + 4 * (d.get ix 2 % 8) + 32 * (d.get ix 4 % 4)
    + 256 * b2n (decide (d.now < r.settleUntil)) + 512 * b2n (if r.cfg.mode = 2 then d.bitO ix 9 9 else w.saturated)
    + 1024 * b2n (if r.cfg.mode = 2 then d.bitO ix 9 10 else decide (d.now < r.invUntil)) + 2048 * b2n lockd)

/-- SAMPLE_HANDOVER in H1 (04 R124): every channel, then the lock groups, then the banks in use follow the active banks. -/
def sampleHandover (d : Dev) : Dev :=
  let d := each 288 handover d
  let d := each 4 lockTick d
  let d := each 288 chanStatus d
  each 4 (fun p d => { d with profs := tset d.profs p { used := d.get (0x3480 + p) 1 } }) d

/-! ## Writes -/

/-- CAPTURE_ABORT (06 R209): a change that takes effect after the capture's first tick ends it with status 3 and zeroes the
results. -/
def captureAbort (c : Nat) (d : Dev) : Dev :=
  let k := tget {} d.cals c
  d.when (d.get (0x3600 + c) 0xE % 4 == 1 && decide (k.cap.start < d.effTick ∧ d.effTick < k.cap.start + k.cap.len)) fun d =>
    let d := d.set (0x3600 + c) 0xE (setField (d.get (0x3600 + c) 0xE) 0 2 3)
    { d.setB (0x3600 + c) 0xF (zeros 64) with cals := tset d.cals c { k with cap := {} } }

/-- The meter base index of meter `m` (05 R192). -/
def meterIx (m : Nat) : Nat := 0x4000 + 0x40 * m

/-- Whether every meter is valid (05 R163). -/
def metersOk (d : Dev) : Bool :=
  let els := (List.range 36).flatMap fun m =>
    ((List.range 4).filter fun e => (d.get (meterIx m) 2).testBit e).map fun e => (m, e)
  let cur := els.map fun x => d.get (meterIx x.1 + 1 + x.2) 2
  (els.all fun x =>
    let v := d.get (meterIx x.1 + 1 + x.2) 1
    let i := d.get (meterIx x.1 + 1 + x.2) 2
    decide (v < 288 ∧ i < 288) && d.get (0x3000 + v) 2 == 0 && d.get (0x3000 + v) 1 == 1
      && decide (1 ≤ d.get (0x3000 + i) 2 ∧ d.get (0x3000 + i) 2 ≤ 3) && d.get (0x3000 + i) 1 == 1) &&
  (cur.all fun i => cur.countP (fun j => j == i) == 1) &&
  ((List.range 36).all fun m => d.get (meterIx m) 1 != 1 || (d.get (meterIx m) 2).testBit (d.get (meterIx m) 3))

/-- Whether every temperature source is a channel of type 5 with no source of its own (06 R199). -/
def sourcesOk (d : Dev) : Bool :=
  (List.range 288).all fun c =>
    let x := d.get (0x3600 + c) 5
    x == 0xFFFF || (decide (x < 288) && d.get (0x3000 + x) 2 == 5 && d.get (0x3600 + x) 5 == 0xFFFF)

/-- Whether channel `c` is one of the 288 and of type `t`. -/
def Dev.chanIs (d : Dev) (t c : Nat) : Bool := decide (c < 288) && d.get (0x3000 + c) 2 == t

/-- Whether the residual channel of every outlet in mode 1 is a mode-1 channel of type 4 (11 R354). -/
def residualOk (d : Dev) : Bool :=
  (List.range 32).all fun o =>
    let c := d.get (0x6000 + o) 2
    d.get (0x6000 + o) 3 != 1 || (d.chanIs 4 c && d.get (0x3000 + c) 1 == 1)

/-- Whether a channel's configuration meets 04 R120. -/
def chanCfgOk (mode ratio period : Nat) : Bool :=
  match mode with
  | 1 => ratio == 32
  | 2 => decide (4 ≤ ratio ∧ ratio ≤ 4096 ∧ 1 ≤ period ∧ period ≤ 256 ∧ 5 * ratio ≤ 256 * period + 4)
  | _ => true

/-- The refusals of a write to 0x3000+c, judged on the values `aft` holds (04 R119, R120; 05 R163; 06 R199; 11
R354). -/
def chanRules (aft : Dev) (c : Nat) : Rules :=
  let ix := 0x3000 + c
  let ref := (List.range 4).any fun g => aft.get (0x34C0 + g) 1 == c
  { atRange := if chanCfgOk (aft.get ix 1) (aft.get ix 3) (aft.get ix 5) && (!ref || aft.get ix 1 == 1)
                  && metersOk aft && sourcesOk aft && residualOk aft then 0 else 8 }

/-- The effect of a write to 0x3000+c.01 to .08 (04 R119, R153): the metrology event, the value, the discard of filter state
and the end of a capture. -/
def effChan (role : Role) (c sub v : Nat) (d : Dev) : Dev :=
  let ix := 0x3000 + c
  let d := d.eventEff 0x0002 (roleCode role) (subjObj ix sub) (natLE 2 (d.get ix sub)) (natLE 2 v)
  let d := d.set ix sub v
  let d := d.setChan c { d.chan c with changed := true }
  captureAbort c d

def execChannelConfigurationWritten (role : Role) (c : Fin 288) (sub v : Nat) (s : State) : Out :=
  onDev (fun d => writeObj role (0x3000 + c) sub (.num v) (chanRules (d.set (0x3000 + c) sub v) c) (effChan role c sub v) d) s

/-- Taps of a half-band bank at an even, non-zero distance from the centre must be 0 (04 R131). -/
def halfBandOk (s : Nat) (b : Bytes) : Bool :=
  let ctr := if s = 1 then 5 else 39
  if s = 1 || s = 2 then
    (List.range (b.length / 4)).all fun t =>
      let dist := if t < ctr then ctr - t else t - ctr
      dist % 2 != 0 || dist == 0 || leAt b (4 * t) 4 == 0
  else true

/-- The refusals of a bank write (04 R131). -/
def bankRules (d : Dev) (p s b : Nat) (v : Bytes) (segmented : Bool) : Rules :=
  { atDir := if (d.get (0x3480 + p) 1).testBit s == (b == 1) then 5 else 0
    atLen := if s = 3 && !segmented then 0xF else 0
    atRange := if halfBandOk s v then 0 else 8 }

/-- The effect of a bank write: the bank and its CRC, with the metrology event (04 R131, R158). -/
def effBank (role : Role) (p s b : Nat) (v : Bytes) (d : Dev) : Dev :=
  let ix := 0x3400 + p * 16 + s * 2 + b
  let d := d.eventEff 0x0003 (roleCode role) (subjObj ix 0) (natLE 4 (crc32 (d.getB ix 0))) (natLE 4 (crc32 v))
  (d.setB ix 0 v).set (0x3480 + p) (3 + 2 * s + b) (crc32 v)

def execFilterBankWritten (role : Role) (p : Fin 4) (stage : Fin 4) (bank : Fin 2) (v : Bytes) (s : State) : Out :=
  onDev (fun d => writeObj role (0x3400 + p * 16 + stage * 2 + bank) 0 (.raw v) (bankRules d p stage bank v true)
    (effBank role p stage bank v) d) s

/-- The refusals of a swap request (04 R135). The layout names no use of bits 7:4 of byte 0: they are refused when set, the model's choice (log
entry 100). -/
def swapRules (d : Dev) (p : Nat) (v : Bytes) : Rules :=
  let m := byteAt v 0
  let ok := (List.range 4).all fun s => !m.testBit s ||
    crc32 (d.getB (0x3400 + p * 16 + s * 2 + (1 - b2n ((d.get (0x3480 + p) 1).testBit s))) 0) == leAt v (4 + 4 * s) 4
  { atLife := if d.inService then 0 else 4, atRange := if m < 16 && allZero (sliceB v 1 3) && ok then 0 else 8 }

/-- The effect of a bank swap at tick T (04 R137). -/
def effSwap (role : Role) (p : Nat) (v : Bytes) (d : Dev) : Dev :=
  let ix := 0x3480 + p
  let m := byteAt v 0 % 16
  let d := d.set ix 1 ((d.get ix 1) ^^^ m)
  let crcs := (List.range 4).flatMap fun s => if m.testBit s then sliceB v (4 + 4 * s) 4 else zeros 4
  let d := d.eventDataEff 0x0004 (roleCode role) (subjObj ix 2) (natLE 4 m ++ crcs)
  ((d.inc ix 0xB).set ix 0xC d.effTick).raiseEv 22

def execBankSwap (role : Role) (p : Fin 4) (v : Bytes) (s : State) : Out :=
  onDev (fun d => writeObj role (0x3480 + p) 2 (.raw v) (swapRules d p v) (effSwap role p v) d) s

/-- Load the defaults into the inactive bank of each stage named (04 R132). -/
def effDefaults (role : Role) (p m : Nat) (d : Dev) : Dev :=
  eachN (bitsOf 4 m) (fun s d =>
    let b := 1 - b2n ((d.get (0x3480 + p) 1).testBit s)
    effBank role p s b (blobDefault (0x3400 + p * 16 + s * 2 + b) 0) d) d

def execLoadDefaults (role : Role) (p : Fin 4) (v : Nat) (s : State) : Out :=
  onDev (fun d => writeObj role (0x3480 + p) 0xD (.num v) { atLife := if d.inService then 0 else 4 } (effDefaults role p v) d) s

/-- The refusals of a write to a lock group (04 R120): the reference channel must be in mode 1. -/
def lockRules (d : Dev) (sub v : Nat) : Rules :=
  { atRange := if sub = 1 && d.get (0x3000 + v) 1 != 1 then 8 else 0 }

/-- The effect of a write to a lock group (04 R119, R147); one of .01 that names the channel in force counts as a change of it: the model's choice (log
entry 111). -/
def effLock (role : Role) (g sub v : Nat) (d : Dev) : Dev :=
  let ix := 0x34C0 + g
  let d := d.eventEff 0x0002 (roleCode role) (subjObj ix sub) (natLE 2 (d.get ix sub)) (natLE 2 v)
  let d := (d.set ix sub v).setLockState g 1
  if sub = 1 then d.setLock g { d.lock g with armed := false, prev := none, periods := [], counted := none } else d

def execLockGroupWrite (role : Role) (g : Fin 4) (sub v : Nat) (s : State) : Out :=
  onDev (fun d => writeObj role (0x34C0 + g) sub (.num v) (lockRules d sub v) (effLock role g sub v) d) s

end Sys2Proof.Machine
end

