-- ==== Sys2Proof/Machine/Calib.lean ====
section
/-! DEFINITION. Calibration: the effective gain, the calibration window, captures, the constants and their sealing (chapter 06,
05 R159). -/
namespace Sys2Proof.Machine

/-- The calibration record of channel `c`. -/
def Dev.cal (d : Dev) (c : Nat) : CalRec := tget {} d.cals c
/-- The part with the calibration record of channel `c` set. -/
def Dev.setCal (d : Dev) (c : Nat) (r : CalRec) : Dev := { d with cals := tset d.cals c r }
/-- The calibration object of channel `c`. -/
def calIx (c : Nat) : Nat := 0x3600 + c

/-! ## The effective gain (06 R200 to R203) -/

/-- Field `i` (0 the reference temperature, then k0, k1, k2) of band `b`'s polynomial (06 R201). -/
def Dev.poly (d : Dev) (c b i : Nat) : Int := sval 32 (leAt (d.getB (calIx c) (0x11 + b)) (4 * i) 4)

/-- Lower edge of band `b` in 2^-16 °C; band 0 has none (06 R202). -/
def bandEdge (b : Nat) : Int := (-15 + 20 * ((b : Int) - 1)) * 65536

/-- The band that holds a temperature. -/
def bandOf (t : Int) : Nat := ((List.range 5).filter fun i => decide (bandEdge (i + 1) ≤ t)).length

/-- Move up while the temperature is at or above the next edge. -/
def bandUp : Nat → Nat → Int → Nat
  | 0, b, _ => b
  | f + 1, b, t => if b < 5 ∧ bandEdge (b + 1) ≤ t then bandUp f (b + 1) t else b

/-- Move down while the temperature is more than 1 °C below the edge. -/
def bandDown : Nat → Nat → Int → Nat
  | 0, b, _ => b
  | f + 1, b, t => if 0 < b ∧ t < bandEdge b - 65536 then bandDown f (b - 1) t else b

/-- Enter or leave fallback in tick `t`: bit 3 of .08, EV23 and a metrology event (06 R200). -/
def Dev.fallbackAt (d : Dev) (t c : Nat) (f : Bool) : Dev :=
  if d.bitO (calIx c) 8 3 = f then d
  else ((d.setBitO (calIx c) 8 3 f).raiseEv 23).eventAt t 0x0008 0xFF c (natLE 1 (b2n (!f))) (natLE 1 (b2n f))

/-- Enter or leave fallback in this tick. -/
def Dev.setFallback (d : Dev) (c : Nat) (f : Bool) : Dev := d.fallbackAt d.now c f

/-- The temperature of the channel's source, where it has one that has not failed (06 R200, R205). -/
def Dev.sourceTemp (d : Dev) (c : Nat) : Option Int :=
  let s := d.get (calIx c) 5
  if s < 288 then
    match (d.cal s).temp with
    | some t => if (d.cal c).srcSince ≤ (d.cal s).tempAt then some t else none
    | none => none
  else none

/-- The band to be in force (06 R202). -/
def nextBand (d : Dev) (c : Nat) (wasFallback : Bool) (t : Option Int) : Nat :=
  match t with
  | none => d.get (calIx c) 6
  | some t => if wasFallback then bandOf t else bandDown 6 (bandUp 6 (d.get (calIx c) 8 % 8) t) t

/-- The effective gain before saturation (06 R203). -/
def gainOf (g th k0 k1 k2 t : Int) : Int :=
  let x := t - th
  let f := 2 ^ 30 + k0 + rdiv (k1 * x) (2 ^ 26) + rdiv (k2 * x * x) (2 ^ 50)
  rdiv (g * f) (2 ^ 30)

/-- EFFECTIVE_GAIN_UPDATE of channel `c` in cycle 0 (06 R202, R203). A failed source keeps its channel in fallback until a
sample comes. -/
def gainUpdate (c : Nat) (d : Dev) : Dev :=
  let was := d.bitO (calIx c) 8 3
  let src := d.get (calIx c) 5
  let fresh := decide (d.now < (d.cal src).tempAt + 32000)
  let t := if was && !fresh then none else d.sourceTemp c
  let d := d.setFallback c t.isNone
  let band := nextBand d c was t
  let d := d.when (band != d.get (calIx c) 8 % 8) fun d =>
    let d := (d.inc (calIx c) 0xC).set (calIx c) 8 (setField (d.get (calIx c) 8) 0 3 band)
    d.when (d.get (calIx c) 0xE % 4 == 1) fun d => d.setBitO (calIx c) 0xE 4 true
  let th := d.poly c band 0
  let temp := t.getD th
  let g := gainOf (d.getS 32 (calIx c) 1) th (d.poly c band 1) (d.poly c band 2) (d.poly c band 3) temp
  let sat := ovfS 32 g
  let d := ((d.setS 32 (calIx c) 7 temp).setS 32 (calIx c) 9 (satS 32 g)).setBitO (calIx c) 8 4 sat
  let d := d.when (sat && !(d.cal c).gtSat) fun d => d.raiseEv 21
  d.setCal c { d.cal c with gtSat := sat }

/-! ## The calibration window (05 R159, R160) -/

/-- The calibrated sample and whether it saturated: offset, effective gain, one rounding, a symmetric range (05 R159). -/
def calibrate (o g x : Int) : Int × Bool :=
  let q := rdiv ((x + o) * g) (2 ^ 37)
  (clampI (-8388607) 8388607 q, decide (q < -8388607 ∨ 8388607 < q))

/-- One more sample of a sequence: counted where it is saturated, and EV21 at the first after an unsaturated one (04 R129). -/
def noteSat (c : Nat) (was sat : Bool) (d : Dev) : Dev :=
  let d := d.when sat fun d => d.inc (0x3000 + c) 0xA
  d.when (sat && !was) fun d => d.raiseEv 21

/-- The meters with an enabled element that names channel `c`. -/
def metersNaming (d : Dev) (c : Nat) : List Nat :=
  (List.range 36).filter fun m => (List.range 4).any fun e =>
    (d.get (meterIx m) 2).testBit e && (d.get (meterIx m + 1 + e) 1 == c || d.get (meterIx m + 1 + e) 2 == c)

/-- INVALID_SAMPLE_RUN (05 R186): event 0x0006, EV25 and the count of every meter whose enabled element names the channel. -/
def invalidRun (c : Nat) (d : Dev) : Dev :=
  let ms := metersNaming d c
  if ms = [] then d
  else eachN ms (fun m d => d.inc (meterIx m + 6) 0xC) ((d.event 0x0006 0xFF c [] []).raiseEv 25)

/-- Add a sample to a capture (06 R207, R208). -/
def CapRec.add (k : CapRec) (x y : Int) (sat : Bool) : CapRec :=
  { k with count := k.count + 1, sats := k.sats + b2n sat, sx := k.sx + x, sxx := k.sxx + x.natAbs ^ 2,
           sy := k.sy + y, syy := k.syy + y.natAbs ^ 2 }

/-- Calibrate the samples of channel `c` handed over in this tick; a saturation shows in the channel's status too (04 R157; 05 R159). -/
def calibrateChan (c : Nat) (d : Dev) : Dev :=
  let f := d.chan c
  let r := d.cal c
  let o := d.getS 32 (calIx c) 2
  let g := d.getS 32 (calIx c) 9
  let w := f.main.headD {}
  let m := calibrate o g w.data
  let mSat := w.saturated || m.2
  let r := { r with main := push 127 ⟨m.1, !w.invalid⟩ r.main, mainSat := mSat }
  let isMain := f.cfg.mode == 1
  let d := d.when isMain (noteSat c f.satMain mSat)
  let (r, lSat, d) := match f.locked with
    | some v =>
      let z := calibrate o g v.data
      let s := v.saturated || z.2
      ({ r with locked := some (⟨z.1, !v.invalid⟩, v.index) }, s, noteSat c f.satLocked s d)
    | none => ({ r with locked := none }, f.satLocked, d)
  let (cv, cSat, d) : Option (Int × Int × Bool × Bool) × Bool × Dev := match f.conv with
    | some v =>
      let z := calibrate o g v.data
      let s := v.saturated || z.2
      (some (v.data, z.1, !v.invalid, s), s, noteSat c f.satConv s d)
    | none => (none, f.satConv, d)
  let cur : Option (Int × Int × Bool × Bool) := if isMain then some (w.data, m.1, !w.invalid, mSat) else cv
  let d := match cur with
    | some (_, _, _, true) => d.setBitO (0x3000 + c) 9 9 true
    | _ => d
  let r := match cur with
    | some (_, y, true, _) => if d.get (0x3000 + c) 2 = 5 then { r with temp := some y, tempAt := d.now } else r
    | _ => r
  let inCap := d.get (calIx c) 0xE % 4 == 1 && decide (r.cap.start ≤ d.now ∧ d.now < r.cap.start + r.cap.len)
  let r := match cur with
    | some (x, y, true, s) => if inCap then { r with cap := r.cap.add x y s } else r
    | _ => r
  let d := d.when (r.wasValid && w.invalid) (invalidRun c)
  let r := { r with wasValid := !w.invalid }
  let d := d.setChan c { d.chan c with satMain := if isMain then mSat else f.satMain, satLocked := lSat, satConv := cSat }
  d.setCal c r

/-- CALIBRATION_WINDOW: H2 of a tick. -/
def calibrationWindow (d : Dev) : Dev := each 288 calibrateChan d

/-! ## Writes -/

/-- The refusals of a write to a calibration constant, judged on the values `aft` holds (06 R199). -/
def calRules (aft : Dev) : Rules := { atRange := if sourcesOk aft then 0 else 8 }

/-- The 128-byte calibration record of a channel from its constants (06 R223). -/
def calRecord (d : Dev) (c : Nat) : Bytes := calBytes (d.get (calIx c)) (d.getB (calIx c))

/-- The record as MRAM holds it. -/
def calStored (d : Dev) (c : Nat) : Bytes := d.getB (calIx c) 0x10

/-- At a start the constants of a channel are reloaded from its record in MRAM (06 R225). -/
def reloadCal (c : Nat) (d : Dev) : Dev :=
  match tfind d.blobs (okey (calIx c) 0x10) with
  | none => d
  | some b =>
    let d := [(1, 0, 4), (2, 4, 4), (4, 8, 4), (3, 12, 2), (5, 14, 2), (6, 16, 1), (0xA, 116, 4)].foldl
      (fun (d : Dev) (x : Nat × Nat × Nat) => d.set (calIx c) x.1 (leAt b x.2.1 x.2.2)) d
    each 6 (fun i d => d.setB (calIx c) (0x11 + i) (sliceB b (20 + 16 * i) 16)) d

/-- The calibration digest (06 R224). -/
def calDigest (d : Dev) : Bytes := padTo 32 (shake256 32 ((List.range 288).flatMap fun c => calStored d c))

/-- The effect of a write to a constant (06 R198, R205, R209): the event, the value, the change count and time, the record, the
fallback of a new source and the end of a capture. -/
def effCal (role : Role) (c sub : Nat) (v : Bytes) (d : Dev) : Dev :=
  let ix := calIx c
  let other := sub == 5 && d.get ix 5 != leNat v
  let d := d.eventEff 0x0001 (roleCode role) (subjObj ix sub) (d.objBytes ix sub) v
  let d := if 0x11 ≤ sub then d.setB ix sub v else d.set ix sub (leNat v)
  let d := (d.inc ix 0xA).set ix 0xB d.effTick
  let d := d.setB ix 0x10 (calRecord d c)
  let d := d.when other fun d => (d.setCal c { d.cal c with srcSince := d.effTick }).fallbackAt d.effTick c true
  d.when (decide (sub ≤ 5)) (captureAbort c)

/-- The effect of a write of L to .0D (06 R207, R209): a capture from the tick of effect, or its cancelling by 0. -/
def effCapture (c v : Nat) (d : Dev) : Dev :=
  let ix := calIx c
  let d := d.set ix 0xD v
  if v = 0 then
    ((d.set ix 0xE 0).setB ix 0xF (zeros 64)).setCal c { d.cal c with cap := {} }
  else (d.set ix 0xE 1).setCal c { d.cal c with cap := { start := d.effTick, len := v } }

/-- A write to the calibration object of a channel: a constant (06 R198), or .0D, which is none and starts a capture (06 R207). -/
def writeCal (role : Role) (c sub : Nat) (v : Bytes) (d : Dev) : Dev :=
  if sub = 0xD then writeObj role (calIx c) sub (.raw v) {} (effCapture c (leNat v)) d
  else writeObj role (calIx c) sub (.raw v) (calRules (d.store (calIx c) sub (.raw v))) (effCal role c sub v) d

def execCalibrationConstantWritten (role : Role) (c : Fin 288) (sub : Nat) (v : Bytes) (s : State) : Out := onDev (writeCal role c sub v) s

def execCaptureStart (role : Role) (c : Fin 288) (v : Nat) (s : State) : Out :=
  onDev (writeObj role (calIx c) 0xD (.num v) {} (effCapture c v)) s
def execCaptureCancel (role : Role) (c : Fin 288) (s : State) : Out :=
  onDev (writeObj role (calIx c) 0xD (.num 0) {} (effCapture c 0)) s

/-- The results of a capture (06 R208). -/
def capResults (k : CapRec) : Bytes :=
  natLE 8 k.start ++ natLE 4 k.count ++ natLE 4 k.sats ++ natLE 8 (spat 64 k.sx) ++ natLE 16 k.sxx
    ++ natLE 8 (spat 64 k.sy) ++ natLE 16 k.syy

/-- CAPTURE_COMPLETE (06 R207): the sample of tick T + L - 1 has been included. -/
def captureComplete (c : Nat) (d : Dev) : Dev :=
  let k := (d.cal c).cap
  d.when (d.get (calIx c) 0xE % 4 == 1 && decide (k.start + k.len ≤ d.now + 1)) fun d =>
    (d.set (calIx c) 0xE (setField (d.get (calIx c) 0xE) 0 2 2)).setB (calIx c) 0xF (capResults k)

def execCaptureComplete (c : Fin 288) (s : State) : Out := onRun (captureComplete c) s

/-- TEMPERATURE_SOURCE_FAILURE (06 R200): 32 000 consecutive ticks without a valid sample of the source. -/
def sourceFailure (c : Nat) (d : Dev) : Dev :=
  let src := d.get (calIx c) 5
  d.when (decide (src < 288) && decide ((d.cal src).tempAt + 32000 ≤ d.now)) fun d => d.setFallback c true

def execTemperatureSourceFailure (c : Fin 288) (s : State) : Out := onRun (sourceFailure c) s

/-- Whether the record of channel `c` holds the CRC of its bytes. -/
def calGood (d : Dev) (c : Nat) : Bool := crc32 (sliceB (calStored d c) 0 120) == leAt (calStored d c) 120 4

/-- The record of one channel checked: a mismatch raises EV3 with event 0x000F. -/
def checkRecord (c : Nat) (d : Dev) : Dev := d.when (!calGood d c) fun d => (d.event 0x000F 0xFF c [] []).raiseEv 3

/-- CALIBRATION_RECORD_CHECK (06 R225): in the Sealed state, once every 32 000 ticks, each record's CRC is recomputed from MRAM. -/
def recordCheck (d : Dev) : Dev :=
  d.when (d.isSealed && decide (d.tick.calCheck + 32000 ≤ d.now)) fun d =>
    each 288 checkRecord { d with tick := { d.tick with calCheck := d.now } }

def execCalibrationRecordCheck (s : State) : Out := onRun recordCheck s

end Sys2Proof.Machine
end

