-- ==== Sys2Proof/Machine/Civil.lean ====
section
/-! DEFINITION. Device time, civil time, local time and the battery clock (07 R232 to R237). -/
namespace Sys2Proof.Machine

/-- Battery-clock reading of a civil time: seconds and 2^-15 s. -/
def clockOf (c : Nat × Nat) : Nat × Nat := (c.1 % 2 ^ 40, c.2 / 2 ^ 17)

/-- Set the validity of civil time in tick `t`: EV28 and event 0x000D at a change (07 R235). -/
def Dev.setCivilValid (d : Dev) (t : Nat) (v : Bool) : Dev :=
  if d.civil.valid = v then d
  else
    let d := { d with civil := { d.civil with valid := v } }
    let d := each 36 (fun m d => d.setBitO (meterIx m + 8) 6 0 (!v)) (d.set 0x4A90 5 (b2n v))
    (d.raiseEv 28).eventAt t 0x000D 0xFF 0 (natLE 1 (b2n (!v))) (natLE 1 (b2n v))

/-- The battery clock brought up to the crystal's count `raw`, by the trim of so many 0.5 ppm (08 R284); none where the crystal does not
count: the clock is invalid. -/
def clockOn (raw : Option (Nat × Nat)) (t : TamperRec) : TamperRec :=
  match raw, t.clock, t.crystal with
  | none, _, _ => { t with clock := none, crystal := none, rem := 0 }
  | some r, some c, some p =>
    let n := (32768 * r.1 + r.2 - (32768 * p.1 + p.2)) * (2000000 + t.trim).toNat + t.rem
    let u := 32768 * c.1 + c.2 + n / 2000000
    { t with clock := some (u / 32768 % 2 ^ 40, u % 32768), crystal := some r, rem := n % 2000000 }
  | some r, _, _ => { t with crystal := some r }

/-- Whether the tamper domain is running: from the 3.3 V supply while that is present, else from VBAT unless that has fallen below 1.8 V
(08 R283). -/
def Dev.tamperOn (d : Dev) : Bool := !d.tamper.stopped || d.loom != .unpowered

/-- The battery clock counts on while its domain runs. -/
def Dev.clockRead (d : Dev) (raw : Option (Nat × Nat)) : Dev := if !d.tamperOn then d else { d with tamper := clockOn raw d.tamper }

/-- Write civil time into the battery clock (07 R234, R235). -/
def Dev.copyToClock (d : Dev) (n : Nat) : Dev :=
  if !d.tamperOn then d
  else { d with tamper := { d.tamper with clock := some (clockOf (d.civilAt n)), rem := 0 } }

/-- The demand windows of every meter restart; the open subintervals carry the time-step mark (07 R244, R249). -/
def Dev.restartWindows (d : Dev) (stepped : Bool) : Dev :=
  each 36 (fun m d =>
    let r : MeterRec := tget {} d.meters m
    ({ d with meters := tset d.meters m { r with window := [], stepped := r.stepped || stepped } }).setBitO
      (meterIx m + 8) 6 2 true) d

/-- The refusals of a step: X lies in T - 32 000 to T + 32 000 (07 R234). -/
def stepRules (d : Dev) (v : Bytes) : Rules :=
  let x := leAt v 0 8
  let t := d.effTick
  { atRange := if t ≤ x + 32000 && x ≤ t + 32000 then 0 else 8 }

/-- The 12 bytes of a civil time: U64 seconds, U32 fraction. -/
def civilBytes (c : Nat × Nat) : Bytes := natLE 8 c.1 ++ natLE 4 c.2

/-- The effect of a step of civil time (07 R234). -/
def effStep (role : Role) (v : Bytes) (d : Dev) : Dev :=
  let t := d.effTick
  let before := if d.civil.valid then civilBytes (d.civilAt t) else zeros 12
  let civ : CivilRec := { valid := d.civil.valid, base := (leAt v 0 8 : Int), secs := leAt v 8 8, frac := leAt v 16 4 }
  let d1 := { d with civil := civ }
  let d1 := d1.eventEff 0x000C (roleCode role) (subjObj 0x4A90 2) before (civilBytes (d1.civilAt t))
  let d1 := ((d1.set 0x4A90 4 0).inc 0x4A90 6).set 0x4A90 7 t
  let d1 := (d1.setCivilValid t true).copyToClock t
  d1.restartWindows true

/-- The effect of a slew: the remainder of an old one is replaced; a Skein entry (07 R234). One millisecond is 32 ticks, and one
thousandth of a tick is worked off in each tick. -/
def effSlew (role : Role) (v : Nat) (d : Dev) : Dev :=
  let ms := sval 32 v
  let d := d.skein { kind := 1, role := roleCode role, ix := 0x4A90, sub := 3, before := natLE 4 (d.get 0x4A90 4), after := natLE 4 v }
  { d.set 0x4A90 4 v with civil := { d.civil with slewLeft := ms * 32000 } }

def execSlewCivilTime (role : Role) (v : Nat) (s : State) : Out :=
  onDev (writeObj role 0x4A90 3 (.num v) {} (effSlew role v)) s

/-- One tick of a slew while civil time is valid: one part in 1 000 of elapsed time until the offset is used up. -/
def slewTick (d : Dev) : Dev :=
  let l := d.civil.slewLeft
  if d.civil.valid && l != 0 then
    let u : Int := if 0 < l then 1 else -1
    let d := { d with civil := { d.civil with slewDone := d.civil.slewDone + u, slewLeft := l - u } }
    d.setS 32 0x4A90 4 ((l - u) / 32000 + (if (l - u) % 32000 = 0 then 0 else if 0 < l then 1 else 0))
  else d

/-- Whether civil time reaches a whole UTC hour at the edge of tick `n`. -/
def Dev.hourAt (d : Dev) (n : Nat) : Bool := decide ((d.civilAt (n - 1)).1 / 3600 < (d.civilAt n).1 / 3600)

/-- BATTERY_CLOCK_COPY (07 R235): at each whole UTC hour civil time is copied into the battery clock. -/
def batteryCopy (d : Dev) : Dev := d.when (d.civil.valid && d.hourAt d.effTick) fun d => d.copyToClock d.effTick

def execBatteryClockCopy (s : State) : Out := onRun batteryCopy s

/-! ## Dates and local time (07 R236) -/

/-- Days from 1970-01-01 to a date of the Gregorian calendar. -/
def daysOf (y m dd : Nat) : Int :=
  let y : Int := if m ≤ 2 then (y : Int) - 1 else y
  let era := y / 400
  let yoe := y % 400
  let mp : Int := ((m + 9) % 12 : Nat)
  let doy := (153 * mp + 2) / 5 + dd - 1
  let doe := yoe * 365 + yoe / 4 - yoe / 100 + doy
  era * 146097 + doe - 719468

/-- Year, month and day of a day number. -/
def dateOf (z : Int) : Nat × Nat × Nat :=
  let z := z + 719468
  let era := z / 146097
  let doe := z % 146097
  let yoe := (doe - doe / 1460 + doe / 36524 - doe / 146096) / 365
  let doy := doe - (365 * yoe + yoe / 4 - yoe / 100)
  let mp := (5 * doy + 2) / 153
  let dd := doy - (153 * mp + 2) / 5 + 1
  let m := if mp < 10 then mp + 3 else mp - 9
  let y := yoe + era * 400 + (if m ≤ 2 then 1 else 0)
  (y.toNat, m.toNat, dd.toNat)

/-- Weekday of a day number, 0 Monday. -/
def weekday (z : Int) : Nat := ((z + 3) % 7).toNat

/-- Days in a month. -/
def monthDays (y m : Nat) : Nat :=
  if m = 2 then (if y % 4 = 0 ∧ (y % 100 ≠ 0 ∨ y % 400 = 0) then 29 else 28)
  else if m = 4 || m = 6 || m = 9 || m = 11 then 30 else 31

/-- Whether a daylight rule is in its ranges: 0, or month, week, weekday and minute in range with no reserved bit. -/
def dstRuleOk (r : Nat) : Bool :=
  r == 0 || (decide (1 ≤ field r 0 8 ∧ field r 0 8 ≤ 12) && decide (1 ≤ field r 8 3 ∧ field r 8 3 ≤ 5)
    && decide (field r 11 3 ≤ 6) && decide (field r 14 11 ≤ 1439) && field r 25 7 == 0)

/-- The instant of a daylight rule in year `y`, in seconds of local standard time. -/
def dstInstant (y r : Nat) : Int :=
  let m := field r 0 8
  let first := daysOf y m 1
  let off := (field r 11 3 + 7 - weekday first) % 7
  let k := if field r 8 3 = 5 then (if off + 28 < monthDays y m then off + 28 else off + 21) else off + 7 * (field r 8 3 - 1)
  (first + k) * 86400 + field r 14 11 * 60

/-- Standard offset in seconds. -/
def Dev.stdOff (d : Dev) : Int := d.getS 16 0x4A90 0x10 * 60

/-- Whether daylight saving is in force at a UTC second. -/
def Dev.dst (d : Dev) (u : Int) : Bool :=
  let rs := d.get 0x4A90 0x12
  let re := d.get 0x4A90 0x13
  if rs = 0 || re = 0 then false
  else
    let t := u + d.stdOff
    let y := (dateOf (t / 86400)).1
    let a := dstInstant y rs
    let b := dstInstant y re
    if a ≤ b then decide (a ≤ t ∧ t < b) else decide (a ≤ t ∨ t < b)

/-- Local civil time of a UTC second. -/
def Dev.localOf (d : Dev) (u : Int) : Int :=
  u + d.stdOff + (if d.dst u then (d.get 0x4A90 0x11 : Int) * 60 else 0)

/-- The value of 0x4A90.01 and 0x4A90.14 at the present tick (07 R237). -/
def Dev.civilObj (d : Dev) : Bytes := if d.civil.valid then civilBytes (d.civilAt d.now) else zeros 12
/-- Local civil time as 0x4A90.14 shows it. -/
def Dev.localObj (d : Dev) : Bytes :=
  if d.civil.valid then natLE 8 (d.localOf d.utc).toNat ++ natLE 1 (b2n (d.dst d.utc)) ++ zeros 3 else zeros 12

/-- The first UTC second at which local civil time is at or after a local date and minute (07 R252). -/
def Dev.utcOfLocal (d : Dev) (y m dd minute : Nat) : Int :=
  let u0 := daysOf y m dd * 86400 + minute * 60 - d.stdOff
  let u1 := u0 - (d.get 0x4A90 0x11 : Int) * 60
  if d.dst u1 then u1 else if d.dst u0 then dstInstant y (d.get 0x4A90 0x12) - d.stdOff else u0

end Sys2Proof.Machine
end

