-- ==== Sys2Proof/Machine/Readings.lean ====
section
/-! DEFINITION. Signed readings: capture, numbering, signing, giving out and reissue (08 R267 to R278). -/
namespace Sys2Proof.Machine

/-- A Bobbin slot as shipped (20 R567): slots 0 to 2 hold Jarsin's keys. -/
def shippedKey (s : Nat) : KeyRec :=
  if s = 0 then { active := some Config.transportKey } else if s = 1 || s = 2 then { active := some (Config.imageKey s) } else {}
/-- The key record of Bobbin slot `s`. -/
def Dev.keyRec (d : Dev) (s : Nat) : KeyRec := tget (shippedKey s) d.keys s
/-- The active key of slot `s`. -/
def Dev.key (d : Dev) (s : Nat) : Option Bytes := (d.keyRec s).active

/-- Whether the part takes readings: a key is active and the lifecycle state permits them (08 R270; 20 R576). -/
def Dev.signs (d : Dev) : Bool := (d.key 8).isSome && decide (1 ≤ d.life ∧ d.life ≤ 3)

/-- The context string of reading signatures (08 R270). -/
def readingContext : Bytes := asciiB "xaeth-rd"

/-- The record of meter `m`. -/
def Dev.meter (d : Dev) (m : Nat) : MeterRec := tget {} d.meters m
/-- The part with the record of meter `m` set. -/
def Dev.setMeter (d : Dev) (m : Nat) (r : MeterRec) : Dev := { d with meters := tset d.meters m r }

/-- The 128-byte content of reading number `n` (08 R267, R269); its UTC is 0 while civil time is invalid. A reading of no meter, kind 6, has no rate: byte 68 is free
(log entry 72). -/
def readingContent (d : Dev) (n : Nat) (c : Capture) : Bytes :=
  let mIx := meterIx (c.meter % 36)
  let prev := match d.reads.prev with
    | some p => padTo 8 (shake256 8 p)
    | none => zeros 8
  let one := decide (c.meter < 36)
  let utc := if d.civil.valid then c.utc else (0, 0)
  let flags := b2n d.civil.valid + 2 * b2n (thas d.bill.sessions c.meter) + 4 * b2n (one && d.get mIx 1 == 2)
    + 8 * b2n (one && d.get mIx 1 == 0) + 16 * b2n c.reissue + 32 * b2n (d.reads.prev.isNone && n != 1)
  natBE 2 0x4A53 ++ natBE 1 1 ++ natBE 1 c.kind ++ natBE 4 n ++ natBE 4 Config.serialNumber ++ natBE 1 c.meter
    ++ natBE 1 d.position ++ natBE 1 d.life ++ natBE 1 flags ++ natBE 8 c.time ++ natBE 8 utc.1 ++ natBE 4 utc.2
    ++ natBE 12 c.acc1 ++ natBE 12 c.acc2 ++ natBE 4 c.session ++ natBE 4 (c.snapshot.getD (d.get 0x4C00 4))
    ++ natBE 1 (if one then d.get (mIx + 8) 5 else Config.free d.freeIdx) ++ zeros 1 ++ natBE 2 (d.get 0x4D80 4) ++ natBE 4 (d.get 0x4D40 1)
    ++ natBE 2 (d.get 0x4DE0 5) ++ zeros 2
    ++ (match c.subject with | some b => padTo 32 (shake256 32 b) | none => zeros 32)
    ++ prev ++ natBE 4 (d.get 0x2313 1)
    ++ padTo 4 d.reads.sealDigest

/-- Fix the content of the next reading and give it its number; the reserved limit moves on where fewer than 256 numbers remain
below it (08 R272, R274). -/
def Dev.numberReading (d : Dev) (c : Capture) : Dev :=
  let n := d.reads.next
  let d := d.when (decide (d.get 0x4D80 7 < n + 256)) fun d => d.set 0x4D80 7 (d.get 0x4D80 7 + 1024)
  let r := { d.reads with next := n + 1, prev := some (readingContent d n c), restarted := false }
  { d with reads := r, freeIdx := if c.meter < 36 then d.freeIdx else d.freeIdx + 1 }

/-- Put a captured reading on the queue. -/
def Dev.enqueueReading (d : Dev) (c : Capture) : Dev :=
  let n := d.reads.next
  let d := d.numberReading c
  let r : ReadingRec := { number := n, kind := c.kind, meter := c.meter, content := d.reads.prev.getD []
                          key := (d.key 8).getD [], asked := c.asked }
  let q := d.reads.queue ++ [r]
  { d with reads := { d.reads with queue := q } }.set 0x4D80 3 q.length

/-- READING_CAPTURE (08 R272, R275, R276): no reading without an active key or in a lifecycle state without readings; a kind 2, 3 or 4 reading that finds the queue full
is lost, a kind 5 reading is skipped and counted. -/
def Dev.capture (d : Dev) (c : Capture) : Dev :=
  if d.upd.noMetrology || !d.signs then d
  else if d.reads.queue.length < 1024 then d.enqueueReading c
  else if c.kind = 5 then d.inc 0x4D80 8
  else if c.kind = 2 || c.kind = 3 || c.kind = 4 then
    let l : LostReading := { kind := c.kind, meter := c.meter, number := d.reads.next, source := if c.kind = 4 then c.snapshot.getD 0 else c.session }
    let d := d.numberReading c
    { d with reads := { d.reads with lost := d.reads.lost ++ [l] } }
  else d

/-- A reading of the meter as it stands at the present tick, kinds 1 and 5. -/
def Dev.captureNow (d : Dev) (kind m asked : Nat) : Dev :=
  let sess := match tfind d.bill.sessions m with
    | some s => s.number
    | none => 0
  d.capture { kind := kind, meter := m, time := d.now, utc := if d.civil.valid then d.civilAt d.now else (0, 0),
              acc1 := d.get (meterIx m + 6) 1, acc2 := d.get (meterIx m + 6) 2, session := sess, asked := asked }

/-- The refusals of a request for a reading (08 R270, R275; 20 R576); a write of 0 has no effect (02 R631). -/
def readingRules (d : Dev) (v : Nat) : Rules :=
  if v = 1 then
    { atLife := if d.signs then 0 else 4
      atRange := if 512 ≤ d.reads.queue.length then 0xE else 0 }
  else {}

/-- The effect of a request: it waits for the end of H4 of its tick of effect (08 R268). -/
def effRequestReading (m v : Nat) (d : Dev) : Dev :=
  if v = 1 then { d with reads := { d.reads with asked := d.reads.asked ++ [(d.effTick, m)] } } else d

/-- Whether readings that must not be lost wait: under a supply warning, or while the queue has no room for `n` of them (09 R294; 08 R275; log
entry 96). -/
def Dev.readingsWait (d : Dev) (n : Nat) : Bool := d.supply.hold || decide (1024 < d.reads.queue.length + n)

/-- The kind-1 readings whose tick of effect has ended, by ascending meter; they wait while a supply warning holds readings, in a pause of
metrology and while the queue is full (08 R268, R272; 09 R294; 20 R591). -/
def askedReadings (d : Dev) : Dev :=
  if d.supply.hold || d.pausing 3 then d
  else
    let due := (sortBy (fun a b => decide (a.2 ≤ b.2)) (d.reads.asked.filter fun x => decide (x.1 ≤ d.now))).take (1024 - d.reads.queue.length)
    due.foldl (fun d x => d.captureNow 1 x.2 x.1) { d with reads := { d.reads with asked := d.reads.asked.filter fun x => !due.contains x } }

def execRequestReading (role : Role) (m : Fin 36) (v : Nat) (s : State) : Out :=
  onDev (fun d => writeObj role (0x4D90 + m) 2 (.num v) (readingRules d v) (effRequestReading m v) d) s

/-- The first reading of the queue that is still to be signed by a key that is there. -/
def unsignedIx (d : Dev) : Option Nat := findIx (fun r : ReadingRec => r.sig.isNone && r.key != []) d.reads.queue 0

/-- READING_SIGNED (08 R270, R272): a signing engine completes the signature of the next reading, by the key of its capture. -/
def readingSigned (d : Dev) : Dev :=
  match unsignedIx d with
  | some i =>
    let r := d.reads.queue.getD i {}
    let r := { r with sig := some (padTo 114 (ed448Sign r.key readingContext r.content)) }
    { d with reads := { d.reads with queue := setAt d.reads.queue i r } }
  | none => d

def execReadingSigned (s : State) : Out := onRun readingSigned s

/-- The first signed reading of the queue. -/
def signedIx (d : Dev) : Option Nat := findIx (fun r : ReadingRec => r.sig.isSome) d.reads.queue 0

/-- Whether the other engine finds the signature of a reading right (08 R273). -/
def ReadingRec.verified (r : ReadingRec) : Bool :=
  match r.sig with
  | some g => ed448Verify (padTo 57 (ed448Public r.key)) readingContext r.content g
  | none => false

/-- Write a reading to its slot of the store, show it as its meter's latest and stream it (08 R273; 19 R553). -/
def giveOut (r : ReadingRec) (d : Dev) : Dev :=
  let b := r.content ++ r.sig.getD []
  let slot := r.number % 4096
  let d := (d.setB (slotIx 0x4DC0 slot) (slotSub slot) b).set 0x4D80 1 (max (d.get 0x4D80 1) r.number)
  let d := d.when (decide (r.meter < 36)) fun d => d.setB (0x4D90 + r.meter) 1 b
  d.stream 3 ⟨0x30, r.number, b⟩

/-- READING_GIVEN_OUT (08 R273): the first signed reading, verified by the other engine. -/
def readingGivenOut (d : Dev) : Dev :=
  match signedIx d with
  | some i =>
    let r := d.reads.queue.getD i {}
    d.when r.verified fun d =>
      let q := d.reads.queue.eraseIdx i
      giveOut r ({ d with reads := { d.reads with queue := q } }.set 0x4D80 3 q.length)
  | none => d

/-- The record of a lost reading: index and sub-index of its slot. -/
def LostReading.slot (l : LostReading) : Nat × Nat :=
  if l.kind = 4 then (0x4C10 + l.meter, l.source % 36 + 1) else (slotIx 0x4E20 (l.source % 4096), slotSub (l.source % 4096))

/-- Whether the slot of a lost reading holds its record. -/
def Dev.recordHeld (d : Dev) (l : LostReading) : Bool := leAt (d.getB l.slot.1 l.slot.2) 0 4 == l.source

/-- Whether the record of a lost reading is committed (07 R264). -/
def Dev.recordCommitted (d : Dev) (l : LostReading) : Bool :=
  d.recordHeld l && !(d.bill.staging.any fun r => r.ix == l.slot.1 && r.sub == l.slot.2)

/-- The capture that a committed record gives again; UTC is that of the reissue (08 R276): session records hold their accumulators at bytes 40 to 63 and
energies at 64 to 87, snapshot records at 32 to 55. -/
def reissueOf (d : Dev) (l : LostReading) : Capture :=
  let b := d.getB l.slot.1 l.slot.2
  let utc := if d.civil.valid then d.civilAt d.now else (0, 0)
  let open' := match tfind d.bill.sessions l.meter with
    | some s => s.number
    | none => 0
  if l.kind = 4 then
    { kind := 4, meter := l.meter, time := leAt b 8 8, utc := utc, acc1 := leAt b 32 12,
      acc2 := leAt b 44 12, session := open', snapshot := some (leAt b 0 4), subject := some b, reissue := true }
  else if l.kind = 3 then
    { kind := 3, meter := l.meter, time := leAt b 16 8, utc := utc, acc1 := leAt b 40 12 + leAt b 64 12,
      acc2 := leAt b 52 12 + leAt b 76 12, session := leAt b 0 4, subject := some b, reissue := true }
  else
    { kind := 2, meter := l.meter, time := leAt b 8 8, utc := utc, acc1 := leAt b 40 12,
      acc2 := leAt b 52 12, session := leAt b 0 4, subject := some b, reissue := true }

/-- READING_REISSUE (08 R276): the first lost reading whose record is committed is captured again while the queue holds fewer than 512; event
0x0013 names both numbers. -/
def readingReissue (d : Dev) : Dev :=
  match d.reads.lost.find? d.recordCommitted with
  | some l =>
    if d.reads.queue.length < 512 && d.signs && !d.supply.hold then
      let n := d.reads.next
      let d := { d with reads := { d.reads with lost := d.reads.lost.erase l } }
      (d.enqueueReading (reissueOf d l)).event 0x0013 0xFF l.meter (natLE 4 l.number) (natLE 4 n)
    else d
  | none => d

def execReadingReissue (s : State) : Out := onRun readingReissue s

end Sys2Proof.Machine
end

