-- ==== Sys2Proof/Machine/Meter.lean ====
section
/-! DEFINITION. The metering engine: tick products, quadrature samples, direction quanta, gates, accumulators and registers, live
quantities and pulse outputs (chapter 05). -/
namespace Sys2Proof.Machine

/-! ## The billing state image (07 R261, R262) -/

/-- Objects that the billing state image holds. -/
def inImage (ix sub : Nat) : Bool :=
  if 0x4000 ≤ ix && ix < 0x4900 then
    let o := ix % 64
    o == 6 || (o == 7 && sub == 1) || (o == 8 && sub == 5) || (9 ≤ o && o ≤ 0x10) || (o == 0x19 && sub ≤ 5)
  else if 0x49F0 ≤ ix && ix ≤ 0x49F3 then sub == 5 || sub == 6
  else if ix = 0x4A90 then sub == 4 || sub == 6
  else ix == 0x4C00 && (sub == 4 || sub == 5)

/-- The image of the present billing state. -/
def Dev.saveImage (d : Dev) : SaveArea :=
  { header := true, point := d.now, clock := d.tamper.clock, objs := d.objs.filter fun e => inImage (e.1 / 256) (e.1 % 256)
    meters := d.meters, pulses := d.pulses, civil := d.civil, bill := d.bill, epoch := d.get 0x1100 1
    localTime := (List.range 4).map fun i => d.get 0x4A90 (0x10 + i), sources := (List.range 36).map fun m => d.get (meterIx m + 8) 4 }

/-- The billing engine switches its banks: the present state is that of the last completed H4 (09 R299). -/
def Dev.bankNow (d : Dev) : Dev := { d with supply := { d.supply with bank := d.saveImage } }

/-- Work of H4 of the present tick; where H4 was late the banks do not switch (09 R299; 01 R34). -/
def inH4 (f : Dev → Dev) (d : Dev) : Dev := (f d).when (!d.tick.late.contains 4) Dev.bankNow

/-! ## Units and configuration -/

/-- Quanta in 1 mWh (05 R180). -/
def quantaPerMWh : Nat := 483183820800

/-- The configuration of meter `m` as its objects give it (05 R193). -/
def Dev.meterCfg (d : Dev) (m : Nat) : MeterCfg :=
  let b := meterIx m
  { kind := if d.upd.noMetrology then 0 else d.get b 1, enabled := d.get b 2, group := d.get b 5
    vch := (List.range 4).map fun e => d.get (b + 1 + e) 1
    ich := (List.range 4).map fun e => d.get (b + 1 + e) 2
    ist := (List.range 4).map fun e => d.get (b + 1 + e) 3 }

/-! ## The quadrature sample (05 R167, R168) -/

/-- One in the fixed point of the sine. -/
def fixOne : Nat := 2 ^ 128

/-- Taylor terms of the sine: `t` the latest term, `k` its degree. -/
def sinGo : Nat → Nat → Int → Int → Int
  | 0, _, _, _ => 0
  | f + 1, k, t, x2 => t + sinGo f (k + 2) (rdiv (-(t * x2)) (fixOne * (k + 1) * (k + 2))) x2

/-- The sine of 2 pi f k / 32 000 with f in µHz, in units of 2^-128 (log entry 18). -/
def sinFix (fUHz k : Nat) : Int :=
  let x := rdiv (2 * piNum * fUHz * k * fixOne) (piDen * 32000000000)
  sinGo 24 1 x (rdiv (x * x) fixOne)

/-- Tap `k` of the Hilbert transformer (05 R167). -/
def hilbertTap (k : Nat) : Int := if k % 2 = 1 then rdiv (2 ^ 31 * piDen) (piNum.toNat * k) else 0

/-- The odd numbers to 63. -/
def hilbertKs : List Nat := (List.range 32).map fun i => 2 * i + 1

/-- The normalising gain for a frequency in µHz (05 R167): round(2^28 / a(f)). -/
def hilbertGain (fUHz : Nat) : Nat :=
  let a := sumI (hilbertKs.map fun k => 2 * hilbertTap k * sinFix fUHz k)
  if 0 < a then rdivN (2 ^ 58 * fixOne) a.toNat else 0

/-- The frequency f_g of a lock group: nominal in free-run and acquiring (05 R167). -/
def Dev.groupFreq (d : Dev) (g : Nat) : Nat :=
  if d.get (0x34C0 + g) 3 < 2 then (if d.get (0x34C0 + g) 2 = 0 then 50000000 else 60000000) else d.get (0x34C0 + g) 4

/-- The quadrature voltage of the sample 63 ticks ago, from 127 calibrated samples newest first (05 R167). -/
def quadrature (g : Nat) (v : List CalSample) : Int × Bool :=
  let s := sumI (hilbertKs.map fun k => hilbertTap k * ((v.getD (63 + k) {}).y - (v.getD (63 - k) {}).y))
  let q := rdiv ((g : Int) * s) (2 ^ 58)
  (clampI (-8388607) 8388607 q, decide (q < -8388607 ∨ 8388607 < q))

/-- A quadrature sample of voltage channel `c` has saturated: a saturated sample of its main-path sequence (04 R129, 05 R167). -/
def quadratureSat (c : Nat) (d : Dev) : Dev :=
  let d := noteSat c (d.chan c).satMain true (d.setBitO (0x3000 + c) 9 9 true)
  d.setChan c { d.chan c with satMain := true }

/-! ## Sums of a quantum (05 R166, R168, R172, R186) -/

/-- Add `x` to entry `e`. -/
def addAt (l : List Int) (e : Nat) (x : Int) : List Int := setAt l e (l.getD e 0 + x)
/-- Add `x` to entry `e` of natural numbers. -/
def addAtN (l : List Nat) (e x : Nat) : List Nat := setAt l e (l.getD e 0 + x)

/-- The latest calibrated main-path sample of channel `c`. -/
def Dev.sample (d : Dev) (c : Nat) : CalSample := (d.cal c).main.headD {}

/-- The active product of element `e`: 0 where a sample is invalid. -/
def activeProduct (d : Dev) (c : MeterCfg) (e : Nat) : Int :=
  let v := d.sample (c.vch.getD e 0)
  let i := d.sample (c.ich.getD e 0)
  if v.valid && i.valid then v.y * i.y else 0

/-- Sample `d.now` added to a quantum; a current sample counts where both samples are valid (05 R186). -/
def Quantum.addSample (q : Quantum) (d : Dev) (c : MeterCfg) : Quantum :=
  (bitsOf 4 c.enabled).foldl (fun q e =>
    let i := d.sample (c.ich.getD e 0)
    let q := { q with ap := addAt q.ap e (activeProduct d c e) }
    if i.valid && (d.sample (c.vch.getD e 0)).valid then { q with ms := addAtN q.ms e (i.y.natAbs ^ 2), nv := addAtN q.nv e 1 } else q) q

/-- The reactive product of sample `d.now - 63` added to the quantum that holds it. -/
def Quantum.addReactive (q : Quantum) (d : Dev) (present : MeterCfg) : Quantum :=
  let c := q.cfg.getD present
  let s := d.now - 63
  if c.kind = 1 && 63 ≤ d.now && q.first ≤ s && (q.stop = 0 || s < q.stop) then
    let g := hilbertGain (d.groupFreq c.group)
    (bitsOf 4 c.enabled).foldl (fun q e =>
      let v := (d.cal (c.vch.getD e 0)).main
      let i := (d.cal (c.ich.getD e 0)).main.getD 63 {}
      if v.length = 127 && v.all CalSample.valid && i.valid then
        { q with aq := addAt q.aq e ((quadrature g v).1 * i.y) }
      else q) q
  else q

/-! ## Quanta (05 R170, R171, R173) -/

/-- Crossing detection on the reference element of an AC meter: whether a crossing completes the open quantum, and the detector
armed or not (05 R170). -/
def crossing (d : Dev) (m : Nat) (c : MeterCfg) (armed : Bool) : Bool × Bool :=
  let ch := c.vch.getD (d.get (meterIx m) 3) 0
  let h := (d.cal ch).main
  let v := h.headD {}
  let p := (h.drop 1).headD {}
  let armed := if !v.valid then false else armed || decide (v.y * 10 < -((d.get (meterIx m) 4 : Int) * 4096))
  (v.valid && armed && decide (p.y < 0 ∧ 0 ≤ v.y), armed)

/-- Close the open quantum of an AC meter before sample `d.now`: by a crossing, or left for the forced close at 1 024. -/
def closeAc (d : Dev) (r : MeterRec) (q : Quantum) (forced : Bool) : MeterRec :=
  let q := { q with stop := d.now, regAt := d.now + 62, forced := forced }
  let next : Quantum := { first := d.now }
  let r := { r with cur := some next, armed := false }
  if forced then
    (match r.due with
     | some o => { r with closed := r.closed ++ [o], due := some q }
     | none => { r with due := some q })
  else { r with closed := r.closed ++ [q] }

/-- The quantum of an AC meter before the sums of sample `d.now` (05 R170). -/
def acStep (d : Dev) (m : Nat) (c : MeterCfg) (r : MeterRec) : MeterRec :=
  let z := crossing d m c r.armed
  let r := { r with armed := z.2 }
  match r.cur with
  | none => { r with cur := some { first := d.now } }
  | some q =>
    let len := d.now - q.first
    if z.1 && decide (400 ≤ len) then closeAc d r q false
    else if len = 1024 then closeAc d r q true else r

/-- The end of a block of a DC meter, after the sums of sample `d.now` (05 R171, R173). -/
def dcStep (d : Dev) (r : MeterRec) : MeterRec :=
  match r.cur with
  | some q =>
    if d.now % 32 = 31 then { r with cur := none, closed := r.closed ++ [{ q with stop := d.now + 1, regAt := d.now }] } else r
  | none => r

/-! ## Live quantities (05 R184) -/

/-- The RMS of a span: isqrt(floor(256 sum / n)), 0 where no sample is valid. -/
def rms (sum n : Nat) : Nat := if n = 0 then 0 else isqrt (256 * sum / n)

/-- One sample into an RMS span of element `e`; at its end the object is refreshed and the span restarts. -/
def rmsStep (ix sub e : Nat) (sum n : List Nat) (s : CalSample) (last : Bool) (d : Dev) : List Nat × List Nat × Dev :=
  let sum := if s.valid then addAtN sum e (s.y.natAbs ^ 2) else sum
  let n := if s.valid then addAtN n e 1 else n
  if last then (setAt sum e 0, setAt n e 0, d.set ix (sub + e) (rms (sum.getD e 0) (n.getD e 0))) else (sum, n, d)

/-- The sample of channel `ch` for the RMS of a meter, and whether it ends the span: on AC the cycle-locked sample of the meter's lock group
handed over in this tick, invalid where the channel produces none in that cycle (log entry 37); on DC the main-path sample. -/
def Dev.rmsSample (d : Dev) (c : MeterCfg) (ch : Nat) : Option (CalSample × Bool) :=
  if c.kind = 1 then
    (d.lock c.group).sample.map fun k =>
      (if (d.chan ch).cfg.group = c.group then (match (d.cal ch).locked with | some x => x.1 | none => {}) else {}, k == 255)
  else some (d.sample ch, d.now % 32 == 31)

/-- RMS of one element: the cycle of the meter's lock group on AC, blocks of 32 main-path samples on DC (05 R184, R193). -/
def rmsElement (m e : Nat) (c : MeterCfg) (d : Dev) : Dev :=
  let r := d.meter m
  let ix := meterIx m + 5
  let (r, d) := match d.rmsSample c (c.vch.getD e 0) with
    | some x => (let z := rmsStep ix 0xB e r.vv r.vn x.1 x.2 d; ({ r with vv := z.1, vn := z.2.1 }, z.2.2))
    | none => (r, d)
  let (r, d) := match d.rmsSample c (c.ich.getD e 0) with
    | some x => (let z := rmsStep ix 0xF e r.ii r.iin x.1 x.2 d; ({ r with ii := z.1, iin := z.2.1 }, z.2.2))
    | none => (r, d)
  d.setMeter m r

/-- METERING_WINDOW of meter `m` in H4 (05 R166 to R172, R184): quadrature products, the quantum, the sums and the live values. -/
def meterTick (m : Nat) (d : Dev) : Dev :=
  let c := d.meterCfg m
  let ix := meterIx m + 5
  let r := d.meter m
  let r := { r with cur := r.cur.map fun q => q.addReactive d c, due := r.due.map fun q => q.addReactive d c,
                    closed := r.closed.map fun q => q.addReactive d c }
  let r := if c.kind = 1 then acStep d m c r
    else if c.kind = 2 && r.cur.isNone then { r with cur := some { first := d.now } } else r
  let r := if c.kind = 0 then r else { r with cur := r.cur.map fun q => q.addSample d c }
  let r := if c.kind = 2 then dcStep d r else r
  let d := d.setMeter m r
  let d := d.when (c.kind != 0) fun d =>
    let d := eachN (bitsOf 4 c.enabled) (fun e d => (d.setS 64 ix (7 + e) (activeProduct d c e)).when true (rmsElement m e c)) d
    let d := eachN (bitsOf 4 c.enabled) (fun e d =>
      let ch := c.vch.getD e 0
      let v := (d.cal ch).main
      d.when (c.kind == 1 && v.length == 127 && (quadrature (hilbertGain (d.groupFreq c.group)) v).2) (quadratureSat ch)) d
    d
  let d := if c.kind = 2 then (d.set ix 0x13 0).set ix 0x14 0
    else (d.set ix 0x13 (d.get (0x34C0 + c.group) 4)).set ix 0x14 (hilbertGain (d.groupFreq c.group))
  let b := meterIx m + 0x19
  d.set b 2 (d.get b 2 + 1)

/-- METERING_WINDOW: every meter in turn. -/
def meteringWindow (d : Dev) : Dev := each 36 meterTick d

/-- FORCED_QUANTUM_CLOSE (05 R170): a quantum of 1 024 samples closes, counts as forced and raises EV26. -/
def forcedClose (m : Nat) (d : Dev) : Dev :=
  let r := d.meter m
  match r.due with
  | some q => ((d.setMeter m { r with due := none, closed := r.closed ++ [q] }).inc (meterIx m + 6) 0xB).raiseEv 26
  | none => d

def execForcedQuantumClose (m : Fin 36) (s : State) : Out := onRun (inH4 (forcedClose m)) s

/-! ## Gates (05 R177, R178) -/

/-- The gate of an element after a quantum. -/
def gateNext (isOpen : Bool) (ms nv ist : Nat) : Bool :=
  if nv = 0 then isOpen
  else if 441 * nv * ist ^ 2 * 2 ^ 20 < ms * 400 * 10 ^ 12 then true
  else if ms * 100 * 10 ^ 12 < 81 * nv * ist ^ 2 * 2 ^ 20 then false
  else isOpen

/-- Update the gates of a quantum at its registration: the object for an element no drain has reset, the quantum's own gates for
the others. The gates that the quantum is classified with. -/
def gateUpdate (m : Nat) (c : MeterCfg) (q : Quantum) (d : Dev) : Nat × Dev :=
  (bitsOf 4 c.enabled).foldl (fun (a : Nat × Dev) e =>
    let d := a.2
    let was := d.bitO (meterIx m + 7) 1 e
    let res := q.reset.testBit e
    let now := if res then q.gates.testBit e else gateNext was (q.ms.getD e 0) (q.nv.getD e 0) (c.ist.getD e 0)
    let opens := if res then q.opened.testBit e else now && !was
    let d := d.when (!res) fun d => d.setBitO (meterIx m + 7) 1 e now
    let d := d.when opens fun d => (d.inc (meterIx m + 7) (2 + e)).raiseEv 24
    (setBit a.1 e now, d)) (0, d)

/-! ## Registration (05 R174, R179, R180, R189; 07 R226) -/

/-- Add `e` quanta to pulse output `j` (05 R189). -/
def pulseAdd (j e : Nat) (d : Dev) : Dev :=
  let ix := 0x49F0 + j
  let t := d.get ix 5 + e * d.get ix 3
  let k := quantaPerMWh * 1000000
  let p := min (d.get ix 6 + t / k) (2 ^ 32 - 1)
  let d := (d.set ix 5 (t % k)).set ix 6 p
  let r : PulseRec := tget {} d.pulses j
  if 64 < p && !r.raised then { d with pulses := tset d.pulses j { r with raised := true } }.raiseEv 27 else d

/-- Add `e` quanta of quantity `u` to the accumulator, the pair of the rate in force, the total, the demand subinterval and the
pulse outputs that follow the accumulator. -/
def register (m u e : Nat) (d : Dev) : Dev :=
  let b := meterIx m
  let rate := d.get (b + 8) 5
  let acc := (d.get (b + 6) (u + 1) + e) % 2 ^ 96
  let d := (d.set (b + 6) (u + 1) acc).set (b + 0x1A) (u + 1) (acc / quantaPerMWh)
  let t := d.get (b + 8 + rate) (9 + u) + e
  let d := (d.set (b + 8 + rate) (1 + u) ((d.get (b + 8 + rate) (1 + u) + t / quantaPerMWh) % 2 ^ 64)).set (b + 8 + rate) (9 + u)
    (t % quantaPerMWh)
  let dem := if u = 0 then 3 else if u = 1 then 4 else if u = 6 then 5 else 0
  let d := d.when (dem != 0) fun d => d.set (b + 0x19) dem ((d.get (b + 0x19) dem + e) % 2 ^ 96)
  each 4 (fun j d => d.when (d.get (0x49F0 + j) 1 == m && d.get (0x49F0 + j) 2 == u + 1) (pulseAdd j e)) d

/-- The sums that a quantum is classified by: sp, sq and su over its enabled elements (05 R174). -/
def classify (c : MeterCfg) (q : Quantum) (gates : Nat) : Int × Int × Nat :=
  let els := bitsOf 4 c.enabled
  let isOpen := els.filter fun e => gates.testBit e
  let shut := els.filter fun e => !gates.testBit e
  (sumI (isOpen.map fun e => q.ap.getD e 0), if c.kind = 2 then 0 else sumI (isOpen.map fun e => q.aq.getD e 0),
   sumN (shut.map fun e => (q.ap.getD e 0).natAbs))

/-- Register the sums of one quantum of `len` samples. -/
def registerSums (m : Nat) (sp sq : Int) (su len : Nat) (d : Dev) : Dev :=
  let b := meterIx m
  let s := isqrt (sp.natAbs ^ 2 + sq.natAbs ^ 2)
  let quad := if 0 ≤ sp then (if 0 ≤ sq then 1 else 4) else (if 0 ≤ sq then 2 else 3)
  let d := if 0 ≤ sp then register m 6 s (register m 0 sp.natAbs d) else register m 7 s (register m 1 sp.natAbs d)
  let d := register m (1 + quad) sq.natAbs d
  let d := d.set (b + 6) 9 ((d.get (b + 6) 9 + su) % 2 ^ 96)
  let d := d.set (b + 6) 0xA ((d.get (b + 6) 0xA + 1) % 2 ^ 64)
  let d := ((d.incWrap (b + 5) 1).set (b + 5) 2 len).setS 64 (b + 5) 3 sp
  let d := ((d.setS 64 (b + 5) 4 sq).set (b + 5) 5 s).set (b + 5) 6 quad
  match tfind d.bill.sessions m with
  | some x =>
    let w := if 0 < len then (sp / ((len : Int) * 2 ^ 22)).toNat else 0
    { d with bill := { d.bill with sessions := tset d.bill.sessions m { x with maxPower := max x.maxPower w } } }
  | none => d

/-- Register one quantum of meter `m`: gates, then the classification. -/
def registerQuantum (m : Nat) (q : Quantum) (d : Dev) : Dev :=
  let c := q.cfg.getD (d.meterCfg m)
  let z := gateUpdate m c q d
  let k := classify c q z.1
  registerSums m k.1 k.2.1 k.2.2 (q.stop - q.first) z.2

/-- QUANTUM_REGISTRATION (05 R173, R174): the oldest closed quantum whose last sums are complete by this tick; a block of a DC meter does not wait
for a quantum of the kind before. -/
def registration (m : Nat) (d : Dev) : Dev :=
  let r := d.meter m
  match r.closed.find? fun q => decide (q.regAt ≤ d.now) with
  | some q => registerQuantum m q (d.setMeter m { r with closed := r.closed.erase q })
  | none => d

def execQuantumRegistration (m : Fin 36) (s : State) : Out := onRun (inH4 (registration m)) s

/-! ## Changes of configuration (05 R187) -/

/-- Freeze a pending quantum for a drain: its configuration, and the gates of the elements newly reset, which it would reach at its
registration. -/
def freezeStep (d : Dev) (m mask : Nat) (a : Nat × List Quantum) (q : Quantum) : Nat × List Quantum :=
  let c := q.cfg.getD (d.meterCfg m)
  let z := (bitsOf 4 c.enabled).foldl (fun (x : Nat × Quantum) e =>
    if mask.testBit e && !x.2.reset.testBit e then
      let was := x.1.testBit e
      let now := gateNext was (q.ms.getD e 0) (q.nv.getD e 0) (c.ist.getD e 0)
      (setBit x.1 e now, { x.2 with reset := setBit x.2.reset e true, gates := setBit x.2.gates e now,
                                    opened := setBit x.2.opened e (now && !was) })
    else x) (a.1, { q with cfg := some c })
  (z.1, a.2 ++ [z.2])

/-- The RMS sums of the elements that a change does not touch; those of the others start anew (log entry 37). -/
def keepUnmasked (mask : Nat) (l : List Nat) : List Nat := (List.range 4).map fun e => if mask.testBit e then 0 else l.getD e 0

/-- Drain the work in flight of meter `m` at tick T: close the open quantum after sample T - 1 and hold every pending quantum to the
old configuration; `mask` names the elements whose gates the change closes, `fresh` those whose RMS begins anew. -/
def drainMeter (m mask fresh : Nat) (d : Dev) : Dev :=
  let t := d.effTick
  let c := d.meterCfg m
  let r := d.meter m
  let last := match r.cur with
    | some q => [{ q with stop := t, forced := c.kind == 1, regAt := if c.kind = 1 then t + 62 else t }]
    | none => []
  let d := d.when (c.kind == 1 && r.cur.isSome) fun d => (d.inc (meterIx m + 6) 0xB).raiseEv 26
  let z := (r.closed ++ r.due.toList ++ last).foldl (freezeStep d m mask) (d.get (meterIx m + 7) 1, [])
  let d := d.setMeter m { r with
    armed := false, cur := none, closed := z.2, due := none
    vv := keepUnmasked fresh r.vv, vn := keepUnmasked fresh r.vn, ii := keepUnmasked fresh r.ii, iin := keepUnmasked fresh r.iin }
  let d := d.when r.due.isSome fun d => (d.inc (meterIx m + 6) 0xB).raiseEv 26
  d.set (meterIx m + 7) 1 (maskOf ((List.range 4).map fun e => (d.get (meterIx m + 7) 1).testBit e && !mask.testBit e))

/-- Elements whose gates a change closes (05 R187): the written element, those newly enabled, all at a change of kind. -/
def gatesClosed (d : Dev) (m off sub v : Nat) : Nat :=
  if 1 ≤ off then 2 ^ (off - 1)
  else if sub = 1 then (if d.get (meterIx m) 1 = v then 0 else 15)
  else if sub = 2 then maskOf ((List.range 4).map fun e => v.testBit e && !(d.get (meterIx m) 2).testBit e)
  else 0

/-- Elements whose RMS begins anew with a change (05 R184): those whose channel it names or that it enables, all at a change of the kind or of the
lock group; a starting current leaves the sums. -/
def rmsAnew (d : Dev) (m off sub v : Nat) : Nat :=
  if 1 ≤ off then (if sub ≤ 2 then 2 ^ (off - 1) else 0)
  else if sub = 5 then (if d.get (meterIx m) 5 = v then 0 else 15)
  else gatesClosed d m off sub v

/-- The effect of a write to a meter or element object at tick T (05 R165, R187). -/
def effMeter (role : Role) (m off sub v : Nat) (d : Dev) : Dev :=
  let ix := meterIx m + off
  let d := d.eventEff 0x0009 (roleCode role) (subjObj ix sub) (natLE 4 (d.get ix sub)) (natLE 4 v)
  (drainMeter m (gatesClosed d m off sub v) (rmsAnew d m off sub v) d).set ix sub v

/-- The refusals of a write to a meter or element object, judged on the values `aft` holds (05 R163). -/
def meterRules (aft : Dev) : Rules := { atRange := if metersOk aft then 0 else 8 }

def execMeterConfigurationWrite (role : Role) (m : Fin 36) (off : Fin 5) (sub v : Nat) (s : State) : Out :=
  onDev (fun d => writeObj role (meterIx m + off) sub (.num v) (meterRules (d.set (meterIx m + off) sub v))
    (effMeter role m off sub v) d) s

/-! ## Pulse outputs (05 R189 to R191) -/

/-- The record of pulse output `j`. -/
def Dev.pulse (d : Dev) (j : Nat) : PulseRec := tget {} d.pulses j

/-- PULSE_EMIT at the boundary that opens tick `d.now` (05 R189), while the part drives its outputs (09 R305). -/
def pulseEmit (j : Nat) (d : Dev) : Dev :=
  let ix := 0x49F0 + j
  let r := d.pulse j
  let w := d.get ix 4
  if d.drives && d.get ix 1 ≠ 0xFF && r.high.isNone && r.lowFrom + w ≤ d.now && 0 < d.get ix 6 then
    let p := d.get ix 6 - 1
    let d := { d with pulses := tset d.pulses j { r with high := some (d.now + w), raised := r.raised && p != 0 } }
    (d.set ix 6 p).set ix 7 ((d.get ix 7 + 1) % 2 ^ 64)
  else d

/-- PULSE_WIDTH_EXPIRY (05 R189): after w ticks the output returns low. -/
def pulseExpiry (j : Nat) (d : Dev) : Dev :=
  let r := d.pulse j
  match r.high with
  | some t => if t ≤ d.effTick then { d with pulses := tset d.pulses j { r with high := none, lowFrom := t } } else d
  | none => d

def execPulseWidthExpiry (j : Fin 4) (s : State) : Out := onDev (pulseExpiry j) s

/-- The effect of a write to a pulse output at tick T (05 R191). -/
def effPulse (j sub v : Nat) (d : Dev) : Dev :=
  let ix := 0x49F0 + j
  let d := (((d.set ix sub v).set ix 5 0).set ix 6 0).set ix 7 0
  { d with pulses := tset d.pulses j { high := none, lowFrom := d.effTick, raised := false } }

def execPulseOutputConfiguration (role : Role) (j : Fin 4) (sub v : Nat) (s : State) : Out :=
  onDev (writeObj role (0x49F0 + j) sub (.num v) {} (effPulse j sub v)) s

/-! ## The accumulator check (05 R181) -/

/-- Whether every accumulator of meter `m` is the sum of its register pairs. -/
def registersAgree (d : Dev) (m : Nat) : Bool :=
  (List.range 8).all fun u =>
    sumN ((List.range 8).map fun r => d.get (meterIx m + 9 + r) (1 + u) * quantaPerMWh + d.get (meterIx m + 9 + r) (9 + u))
      == d.get (meterIx m + 6) (u + 1)

/-- The check after a power loss: event 0x0010 and EV3 for each meter that does not agree. -/
def accumulatorCheck (d : Dev) : Dev :=
  each 36 (fun m d => if registersAgree d m then d else (d.event 0x0010 0xFF m [] []).raiseEv 3) d

end Sys2Proof.Machine
end

