-- ==== Sys2Proof/Machine/Billing.lean ====
section
/-! DEFINITION. Billing: staging, demand, tariff calendars, snapshots, the boundary step, session records and their writes
(chapter 07). -/
namespace Sys2Proof.Machine

/-! ## Staging (07 R263 to R266) -/

/-- Bytes that the staging memory holds. -/
def stagingSize : Nat := 98304

/-- Bytes staged. -/
def Dev.staged (d : Dev) : Nat := sumN (d.bill.staging.map StagedRec.size)

/-- Stage a record. -/
def Dev.addStaged (d : Dev) (r : StagedRec) : Dev := { d with bill := { d.bill with staging := d.bill.staging ++ [r] } }

/-- Stage a record that a byte-string object shows. -/
def Dev.stageBlob (d : Dev) (ix sub : Nat) (b : Bytes) (r : StagedRec) : Dev :=
  (d.setB ix sub b).addStaged { r with ix := ix, sub := sub, size := b.length, tick := d.effTick, old := d.getB ix sub }

/-- Stage the 48-byte maximum record of rate `r` (0 to 7) of meter `m` with its new values (07 R246); a record already staged for the same tick
takes them over (07 R263). -/
def Dev.stageMaxima (d : Dev) (m r : Nat) (vals : List Nat) : Dev :=
  let ix := meterIx m + 0x11 + r
  let old := (List.range 6).map fun i => (okey ix (i + 1), d.get ix (i + 1))
  let again := d.bill.staging.any fun x => x.ix == ix && x.size == 48 && x.tick == d.effTick
  let d := (List.range 6).foldl (fun (d : Dev) i => d.set ix (i + 1) (vals.getD i 0)) d
  if again then d else d.addStaged { ix := ix, size := 48, tick := d.effTick, nums := old }

/-- The 44 bytes of a demand record: three energies, ticks, flags (07 R260; the flags' bits are the model's, log entry 95). -/
def demandBytes (r : SubRec) : Bytes :=
  r.e.flatMap (natLE 12) ++ natLE 4 r.ticks ++ natLE 4 (b2n r.irregular + 2 * b2n r.short)

/-- The demand records of meter `m`. -/
def Dev.demands (d : Dev) (m : Nat) : List Bytes := tget [] d.demand m

/-- Stage a demand record: the latest of 15 (07 R244, R260). -/
def Dev.stageDemand (d : Dev) (m : Nat) (b : Bytes) : Dev :=
  let l := d.demands m
  { d with demand := tset d.demand m ((b :: l).take 15) }.addStaged { sub := m, size := 44, tick := d.effTick, old := l.getD 14 [] }

/-- The last instants (07 R262): 36 demand, one scheduled snapshot, four activations. -/
def Dev.instants (d : Dev) : List Nat :=
  (List.range 36).map (fun m => (d.meter m).last) ++ [d.get 0x4C00 5] ++ (List.range 4).map fun k => d.bill.lastActivation.getD k 0

/-- The bytes of a copy of the boundary index before its CRC-32 (07 R260). -/
def IndexCopy.body (x : IndexCopy) : Bytes := natLE 4 x.snapshot ++ natLE 4 x.session ++ x.instants.flatMap (natLE 8)

/-- The locked sequences of records commit: both copies of the boundary index take their numbers and the last instants (07 R260, R264). -/
def recordsWritten (rs : List StagedRec) (d : Dev) : Dev :=
  let x := d.supply.index.1
  let x := { x with snapshot := max x.snapshot (maxN 0 (rs.map StagedRec.snapshot)), session := max x.session (maxN 0 (rs.map StagedRec.session))
                    instants := d.instants }
  let x := { x with crc := crc32 x.body }
  { d with supply := { d.supply with index := (x, x) } }

/-- The values of the maximum record of rate `r` (0 to 7). -/
def Dev.maxima (d : Dev) (m r : Nat) : List Nat := (List.range 6).map fun i => d.get (meterIx m + 0x11 + r) (i + 1)

/-! ## Session records and the readings of a tick (07 R257; 08 R272) -/

/-- What closes a session record. -/
structure SessEnd where
  reason : Nat := 0
  atRestart : Bool := false
  time : Nat := 0
  utc : Nat := 0
  /-- fraction of the civil time at the close, for its reading -/
  frac : Nat := 0
  reading : Nat := 0
  civilInvalid : Bool := false
deriving DecidableEq, Repr

/-- Bytes 0 to 123 of a session record (07 R257). -/
def sessionBody (d : Dev) (o : Nat) (x : SessRec) (e : Option SessEnd) : Bytes :=
  let z := e.getD {}
  let ix := meterIx o + 6
  let flags := b2n e.isNone + 2 * b2n x.returnOk + 4 * b2n (x.invalidAtStart || z.civilInvalid) + 8 * b2n z.atRestart
  natLE 4 x.number ++ natLE 1 o ++ natLE 1 x.generation ++ natLE 1 z.reason ++ natLE 1 flags ++ natLE 8 x.start ++ natLE 8 z.time
    ++ natLE 8 x.utcStart ++ natLE 8 z.utc ++ natLE 12 x.acc1 ++ natLE 12 x.acc2
    ++ natLE 12 (d.get ix 1 - x.acc1) ++ natLE 12 (d.get ix 2 - x.acc2) ++ padTo 16 x.ident ++ natLE 1 x.identLen
    ++ natLE 1 x.identKind ++ natLE 1 x.rate ++ zeros 1 ++ natLE 4 x.reading ++ natLE 4 z.reading ++ natLE 4 x.maxPower ++ zeros 4

/-- The number that the next captured reading takes, 0 where no key is active. -/
def Dev.readingNumber (d : Dev) : Nat := if d.signs then d.reads.next else 0

/-- The session-start readings of the present tick, by ascending outlet, after the readings of the sessions that end in it (08 R268, R272): the
record as it stood at the start, with the number of its reading. -/
def startReadings (d : Dev) : Dev :=
  let at' := sortBy (fun a b => decide (a ≤ b)) d.reads.starts
  eachN at' (fun o d =>
    match tfind d.bill.sessions o with
    | some x =>
      let x := { x with reading := d.readingNumber }
      let d := { d with bill := { d.bill with sessions := tset d.bill.sessions o x } }
      let ix := meterIx o + 6
      d.capture { kind := 2, meter := o, time := x.start, utc := if d.civil.valid then d.civilAt x.start else (0, 0), acc1 := x.acc1, acc2 := x.acc2
                  session := x.number, subject := some (sessionBody ((d.set ix 1 x.acc1).set ix 2 x.acc2) o { x with maxPower := 0 } none) }
    | none => d) { d with reads := { d.reads with starts := [] } }

/-- The periodic readings of the present tick, by ascending meter (08 R268, R272). -/
def periodicReadings (d : Dev) : Dev :=
  let due := sortBy (fun a b => decide (a ≤ b)) d.reads.periodic
  eachN due (fun m d => d.captureNow 5 m 0) { d with reads := { d.reads with periodic := [] } }

/-- The readings of the present tick still to be captured, at its end: the session starts, the periodic ones, then those asked for (08 R272). -/
def tickReadings (d : Dev) : Dev := askedReadings (periodicReadings (startReadings d))

/-- The snapshot readings of the tick that begins, after a key change of the same tick (08 R272). -/
def snapReadings (d : Dev) : Dev := d.reads.snaps.foldl Dev.capture { d with reads := { d.reads with snaps := [] } }

/-- What is captured before the windows of the next tick: the rest of the present tick, then the snapshots of the next (08 R272). -/
def closeReadings (d : Dev) : Dev := snapReadings (tickReadings d)

/-- PERIODIC_READING (08 R268, R272, R275; 09 R294): at each multiple of the interval, captured at the end of the tick; skipped and counted under
a warning and in a pause of metrology (20 R591). -/
def periodicReading (m : Nat) (d : Dev) : Dev :=
  let i := d.get (0x4D90 + m) 3
  d.when (d.running && i != 0 && d.now % (i * 1920000) == 0) fun d =>
    if d.supply.hold || d.pausing 3 then d.inc 0x4D80 8 else { d with reads := { d.reads with periodic := d.reads.periodic.insert m } }

def execPeriodicReading (m : Fin 36) (s : State) : Out := onRun (periodicReading m) s

/-! ## Demand (07 R243 to R247) -/

/-- Length of a subinterval of meter `m`, s. -/
def Dev.subLen (d : Dev) (m : Nat) : Nat := 60 * d.get (meterIx m + 8) 2 / max 1 (d.get (meterIx m + 8) 3)

/-- The latest instant of the subinterval schedule not later than `c`: local standard time a multiple of the length (07 R243). -/
def Dev.subInstant (d : Dev) (m : Nat) (c : Int) : Int :=
  let l : Int := max 1 (d.subLen m)
  c - (c + d.stdOff) % l

/-- The demand boundary of meter `m` due at an edge of civil time `c`: its latest instant, and whether more than one lay in the
span (07 R249). -/
def Dev.subDue (d : Dev) (m c : Nat) : Option (Nat × Bool) :=
  let last : Int := (d.meter m).last
  let next := d.subInstant m last + max 1 (d.subLen m)
  let latest := d.subInstant m c
  if next ≤ c then some (latest.toNat, decide (next < latest)) else none

/-- How a subinterval closes. -/
structure Close where
  utc : Nat := 0
  len : Nat := 1
  k : Nat := 1
  forced : Bool := false
  deferred : Bool := false
  step : Bool := false
deriving DecidableEq, Repr

/-- Close the open subinterval of meter `m` before tick `b`: the window, demand, the maximum of the rate in force in tick b - 1 and
the demand record (07 R244, R245). -/
def closeSub (m b : Nat) (x : Close) (d : Dev) : Dev :=
  let ix := meterIx m + 0x19
  let r := d.meter m
  let n := d.get ix 2
  let full := x.len * 32000
  let irr := x.forced || x.deferred || decide (full < 200 * (max n full - min n full))
  let rec' : SubRec := { e := [d.get ix 3, d.get ix 4, d.get ix 5], ticks := n, irregular := irr, short := decide (2 * n < full) }
  let k := max 1 x.k
  let w := (rec' :: r.window).take k
  let d := d.stageDemand m (demandBytes rec')
  let d := d.setMeter m { r with window := w, stepped := false, closeNow := none }
  let d := d.setBitO (meterIx m + 8) 6 2 (decide (w.length < k))
  let d := if w.length < k then d
    else
      let ticks := max 1 (sumN (w.map SubRec.ticks))
      let dem := (List.range 3).map fun i => sumN (w.map fun s => s.e.getD i 0) / ticks
      let shortIn := w.any SubRec.short
      let irrIn := w.any SubRec.irregular
      let d := (List.range 3).foldl (fun (d : Dev) i => d.set ix (6 + i) (dem.getD i 0)) d
      let d := ((d.set ix 9 ticks).set ix 0xA x.utc).set ix 0xB
        (b2n irr + 2 * b2n irrIn + 4 * b2n shortIn + 8 * b2n x.deferred + 16 * b2n (x.step || r.stepped))
      let d := d.setBitO (meterIx m + 8) 6 3 irrIn
      let rate := d.get (meterIx m + 8) 5 - 1
      let old := d.maxima m rate
      let new := (List.range 3).flatMap fun i =>
        if old.getD (2 * i) 0 < dem.getD i 0 then [dem.getD i 0, x.utc] else [old.getD (2 * i) 0, old.getD (2 * i + 1) 0]
      if !shortIn && new ≠ old then d.stageMaxima m rate new else d
  let d := ((d.set ix 1 b).set ix 2 0).set ix 3 0
  (d.set ix 4 0).set ix 5 0

/-! ## Calendars (07 R238 to R242) -/

/-- Whether a season, week or special-day entry's bytes are zero for every entry beyond the count. -/
def zeroFrom (b : Bytes) (base size count cap : Nat) : Bool := allZero (sliceB b (base + size * count) (size * (cap - count)))

/-- Whether day profile `i` is as 07 R239 asks. -/
def dayProfileOk (b : Bytes) (i : Nat) : Bool :=
  let es := (List.range 16).map fun j => sliceB b (104 + 64 * i + 4 * j) 4
  let used := es.takeWhile fun e => (e.getD 3 0).getLsbD 0
  let rest := es.drop used.length
  decide (1 ≤ used.length) && leAt (used.headD []) 0 2 == 0 &&
  (used.all fun e => decide (leAt e 0 2 ≤ 1439 ∧ 1 ≤ byteAt e 2 ∧ byteAt e 2 ≤ 8 ∧ byteAt e 3 = 1)) &&
  ((List.zip used (used.drop 1)).all fun p => decide (leAt p.1 0 2 < leAt p.2 0 2)) &&
  (rest.all allZero)

/-- Whether a passive calendar is accepted (07 R239). -/
def calendarOk (b : Bytes) : Bool :=
  let ns := byteAt b 1
  let nw := byteAt b 2
  let nd := byteAt b 3
  let nx := byteAt b 4
  let seas := (List.range ns).map fun i => sliceB b (8 + 4 * i) 4
  byteAt b 0 == 1 && decide (1 ≤ ns ∧ ns ≤ 8 ∧ 1 ≤ nw ∧ nw ≤ 8 ∧ 1 ≤ nd ∧ nd ≤ 16 ∧ nx ≤ 64) &&
  decide (1 ≤ byteAt b 5 ∧ byteAt b 5 ≤ 8) && allZero (sliceB b 6 2) &&
  (seas.all fun s => decide (1 ≤ byteAt s 0 ∧ byteAt s 0 ≤ 12 ∧ 1 ≤ byteAt s 1 ∧ byteAt s 1 ≤ 31 ∧ byteAt s 2 < nw ∧ byteAt s 3 = 0)) &&
  ((List.zip seas (seas.drop 1)).all fun p =>
    decide (byteAt p.1 0 < byteAt p.2 0 ∨ (byteAt p.1 0 = byteAt p.2 0 ∧ byteAt p.1 1 < byteAt p.2 1))) &&
  ((List.range nw).all fun i => let w := sliceB b (40 + 8 * i) 8
    ((List.range 7).all fun j => decide (byteAt w j < nd)) && byteAt w 7 == 0) &&
  ((List.range nd).all (dayProfileOk b)) &&
  ((List.range nx).all fun i => let x := sliceB b (1128 + 6 * i) 6
    decide (1 ≤ byteAt x 2 ∧ byteAt x 2 ≤ 12 ∧ 1 ≤ byteAt x 3 ∧ byteAt x 3 ≤ 31 ∧ byteAt x 4 < nd ∧ byteAt x 5 = 0)) &&
  zeroFrom b 8 4 ns 8 && zeroFrom b 40 8 nw 8 && zeroFrom b 104 64 nd 16 && zeroFrom b 1128 6 nx 64

/-- The rate that a calendar gives for a local civil second (07 R242). -/
def calendarRate (b : Bytes) (t : Int) : Nat :=
  let z := t / 86400
  let y := (dateOf z).1
  let mo := (dateOf z).2.1
  let dd := (dateOf z).2.2
  let minute := (t % 86400 / 60).toNat
  let spec := ((List.range (byteAt b 4)).map fun i => sliceB b (1128 + 6 * i) 6).find? fun x =>
    byteAt x 2 == mo && byteAt x 3 == dd && (leAt x 0 2 == y || leAt x 0 2 == 0)
  let prof := match spec with
    | some x => byteAt x 4
    | none =>
      let seas := (List.range (byteAt b 1)).map fun i => sliceB b (8 + 4 * i) 4
      let past := seas.filter fun s => decide (byteAt s 0 < mo ∨ (byteAt s 0 = mo ∧ byteAt s 1 ≤ dd))
      let s := (past.getLast?).getD ((seas.getLast?).getD [])
      byteAt (sliceB b (40 + 8 * byteAt s 2) 8) (weekday z)
  let es := ((List.range 16).map fun j => sliceB b (104 + 64 * prof + 4 * j) 4).filter fun e =>
    (e.getD 3 0).getLsbD 0 && decide (leAt e 0 2 ≤ minute)
  byteAt ((es.getLast?).getD []) 2

/-- The object of calendar `k`. -/
def calendarIx (k : Nat) : Nat := 0x4A00 + 0x10 * k

/-- RATE_SELECTION for meter `m` in the step of tick `b` (07 R242). -/
def selectRate (b m : Nat) (d : Dev) : Dev :=
  let ix := meterIx m + 8
  let cal := d.getB (calendarIx (d.get ix 1 % 4)) 1
  let r := d.meter m
  let rate :=
    if d.get ix 4 ≠ 0 then d.get ix 4
    else if !d.civil.valid then (if r.rated then d.get ix 5 else byteAt cal 5)
    else calendarRate cal (d.localOf (d.civilAt b).1)
  (d.setMeter m { r with rated := true }).set ix 5 rate

/-- CALENDAR_ACTIVATION of calendar `k` (07 R241): due where its time is set and civil time has reached it. -/
def activate (c k : Nat) (d : Dev) : Dev :=
  let ix := calendarIx k
  d.when (d.get ix 3 != 0 && decide (d.get ix 3 ≤ c)) fun d =>
    let at' := d.get ix 3
    let d := ((d.setB ix 1 (d.getB ix 2)).set ix 4 (crc32 (d.getB ix 2))).set ix 3 0
    let d := d.inc ix 6
    { d with bill := { d.bill with lastActivation := setAt d.bill.lastActivation k at' } }

/-! ## Snapshots (07 R252 to R254) -/

/-- The instant of the scheduled snapshot of a month. -/
def Dev.snapIn (d : Dev) (y mo : Nat) : Nat := (d.utcOfLocal y mo (d.get 0x4C00 1) (d.get 0x4C00 2)).toNat

/-- Year and month of the local civil date of a UTC second. -/
def Dev.localMonth (d : Dev) (u : Nat) : Nat × Nat :=
  let z := dateOf (d.localOf u / 86400)
  (z.1, z.2.1)

/-- The month before. -/
def monthBefore (x : Nat × Nat) : Nat × Nat := if x.2 = 1 then (x.1 - 1, 12) else (x.1, x.2 - 1)
/-- The month after. -/
def monthAfter (x : Nat × Nat) : Nat × Nat := if x.2 = 12 then (x.1 + 1, 1) else (x.1, x.2 + 1)

/-- The scheduled snapshot due at civil time `c`: its latest instant, and whether more than one lay in the span (07 R249, R252). -/
def Dev.snapDue (d : Dev) (c : Nat) : Option (Nat × Bool) :=
  if d.get 0x4C00 1 = 0 then none
  else
    let last := d.get 0x4C00 5
    let a := d.localMonth last
    let b := d.localMonth c
    let next := if last < d.snapIn a.1 a.2 then d.snapIn a.1 a.2
      else (let n := monthAfter a; d.snapIn n.1 n.2)
    let latest := if d.snapIn b.1 b.2 ≤ c then d.snapIn b.1 b.2 else (let p := monthBefore b; d.snapIn p.1 p.2)
    if next ≤ c then some (latest, decide (next < latest)) else none

/-- The 1 024-byte snapshot record of meter `m` (07 R254). -/
def snapshotBytes (d : Dev) (m n flags b : Nat) (utc : Nat × Nat) : Bytes :=
  let ix := meterIx m
  let head := natLE 4 n ++ natLE 2 flags ++ natLE 1 m ++ natLE 1 (d.get (ix + 8) 5) ++ natLE 8 b ++ natLE 8 utc.1 ++ natLE 4 utc.2
  let rest := ((List.range 8).flatMap fun u => natLE 12 (d.get (ix + 6) (u + 1)))
    ++ ((List.range 8).flatMap fun r => (List.range 8).flatMap fun u => natLE 8 (d.get (ix + 9 + r) (u + 1)))
    ++ ((List.range 8).flatMap fun r => (d.maxima m r).flatMap (natLE 8))
  head ++ natLE 4 (crc32 (head ++ zeros 4 ++ rest)) ++ rest

/-- Take a snapshot of every meter in the step of tick `b` (07 R253, R254, R246; 08 R268). -/
def takeSnapshot (b flags : Nat) (utc : Nat × Nat) (d : Dev) : Dev :=
  let n := d.bill.nextSnapshot
  let r : StagedRec := { snapshot := n, flags := flags, utc := utc.1, prev := d.get 0x4C00 5 }
  let d := { d with bill := { d.bill with nextSnapshot := n + 1 } }
  let d := each 36 (fun m d => d.stageBlob (0x4C10 + m) (n % 36 + 1) (snapshotBytes d m n flags b utc) r) (d.set 0x4C00 4 n)
  let d := if flags.testBit 0 then d.set 0x4C00 5 utc.1 else d
  let reads := (List.range 36).map fun m =>
    { kind := 4, meter := m, time := b, utc := utc, acc1 := d.get (meterIx m + 6) 1, acc2 := d.get (meterIx m + 6) 2
      session := match tfind d.bill.sessions m with | some s => s.number | none => 0
      snapshot := some n, subject := some (d.getB (0x4C10 + m) (n % 36 + 1)) }
  let d := { d with reads := { d.reads with snaps := d.reads.snaps ++ reads } }
  if flags.testBit 2 then each 36 (fun m d => each 8 (fun r d => d.stageMaxima m r []) d) d else d

/-- Take a lost snapshot again (07 R266): a scheduled one for its instant, a commanded one at the edge of tick `b` (07 R254). -/
def retakeSnapshot (b : Nat) (edge : Nat × Nat) (d : Dev) (x : Nat × Nat × Nat) : Dev :=
  let n := d.bill.nextSnapshot
  let d := takeSnapshot b (setBit (setBit x.2.1 5 true) 4 true) (if x.2.1.testBit 0 then (x.2.2, 0) else edge) d
  d.event 0x0011 0xFF 0 (natLE 4 x.1) (natLE 4 n)

/-- Step 2 of the boundary step: the retaken snapshots, then a scheduled or a commanded one (07 R252, R266). -/
def snapshotStep (b : Nat) (deferred : Bool) (d : Dev) : Dev :=
  let edge := if d.civil.valid then d.civilAt b else (0, 0)
  let d := d.bill.retake.foldl (retakeSnapshot b edge) { d with bill := { d.bill with retake := [] } }
  let sched := if d.civil.valid then d.snapDue edge.1 else none
  let cmd := d.bill.commanded
  match sched, cmd with
  | none, none => d
  | _, _ =>
    let flags := b2n sched.isSome + 2 * b2n cmd.isSome + 4 * b2n (sched.isSome || cmd == some 2)
      + 8 * b2n (match sched with | some x => x.2 | none => false) + 16 * b2n deferred
    let utc := match sched with
      | some x => (x.1, 0)
      | none => edge
    takeSnapshot b flags utc { d with bill := { d.bill with commanded := none } }

/-! ## The boundary step (07 R249 to R251, R263) -/

/-- Whether the subinterval of meter `m` is due by device time at tick `b`: L x 32 000 ticks after it began, while civil time is
invalid (07 R249). -/
def Dev.deviceDue (d : Dev) (m b : Nat) : Bool :=
  !d.civil.valid && decide (d.get (meterIx m + 0x19) 1 + d.subLen m * 32000 ≤ b)

/-- Whether the boundary step waits: under a supply warning (07 R251), and in a pause of metrology (20 R591). -/
def Dev.stepWaits (d : Dev) : Bool := d.supply.hold || d.pausing 3

/-- Step 1 for meter `m`: a subinterval due, or one that a change of its period closes; one that this step opened holds nothing. While civil time
is invalid a step that was held closes the subinterval due by device time first (20 R591). -/
def demandStep (b : Nat) (deferred : Bool) (m : Nat) (d : Dev) : Dev :=
  let r := d.meter m
  let c := (d.civilAt b).1
  let atStep := d.get 0x4A90 7 == b
  match r.closeNow with
  | some old =>
    let d := if d.get (meterIx m + 0x19) 1 = b then d.setMeter m { r with closeNow := none }
      else closeSub m b { utc := if d.civil.valid then c else 0, len := old.1, k := old.2, forced := true, deferred := deferred } d
    let d := d.setMeter m { d.meter m with window := [], last := if d.civil.valid then (d.subInstant m c).toNat else r.last }
    d.setBitO (meterIx m + 8) 6 2 true
  | none =>
    if d.civil.valid then
      match d.subDue m c with
      | some x =>
        let d := closeSub m b { utc := x.1, len := d.subLen m, k := d.get (meterIx m + 8) 3, forced := x.2 || atStep, deferred := deferred, step := x.2 || atStep } d
        d.setMeter m { d.meter m with last := x.1 }
      | none => d
    else if deferred && d.deviceDue m b then
      closeSub m b { len := d.subLen m, k := d.get (meterIx m + 8) 3, forced := true, deferred := true } d
    else d

/-- The steps of 07 R250 in their order for tick `b`. -/
def runStep (b : Nat) (deferred : Bool) (d : Dev) : Dev :=
  let d := each 36 (demandStep b deferred) d
  let d := snapshotStep b deferred d
  let d := if d.civil.valid then each 4 (activate (d.civilAt b).1) d else d
  each 36 (selectRate b) d

/-- Set or clear the deferred mark (07 R230). -/
def Dev.setDeferred (d : Dev) (v : Bool) : Dev :=
  each 36 (fun m d => d.setBitO (meterIx m + 8) 6 1 v) { d with bill := { d.bill with deferred := v } }

/-- Whether a boundary, a command or a closing change is due in the step of tick `b`. -/
def Dev.stepDue (d : Dev) (b : Nat) : Bool :=
  d.bill.commanded.isSome || !d.bill.retake.isEmpty || (List.range 36).any (fun m => (d.meter m).closeNow.isSome || d.deviceDue m b) ||
    (d.civil.valid &&
      ((List.range 36).any (fun m => (d.subDue m (d.civilAt b).1).isSome) || (d.snapDue (d.civilAt b).1).isSome ||
        (List.range 4).any (fun k => d.get (calendarIx k) 3 != 0 && decide (d.get (calendarIx k) 3 ≤ (d.civilAt b).1))))

/-- The boundary step of the tick about to begin: held under a supply warning (07 R251), in a pause of metrology (20 R591) and where its records do not fit in the
free staging memory (07 R263); a step that was held runs with every action marked deferred. -/
def boundaryStep (d : Dev) : Dev :=
  let b := d.effTick
  if d.stepWaits then d.when (d.stepDue b) fun d => d.setDeferred true
  else
    let d := tickReadings d
    let r := runStep b d.bill.deferred (d.when d.bill.deferred fun d => d.setDeferred false)
    if stagingSize < r.staged then d.setDeferred true else r

def execBoundaryStep (s : State) : Out := onDev (fun d => d.when d.running boundaryStep) s

/-- HELD_BOUNDARY_STEP (07 R263): the step held earlier. -/
def execHeldBoundaryStep (s : State) : Out := onDev (fun d => d.when (d.running && d.bill.deferred) boundaryStep) s

/-- SUBINTERVAL_DEVICE_TIME_CLOSE (07 R249): while civil time is invalid the subinterval closes L x 32 000 ticks after it began; held where the boundary step is. -/
def deviceTimeClose (m : Nat) (d : Dev) : Dev :=
  d.when (d.running && d.deviceDue m d.effTick) fun d =>
    if d.stepWaits || d.bill.deferred then d.setDeferred true
    else closeSub m d.effTick { len := d.subLen m, k := d.get (meterIx m + 8) 3, forced := true } d

def execSubintervalDeviceTimeClose (m : Fin 36) (s : State) : Out := onRun (deviceTimeClose m) s

/-! ## Writes -/

/-- The step of the tick of effect, where ticks run. -/
def stepNow (d : Dev) : Dev := d.when d.running boundaryStep

/-- A step of civil time, and the step of its tick of effect (07 R234, R249). -/
def effStepTime (role : Role) (v : Bytes) (d : Dev) : Dev := stepNow (effStep role v d)

def execStepCivilTime (role : Role) (v : Bytes) (s : State) : Out :=
  onDev (fun d => writeObj role 0x4A90 2 (.raw v) (stepRules d v) (effStepTime role v) d) s

/-- The refusals of a billing control write, judged on the values `aft` holds (07 R229). -/
def billingRules (aft : Dev) (m sub : Nat) : Rules :=
  let p := aft.get (meterIx m + 8) 2
  let k := aft.get (meterIx m + 8) 3
  { atRange := if (sub = 2 || sub = 3) && (k = 0 || 60 * p % k != 0) then 8 else 0 }

/-- The effect of a billing control write at tick T (07 R229, R248). -/
def effBilling (role : Role) (m sub v : Nat) (d : Dev) : Dev :=
  let ix := meterIx m + 8
  let d := d.eventEff 0x000A (roleCode role) (subjObj ix sub) (natLE 1 (d.get ix sub)) (natLE 1 v)
  let d := if sub = 2 || sub = 3 then d.setMeter m { d.meter m with closeNow := some (d.subLen m, d.get ix 3) } else d
  stepNow (d.set ix sub v)

def execBillingControlWrite (role : Role) (m : Fin 36) (sub v : Nat) (s : State) : Out :=
  onDev (fun d => writeObj role (meterIx m + 8) sub (.num v) (billingRules (d.set (meterIx m + 8) sub v) m sub)
    (effBilling role m sub v) d) s

/-- The refusals of a passive calendar (07 R239, R240). -/
def calendarRules (v : Bytes) (segmented : Bool) : Rules :=
  { atLen := if segmented then 0 else 0xF, atRange := if calendarOk v then 0 else 8 }

/-- The effect of a passive calendar write (07 R240): event 0x000B with the CRCs, the calendar and its CRC. -/
def effCalendar (role : Role) (k : Nat) (v : Bytes) (d : Dev) : Dev :=
  let ix := calendarIx k
  let d := d.eventEff 0x000B (roleCode role) (subjObj ix 2) (natLE 4 (d.get ix 5)) (natLE 4 (crc32 v))
  (d.setB ix 2 v).set ix 5 (crc32 v)

def execPassiveCalendarWrite (role : Role) (k : Fin 4) (v : Bytes) (s : State) : Out :=
  onDev (writeObj role (calendarIx k) 2 (.raw v) (calendarRules v true) (effCalendar role k v)) s

/-- The effect of a write of the activation time (07 R240, R241). -/
def effActivation (role : Role) (k v : Nat) (d : Dev) : Dev :=
  let ix := calendarIx k
  let d := d.eventEff 0x000A (roleCode role) (subjObj ix 3) (natLE 8 (d.get ix 3)) (natLE 8 v)
  stepNow (d.set ix 3 v)

def execActivationTimeWrite (role : Role) (k : Fin 4) (v : Nat) (s : State) : Out :=
  onDev (writeObj role (calendarIx k) 3 (.num v) {} (effActivation role k v)) s

/-- The refusal of a commanded snapshot (08 R275). -/
def snapshotRules (d : Dev) : Rules := { atRange := if 988 < d.reads.queue.length then 0xE else 0 }

/-- The effect of a commanded snapshot: in the step of its tick of effect (07 R252). -/
def effSnapshot (v : Nat) (d : Dev) : Dev := stepNow { d with bill := { d.bill with commanded := some (max v (d.bill.commanded.getD 0)) } }

def execCommandSnapshot (role : Role) (s : State) : Out :=
  onDev (fun d => writeObj role 0x4C00 3 (.num 1) (snapshotRules d) (effSnapshot 1) d) s
def execCommandSnapshotResetMaxima (role : Role) (s : State) : Out :=
  onDev (fun d => writeObj role 0x4C00 3 (.num 2) (snapshotRules d) (effSnapshot 2) d) s

/-! ## Session records (07 R256 to R259) -/

/-- The vehicle-interface object of outlet `o` (10 R311). -/
def outletIx (o : Nat) : Nat := 0x5000 + 0x20 * o

/-- The 128 bytes of a session record. -/
def sessionBytes (d : Dev) (o : Nat) (x : SessRec) (e : Option SessEnd) : Bytes :=
  let b := sessionBody d o x e
  b ++ natLE 4 (crc32 b)

/-- Open the session record of outlet `o` in the present tick S; its kind-2 reading is captured at the end of the tick (07 R256, 08 R268). -/
def openSession (o : Nat) (d : Dev) : Dev :=
  let v := outletIx o
  let n := d.bill.nextSession
  let x : SessRec := {
    number := n, start := d.now, generation := d.get v 1 % 16, returnOk := d.get v 0xC == 1, invalidAtStart := !d.civil.valid
    utcStart := d.utc, acc1 := d.get (meterIx o + 6) 1, acc2 := d.get (meterIx o + 6) 2
    ident := d.getB (v + 2) 3, identLen := (d.getB (v + 2) 3).length, identKind := d.get (v + 2) 2
    rate := d.get (meterIx o + 8) 5 }
  let d := { d with bill := { d.bill with nextSession := n + 1, sessions := tset d.bill.sessions o x }
                    reads := { d.reads with starts := o :: d.reads.starts } }
  d.setBitO (meterIx o + 8) 6 4 true

/-- Close the session record of outlet `o`: the record in its slot, staged and streamed, with its kind-3 reading (07 R256 to R259,
19 R553). -/
def closeSession (o : Nat) (e : SessEnd) (d : Dev) : Dev :=
  match tfind d.bill.sessions o with
  | none => d
  | some x =>
    let e := { e with reading := d.readingNumber }
    let b := sessionBytes d o x (some e)
    let slot := x.number % 4096
    let d := d.stageBlob (slotIx 0x4E20 slot) (slotSub slot) b { session := x.number }
    let latest := max (d.get 0x4E00 1) x.number
    let d := (d.set 0x4E00 1 latest).set 0x4E00 2 (max 1 (latest + 1 - 4096))
    let d := { d with bill := { d.bill with sessions := tdel d.bill.sessions o
                                            notBefore := tset d.bill.notBefore o ((x.ended.getD d.now) + 1087) } }
    let d := d.setBitO (meterIx o + 8) 6 4 false
    let utc := if e.civilInvalid then d.civilAt e.time else (e.utc, e.frac)
    let d := d.capture { kind := 3, meter := o, time := e.time, utc := utc, acc1 := d.get (meterIx o + 6) 1
                         acc2 := d.get (meterIx o + 6) 2, session := x.number, subject := some b }
    d.stream 2 ⟨0x20, x.number, b⟩

/-- SESSION_RECORD_CLOSE (07 R256; 09 R294): at the end of H4 of tick E + 1 086, or the first tick after a warning or a pause of metrology
(20 R591). -/
def sessionClose (o : Nat) (d : Dev) : Dev :=
  match tfind d.bill.sessions o with
  | some x =>
    (match x.ended with
     | some t => if t + 1086 ≤ d.now && !d.stepWaits then
          closeSession o { reason := x.reason, time := d.now, utc := d.utc, frac := if d.civil.valid then (d.civilAt d.now).2 else 0, civilInvalid := !d.civil.valid } d else d
     | none => d)
  | none => d

def execSessionRecordClose (o : Fin 32) (s : State) : Out := onRun (inH4 (sessionClose o)) s

end Sys2Proof.Machine
end

