-- ==== Sys2Proof/Machine/Loads.lean ====
section
/-! DEFINITION. The protected load-switch channels, their banks and the package dissipation budget (chapter 13). -/
namespace Sys2Proof.Machine

/-- The object of load channel `n`. -/
def loadIx (n : Nat) : Nat := 0x7000 + n
/-- The record of load channel `n`. -/
def Dev.load (d : Dev) (n : Nat) : LoadRec := tget {} d.loads n
/-- The part with the record of load channel `n` set. -/
def Dev.setLoad (d : Dev) (n : Nat) (r : LoadRec) : Dev := { d with loads := tset d.loads n r }
/-- The state of channel `n` (13 R404). -/
def Dev.loadState (d : Dev) (n : Nat) : Nat := d.get (loadIx n) 0x10 % 8
/-- The record of outlet `o`. -/
def Dev.out (d : Dev) (o : Nat) : OutRec := tget {} d.outs o
/-- The part with the record of outlet `o` set. -/
def Dev.setOut (d : Dev) (o : Nat) (r : OutRec) : Dev := { d with outs := tset d.outs o r }
/-- The sequencer step of outlet `o` (10 R326). -/
def Dev.step (d : Dev) (o : Nat) : Nat := d.get (outletIx o + 3) 1
/-- Ask for the end of the session of outlet `o` with reason `r` (10 R328, R331). -/
def Dev.askEnd (d : Dev) (o r : Nat) : Dev := d.setOut o { d.out o with ask := setBit (d.out o).ask r true }

/-- The same for a protection trip in tick `n` (10 R331); a later one does not move an earlier one that the sequencer has still to act on. -/
def Dev.askTrip (d : Dev) (o n : Nat) : Dev :=
  let r := d.out o
  d.setOut o { r with ask := setBit r.ask 0 true, tripped := true, tripAt := if r.ask.testBit 0 then min r.tripAt n else n }

/-- Whether outlet `o` is enabled (10 R343). -/
def Dev.outletEnabled (d : Dev) (o : Nat) : Bool := d.bitO (outletIx o) 1 7

/-- The enabled outlet, or the outlet still draining, that owns channel `n` (13 R412, 10 R334). -/
def Dev.owner (d : Dev) (n : Nat) : Option Nat :=
  (List.range 32).find? fun o => (d.outletEnabled o || d.step o != 0) &&
    (d.get (outletIx o) 2 == n || d.get (outletIx o) 3 == n || d.get (outletIx o) 4 == n)

/-- Put channel `n` into a state; leaving state 0 clears the open-load results (13 R404, R411). -/
def Dev.setLoadState (d : Dev) (n st : Nat) : Dev :=
  let old := d.loadState n
  let ix := loadIx n
  let d := d.set ix 0x10 (setField (d.get ix 0x10) 0 3 st)
  let d := if old = 0 && st != 0 then (d.setBitO ix 0x10 4 false).setBitO ix 0x10 5 false else d
  if old = st then d
  else d.setLoad n { d.load n with offTicks := 0, phaseEnd := 320, pullUp := true, upRes := [], downRes := [], inRamp := st == 4 && (old == 1 || old == 2) }

/-- Channel `n` leaves states 1 to 4 without its sequencer's command: the owning outlet ends (13 R412). -/
def Dev.loadLost (d : Dev) (n st : Nat) : Dev :=
  let was := d.loadState n
  let d := d.setLoadState n st
  if 1 ≤ was && was ≤ 4 && !(1 ≤ st && st ≤ 4) then
    match d.owner n with
    | some o => if 2 ≤ d.step o && d.step o ≤ 6 then d.askEnd o 3 else d
    | none => d
  else d

/-- Whether the bank of channel `n` is in undervoltage. -/
def Dev.bankLow (d : Dev) (n : Nat) : Bool := d.bitO (loadIx n) 0x22 0

/-- Start a ramp of channel `n` from 0 V; under undervoltage it waits and takes its slew when it begins (13 R403, R408). -/
def Dev.loadRamp (d : Dev) (n : Nat) : Dev :=
  let low := d.bankLow n
  let d := d.setLoadState n (if low then 2 else 1)
  d.setLoad n { d.load n with slew := if low then 0 else d.get (loadIx n) 2, reached := 0 }

/-- A paused ramp resumes at its own slew; one that had not begun takes the slew of L.02 (13 R403, R408). -/
def Dev.rampResumes (d : Dev) (n : Nat) : Dev :=
  let d := d.setLoadState n 1
  d.setLoad n { d.load n with slew := if (d.load n).slew = 0 then d.get (loadIx n) 2 else (d.load n).slew }

/-- Command channel `n` on or off (13 R404, R413). -/
def Dev.loadCommand (d : Dev) (n : Nat) (on : Bool) : Dev :=
  if 64 ≤ n then d
  else
    let d := (d.setLoad n { d.load n with on := on }).setBitO (loadIx n) 0x10 3 on
    let st := d.loadState n
    if on then (if st = 0 && d.bitO (loadIx n) 1 0 then d.loadRamp n else d)
    else if 1 ≤ st && st ≤ 4 then d.setLoadState n 0 else d

/-- What a sequencer, the protection or the host asks of channel `n`: it goes out in the command frame, which the Mill die takes once a
restarted part has reclaimed control (09 R302, R303). -/
def Dev.loadOrder (d : Dev) (n : Nat) (on : Bool) : Dev := if d.hold.active then d else d.loadCommand n on

/-- An event source of the Mill die is raised where ticks run: the status frame carries it (01 R21). -/
def Dev.raiseRun (d : Dev) (n : Nat) : Dev := d.when d.ticking fun d => d.raiseEv n

/-- RAMP_COMPLETE (13 R403). -/
def rampComplete (n : Nat) (d : Dev) : Dev := d.when (d.loadState n == 1) fun d => d.setLoadState n 3

def execRampComplete (n : Fin 64) (s : State) : Out := onDev (rampComplete n) s

/-- A thermal turn-off is counted, raises EV80 and is logged (13 R405). -/
def Dev.thermalOff (d : Dev) (n : Nat) : Dev :=
  (d.inc (loadIx n) 0x15).when d.ticking fun e => (e.raiseEv 80).skein
    { kind := 3, ev := some 80, ix := loadIx n, sub := 0x10, before := natLE 2 (d.get (loadIx n) 0x10) }

/-- THERMAL_SHUTDOWN (13 R405): a channel that is on goes to state 5, or in latch mode to state 6. -/
def thermalShutdown (n : Nat) (d : Dev) : Dev :=
  d.when (decide (1 ≤ d.loadState n ∧ d.loadState n ≤ 4)) fun d =>
    let latch := d.bitO (loadIx n) 1 1
    let d := (d.thermalOff n).loadLost n (if latch then 6 else 5)
    d.when latch fun d => d.setBitO (loadIx n) 0x10 8 true

def execThermalShutdown (n : Fin 64) (s : State) : Out := onDev (thermalShutdown n) s

/-- THERMAL_RESTART (13 R405): a full ramp where the channel is still commanded on, else state 0. -/
def thermalRestart (n : Nat) (d : Dev) : Dev :=
  d.when (d.loadState n == 5) fun d => if (d.load n).on then d.loadRamp n else d.setLoadState n 0

def execThermalRestart (n : Fin 64) (s : State) : Out := onDev (thermalRestart n) s

/-- ABSOLUTE_LIMIT (13 R405): off and latched in state 6 with bit 7, in either mode; a shed channel is shed no more (13 R410). -/
def absoluteLimit (n : Nat) (d : Dev) : Dev :=
  let on := decide (1 ≤ d.loadState n ∧ d.loadState n ≤ 4)
  let d := d.when on fun d => d.thermalOff n
  let d := { d with budget := { d.budget with order := d.budget.order.filter (· != n) } }
  (d.loadLost n 6).setBitO (loadIx n) 0x10 7 true

def execAbsoluteLimit (n : Fin 64) (s : State) : Out := onDev (absoluteLimit n) s

/-- CURRENT_LIMIT_ENTRY (13 R406), in a ramp, paused or not, and in the on state (13 R408). -/
def limitEntry (n : Nat) (d : Dev) : Dev :=
  d.when (decide (1 ≤ d.loadState n ∧ d.loadState n ≤ 3)) fun d => (d.setLoadState n 4).inc (loadIx n) 0x16

def execCurrentLimitEntry (n : Fin 64) (s : State) : Out := onDev (limitEntry n) s

/-- CURRENT_LIMIT_EXIT (13 R406, R408): back to the ramp it interrupted, which undervoltage pauses, else fully on. -/
def limitExit (n : Nat) (d : Dev) : Dev :=
  d.when (d.loadState n == 4) fun d =>
    if (d.load n).inRamp then
      let d := if d.bankLow n then d.setLoadState n 2 else d.rampResumes n
      d.setLoad n { d.load n with inRamp := false, reached := d.get (loadIx n) 0x12 }
    else d.setLoadState n 3

def execCurrentLimitExit (n : Fin 64) (s : State) : Out := onDev (limitExit n) s

/-- BANK_UNDERVOLTAGE_ENTRY (13 R408). -/
def bankEntry (b : Nat) (d : Dev) : Dev :=
  d.when (!d.bankLow (8 * b)) fun d =>
    (each 8 (fun i d =>
      let n := 8 * b + i
      let d := (d.setBitO (loadIx n) 0x22 0 true).inc (loadIx n) 0x23
      if d.loadState n = 1 then (d.setLoadState n 2).setLoad n { (d.setLoadState n 2).load n with reached := d.get (loadIx n) 0x12 } else d) d).raiseRun 82

def execBankUndervoltageEntry (b : Fin 8) (s : State) : Out := onDev (bankEntry b) s

/-- BANK_UNDERVOLTAGE_EXIT (13 R408): paused ramps resume. -/
def bankExit (b : Nat) (d : Dev) : Dev :=
  d.when (d.bankLow (8 * b)) fun d =>
    (each 8 (fun i d =>
      let n := 8 * b + i
      let d := d.setBitO (loadIx n) 0x22 0 false
      if d.loadState n = 2 then d.rampResumes n else d) d).raiseRun 82

def execBankUndervoltageExit (b : Fin 8) (s : State) : Out := onDev (bankExit b) s

/-! ## The package budget (13 R409, R410) -/

/-- Set the package objects, which read the same in all 64 channels. -/
def Dev.setPackage (d : Dev) (sub v : Nat) : Dev := each 64 (fun n d => d.set (loadIx n) sub v) d

/-- The budget for a temperature in 0.1 °C. -/
def budgetOf (t : Int) : Nat := if t ≤ 1050 then 6000 else if t ≤ 1450 then (6000 - 15 * (t - 1050)).toNat else 0

/-- Whether m exceeds B. -/
def Dev.overBudget (d : Dev) : Bool := decide ((d.budget.limit : Int) * 2 ^ 15 < d.budget.mean)

/-- What the Mill die measures of channel `n` in a tick. -/
def loadDiag (f : StatusFrame) (n : Nat) : LoadDiag := f.loads.getD n { volt := 0, curr := 0, temp := 0 }

/-- The dissipation of all channels, mW (13 R409): a channel above its bank's supply counts negative. -/
def dissipation (f : StatusFrame) : Int :=
  sumI ((List.range 64).map fun n => ((loadDiag f n).curr : Int) * (((f.banks.getD (n / 8) (0, 0)).1 : Int) - (loadDiag f n).volt)) / 100

/-- The mean, the budget and the run below 0.8 of it, in every tick of the Mill die (13 R409, R410). -/
def budgetTick (f : StatusFrame) (d : Dev) : Dev :=
  let b := budgetOf ((f.banks.map Prod.snd).foldl max 0)
  let m := d.budget.mean + (dissipation f * 2 ^ 15 - d.budget.mean) / 2 ^ 15
  let under := if 10 * m < 8 * (b : Int) * 2 ^ 15 then d.budget.under + 1 else 0
  { d with budget := { d.budget with mean := m, limit := b, under := under, since := d.budget.since + 1 } }

/-- The ticks of channels in state 0 (13 R411). -/
def offTick (d : Dev) : Dev :=
  each 64 (fun n d => d.setLoad n { d.load n with offTicks := if d.loadState n = 0 then (d.load n).offTicks + 1 else 0 }) d

/-- A tick of the Mill die whose Loom die does not tick: the monitor and the channels go on (13 R410; 09 R298). -/
def millTick (f : StatusFrame) (d : Dev) : Dev := budgetTick f (offTick d)

/-- The diagnostics of the status frame (13 R409, R414). -/
def loadDiagnostics (f : StatusFrame) (d : Dev) : Dev :=
  let d := each 64 (fun n d =>
    let x := loadDiag f n
    let b := f.banks.getD (n / 8) (0, 0)
    let ix := loadIx n
    let d := ((d.set ix 0x11 x.curr).set ix 0x12 x.volt).setS 16 ix 0x13 x.temp
    let d := (d.set ix 0x14 (min 65535 (x.curr * (b.1 - x.volt) / 100))).set ix 0x20 b.1
    let d := d.setS 16 ix 0x21 b.2
    d.setBitO ix 0x10 6 (d.owner n).isSome) d
  let d := millTick f d
  let d := (d.setPackage 0x30 d.budget.limit).setPackage 0x31 (d.budget.mean / 2 ^ 15).toNat
  let d := d.setPackage 0x32 (maskOf ((List.range 64).map fun n => d.budget.order.contains n))
  d.when (!d.overBudget) fun d => d.setPackage 0x34 0

/-- Whether channel `n` is sheddable (13 R410). -/
def Dev.sheddable (d : Dev) (n : Nat) : Bool :=
  decide (1 ≤ d.loadState n ∧ d.loadState n ≤ 4) && field (d.get (loadIx n) 1) 4 3 != 0 && (d.owner n).isNone &&
    decide (d.get 0x2110 (n + 1) % 4 ≤ 1)

/-- The channel to be shed: the lowest rank, then the highest number. -/
def Dev.shedNext (d : Dev) : Option Nat :=
  (List.range 64).foldl (fun (a : Option Nat) n =>
    if d.sheddable n then
      match a with
      | some x => if field (d.get (loadIx n) 1) 4 3 ≤ field (d.get (loadIx x) 1) 4 3 then some n else some x
      | none => some n
    else a) none

/-- BUDGET_SHED (13 R410). -/
def budgetShed (d : Dev) : Dev :=
  d.when (d.overBudget && decide (3200 ≤ d.budget.since)) fun d =>
    match d.shedNext with
    | some n =>
      let d := d.setLoadState n 7
      let d := { d with budget := { d.budget with order := n :: d.budget.order, since := 0 } }
      ((d.setPackage 0x32 (setBit (d.get (loadIx 0) 0x32) n true)).setPackage 0x33 (satAdd 32 (d.get (loadIx 0) 0x33) 1)).raiseRun 83
    | none => d.setPackage 0x34 1

def execBudgetShed (s : State) : Out := onDev budgetShed s

/-- BUDGET_RESTORE (13 R410). -/
def budgetRestore (d : Dev) : Dev :=
  match d.budget.order with
  | n :: rest =>
    d.when (decide (32000 ≤ d.budget.under ∧ 3200 ≤ d.budget.since)) fun d =>
      let d := { d with budget := { d.budget with order := rest, since := 0 } }
      let d := d.when (d.loadState n == 7) fun d => if (d.load n).on then d.loadRamp n else d.setLoadState n 0
      ((d.setPackage 0x32 (setBit (d.get (loadIx 0) 0x32) n false)).setPackage 0x33 (satAdd 32 (d.get (loadIx 0) 0x33) 1)).raiseRun 83
  | [] => d

def execBudgetRestore (s : State) : Out := onDev budgetRestore s

/-! ## Open-load detection (13 R411) -/

/-- Two equal results of a kind. -/
def agreed : List Bool → Option Bool
  | a :: b :: _ => if a = b then some a else none
  | _ => none

/-- OPEN_LOAD_TEST_PHASE: the end of a phase of 16 ticks, the output above the threshold or not. -/
def openLoadPhase (n : Nat) (above : Bool) (d : Dev) : Dev :=
  let ix := loadIx n
  d.when (d.bitO ix 1 2 && d.loadState n == 0 && decide ((d.load n).phaseEnd + 16 ≤ (d.load n).offTicks)) fun d =>
    let r := { d.load n with phaseEnd := (d.load n).offTicks }
    let r := if r.pullUp then { r with upRes := push 2 above r.upRes, pullUp := false }
      else { r with downRes := push 2 above r.downRes, pullUp := true }
    let d := d.setLoad n r
    match agreed r.upRes, agreed r.downRes with
    | some true, some false => if d.bitO ix 0x10 4 then d else (d.setBitO ix 0x10 4 true).raiseRun 81
    | some true, some true => if d.bitO ix 0x10 5 then d else (d.setBitO ix 0x10 5 true).raiseRun 81
    | _, _ => d

def execOpenLoadTestPhase (n : Fin 64) (above : Bool) (s : State) : Out := onDev (openLoadPhase n above) s

/-! ## Writes (13 R407, R412, R413) -/

/-- The refusals of a write to L.`sub`. -/
def loadRules (d : Dev) (role : Role) (n sub v : Nat) : Rules :=
  let ix := loadIx n
  if sub = 3 then { atRange := if (d.owner n).isSome || (v = 1 && !d.bitO ix 1 0) then 8 else 0 }
  else if sub = 1 then
    { atRange := match d.owner n with
        | some o => if d.step o = 0 then 0 else 8
        | none => 0 }
  else if sub = 0x17 && v = 1 then
    { atLife := if d.bitO ix 0x10 7 && !(role == .S && d.inService) then 4 else 0
      atRange := if !(d.load n).on && decide (d.getS 16 ix 0x13 < 1500) then 0 else 8 }
  else {}

/-- The effect of a write to L.`sub`; a change of bit 2 of L.01 begins the open-load test anew (13 R411). -/
def effLoad (n sub v : Nat) (d : Dev) : Dev :=
  let ix := loadIx n
  if sub = 3 then (d.set ix 3 v).loadOrder n (v == 1)
  else if sub = 1 then
    let anew := d.bitO ix 1 2 != v.testBit 2
    let d := d.set ix 1 v
    let d := d.when anew fun d => d.setLoad n { d.load n with pullUp := true, phaseEnd := max 320 (d.load n).offTicks, upRes := [], downRes := [] }
    let d := if d.loadState n = 5 && v.testBit 1 then (d.setLoadState n 6).setBitO ix 0x10 8 true else d
    if v.testBit 0 then d else (d.set ix 3 0).loadOrder n false
  else if sub = 0x17 then
    if v = 1 && d.loadState n = 6 then ((d.setLoadState n 0).setBitO ix 0x10 7 false).setBitO ix 0x10 8 false else d
  else d.set ix sub v

/-- A write to L.`sub` of channel `n`. -/
def writeLoad (role : Role) (n sub v : Nat) (d : Dev) : Dev :=
  writeObj role (loadIx n) sub (.num v) (loadRules d role n sub v) (effLoad n sub v) d

def execLoadChannelCommand (role : Role) (n : Fin 64) (v : Nat) (s : State) : Out := onDev (writeLoad role n 3 v) s
def execLoadChannelConfiguration (role : Role) (n : Fin 64) (sub v : Nat) (s : State) : Out := onDev (writeLoad role n sub v) s
def execLoadClearLatch (role : Role) (n : Fin 64) (v : Nat) (s : State) : Out := onDev (writeLoad role n 0x17 v) s

end Sys2Proof.Machine
end

