-- ==== Sys2Proof/Machine/Protect.lean ====
section
/-! DEFINITION. Earth-fault and insulation protection: power groups, comparators, residual current, limits, insulation, trips and
their clearing (chapter 11). -/
namespace Sys2Proof.Machine

/-- The protection object of outlet `o`. -/
def protIx (o : Nat) : Nat := 0x6000 + o
/-- The insulation object of outlet `o`. -/
def insIx (o : Nat) : Nat := 0x6100 + o
/-- The protection record of outlet `o`. -/
def Dev.prot (d : Dev) (o : Nat) : ProtRec := tget {} d.prots o
/-- The part with the protection record of outlet `o` set. -/
def Dev.setProt (d : Dev) (o : Nat) (r : ProtRec) : Dev := { d with prots := tset d.prots o r }
/-- The record of group `g`. -/
def Dev.grp (d : Dev) (g : Nat) : GroupRec := tget {} d.groups g
/-- The part with the record of group `g` set. -/
def Dev.setGrp (d : Dev) (g : Nat) (r : GroupRec) : Dev := { d with groups := tset d.groups g r }
/-- Whether outlet `o` holds a trip. -/
def Dev.tripHeld (d : Dev) (o : Nat) : Bool := d.bitO (protIx o) 0x12 0
/-- The outlets of group `g` (11 R347). -/
def Dev.groupOutlets (d : Dev) (g : Nat) : List Nat := (List.range 32).filter fun o => d.get (protIx o) 1 == g
/-- Whether outlet `o` is in steps `a` to `b`. -/
def Dev.stepIn (d : Dev) (o a b : Nat) : Bool := decide (a ≤ d.step o ∧ d.step o ≤ b)
/-- The generation code of outlet `o`: that of the session in steps 2 to 9, else the configured one (10 R311, R334). -/
def Dev.code (d : Dev) (o : Nat) : Nat := if 2 ≤ d.step o then (d.out o).code else d.get (outletIx o) 1 % 16

/-! ## Trips (11 R364, R365, R367) -/

/-- The event of a cause: EV50 for a residual cause, EV53 for any other. -/
def tripEvent (bit : Nat) : Nat := if 1 ≤ bit && bit ≤ 3 then 50 else 53

/-- OUTLET_TRIP of outlet `o` at tick `n` by the cause of status bit `bit`; the sequencers of the outlet and of its group go to step 7 in tick
`n` + 1. -/
def tripOutlet (o n bit : Nat) (d : Dev) : Dev :=
  let ix := protIx o
  if d.tripHeld o then
    (d.when (d.get ix 0x14 == n) fun d => d.raiseEv (tripEvent bit)).setBitO ix 0x12 bit true
  else
    let before := d.get ix 0x12
    let d := ((d.setBitO ix 0x12 0 true).setBitO ix 0x12 bit true).inc ix 0x13
    let r := d.prot o
    let third := match r.trips with
      | _ :: t :: _ => decide (n ≤ t + 2764800000)
      | _ => false
    let d := d.when third fun d => d.setBitO ix 0x12 11 true
    let d := d.setProt o { r with trips := push 2 n r.trips }
    let d := (d.set ix 0x14 n).raiseEv (tripEvent bit)
    let d := d.skein { kind := 2, ev := some (tripEvent bit), ix := ix, sub := 0x12, before := natLE 2 before, after := natLE 2 (d.get ix 0x12) }
    let d := d.setOut o { d.out o with current := 0 }
    let d := d.when (d.code o == 1) fun d => d.loadOrder (d.get (outletIx o) 2) false
    let d := d.when (d.stepIn o 2 6) fun d => d.askTrip o n
    let g := d.get ix 1
    if g < 8 then eachN ((d.groupOutlets g).filter fun p => p != o && d.stepIn p 2 6) (fun p d => d.askTrip p n) d else d

/-! ## Comparators (11 R350 to R353) -/

/-- A level of 0.5 mV at the input of comparator OCg: its output with 5 mV of hysteresis, and the latch with the permit removed. -/
def ocInput (g : Nat) (x : Int) (d : Dev) : Dev :=
  let ix := protIx g
  let p : Int := 4 * d.get ix 0x20
  let q : Int := 4 * d.get ix 0x21
  let r := d.grp g
  let beyond := decide (p < x ∨ x < -q)
  let out := beyond || (r.out && decide (p - 10 < x ∨ x < -(q - 10)))
  let new := beyond && !d.bitO ix 0x23 0
  let inBand := decide (x.natAbs ≤ 2 * d.get 0x2111 (g + 1))
  let d := d.setGrp g { r with out := out, unseen := r.unseen || new, zeroRun := if inBand then r.zeroRun else 0 }
  let d := d.setBitO ix 0x23 1 out
  d.when beyond fun d => (d.setBitO ix 0x23 0 true).setBitO ix 0x23 2 false

/-- COMPARATOR_TRIP (11 R351, R352): in the Mill die, whether the Loom die runs or not. -/
def execComparatorTrip (g : Fin 8) (level : Int) (s : State) : Out :=
  onDev (fun d => d.when (d.loom != .unpowered) (ocInput g level)) s

/-- The comparator inputs of a status frame: the comparators, the zero band and 0x6000+g.24 (11 R353, R366). -/
def ocFrame (f : StatusFrame) (d : Dev) : Dev :=
  each 8 (fun g d =>
    let x := f.oc.getD g 0
    let d := (ocInput g x d).setS 16 (protIx g) 0x24 x
    let r := d.grp g
    let inBand := decide (x.natAbs ≤ 2 * d.get 0x2111 (g + 1))
    d.setGrp g { r with zeroRun := if inBand then r.zeroRun + 1 else 0 }) d

/-- COMPARATOR_LATCH_SEEN in H3 (11 R352). -/
def latchSeen (g : Nat) (d : Dev) : Dev :=
  d.when (d.grp g).unseen fun d =>
    let d := d.setGrp g { d.grp g with unseen := false }
    let d := eachN ((d.groupOutlets g).filter fun o => d.stepIn o 2 6) (fun o d => tripOutlet o d.now 5 d) d
    ((d.inc (protIx g) 0x25).raiseEv (56 + g)).skein { kind := 2, ev := some (56 + g), ix := protIx g, sub := 0x23 }

/-! ## Residual current (11 R354, R355, R358) -/

/-- Length of the residual window. -/
def residualW (d : Dev) (o : Nat) : Nat := if d.get (0x34C0 + d.get (meterIx o) 5) 2 = 0 then 640 else 533

/-- Sum and sum of squares over the latest `w` samples. -/
def windowSums (w : Nat) (win : List CalSample) : Int × Nat :=
  (win.take w).foldl (fun (a : Int × Nat) x => (a.1 + x.y, a.2 + x.y.natAbs ^ 2)) (0, 0)

/-- Level in µA of band entry `i` (4 to 9 of 0x6000+o). -/
def bandLevel (d : Dev) (o i : Nat) : Nat := 10 * field (d.get (protIx o) i) 0 20
/-- Delay in ms of band entry `i`. -/
def bandDelay (d : Dev) (o i : Nat) : Nat := field (d.get (protIx o) i) 20 12

/-- Whether the mean magnitude is at or above `num / den` of the level `l`. -/
def dcAbove (s1 : Int) (w l num den : Nat) : Bool := decide (l * w * 2 ^ 20 * num ≤ s1.natAbs * 10 ^ 6 * den)
/-- Whether the RMS without DC is at or above `num / den` of the level `l`. -/
def acAbove (s1 : Int) (s2 w l num den : Nat) : Bool :=
  decide ((l * w * num) ^ 2 * 2 ^ 40 ≤ (w * s2 - s1.natAbs ^ 2) * 10 ^ 12 * den ^ 2)

/-- Whether the window holds W valid samples. -/
def Dev.windowFull (d : Dev) (o : Nat) : Bool :=
  let w := (d.prot o).win.take (residualW d o)
  w.length == residualW d o && w.all CalSample.valid

/-- Residual-current detection of outlet `o` in H3 (11 R355). -/
def residualTick (o : Nat) (d : Dev) : Dev :=
  let ix := protIx o
  let c := d.get ix 2
  if d.get ix 3 = 1 && c < 288 then
    let r := d.prot o
    let w := residualW d o
    let win := push 640 (d.sample c) r.win
    let s := windowSums w win
    let testing := decide (d.now < r.quiet)
    let passes := ((List.range 3).map fun b => dcAbove s.1 w (bandLevel d o (4 + b)) 1 1) ++
      ((List.range 3).map fun b => acAbove s.1 s.2 w (bandLevel d o (7 + b)) 1 1)
    let counts := if testing then [0, 0, 0, 0, 0, 0]
      else List.zipWith (fun p k => if p then k + 1 else k - 1) passes r.counts
    let d := d.setProt o { r with win := win, counts := counts }
    let d := (d.setS 32 ix 0x10 (tdivI (s.1 * 10 ^ 6) ((w * 2 ^ 20 : Nat) : Int))).set ix 0x11
      (isqrt ((w * s.2 - s.1.natAbs ^ 2) * 10 ^ 12 / (w ^ 2 * 2 ^ 40)))
    let hit := fun i => decide (bandDelay d o (4 + i) * 32 ≤ counts.getD i 0)
    let d := d.when (!testing && (hit 0 || hit 1 || hit 2)) (tripOutlet o d.now 1)
    let d := d.when (!testing && (hit 3 || hit 4 || hit 5)) (tripOutlet o d.now 2)
    d.when (d.chan c).satMain (tripOutlet o d.now 3)
  else d

/-- The DC level and the AC level of outlet `o` are both below half of band 1 (11 R367). -/
def levelsLow (d : Dev) (o : Nat) : Bool :=
  if d.get (protIx o) 3 = 1 then
    let w := residualW d o
    let s := windowSums w (d.prot o).win
    !(dcAbove s.1 w (bandLevel d o 4) 1 2) && !(acAbove s.1 s.2 w (bandLevel d o 7) 1 2)
  else true

/-- SELF_TEST_START of outlet `o` in the present tick (11 R358). -/
def selfTestStart (o : Nat) (d : Dev) : Dev :=
  d.setProt o { d.prot o with selfTest := some d.now, firstDone := false, selfDone := false, counts := [0, 0, 0, 0, 0, 0], quiet := d.now + 6400 }

/-- A failed self-test: the outlet stays in step 1, its start permit is cleared, and a trip with the self-test cause is held. -/
def selfTestFail (o : Nat) (d : Dev) : Dev :=
  let d := d.setProt o { d.prot o with selfTest := none, firstDone := false }
  (tripOutlet o d.effTick 10 (d.set (outletIx o + 2) 1 0)).raiseEv 54

/-- SELF_TEST_FIRST_CHECK at T + 3 200 (11 R358): the output goes off; the DC mean is at least half of the test current. -/
def selfTestFirst (o : Nat) (d : Dev) : Dev :=
  let r := d.prot o
  match r.selfTest with
  | some t =>
    if !r.firstDone && t + 3200 ≤ d.effTick then
      let w := residualW d o
      if dcAbove (windowSums w r.win).1 w (d.get (protIx o) 0xE) 1 2 then d.setProt o { r with firstDone := true } else selfTestFail o d
    else d
  | none => d

def execSelfTestFirstCheck (o : Fin 32) (s : State) : Out := onRun (selfTestFirst o) s

/-- SELF_TEST_SECOND_CHECK at T + 6 400: the DC mean is below half the DC 1 level. -/
def selfTestSecond (o : Nat) (d : Dev) : Dev :=
  let r := d.prot o
  match r.selfTest with
  | some t =>
    if r.firstDone && t + 6400 ≤ d.effTick then
      let w := residualW d o
      if dcAbove (windowSums w r.win).1 w (bandLevel d o 4) 1 2 then selfTestFail o d
      else d.setProt o { r with selfTest := none, firstDone := false, selfDone := true }
    else d
  | none => d

def execSelfTestSecondCheck (o : Fin 32) (s : State) : Out := onRun (selfTestSecond o) s

/-! ## Limits and invalid samples (11 R363) -/

/-- The element current channels of outlet `o`, with their element. -/
def Dev.currentChannels (d : Dev) (o : Nat) : List (Nat × Nat) :=
  (bitsOf 4 (d.get (meterIx o) 2)).map fun e => (e, d.get (meterIx o + 1 + e) 2)

/-- The limit and validity checks of outlet `o` in steps 2 to 6. -/
def limitTick (o : Nat) (d : Dev) : Dev :=
  if d.stepIn o 2 6 then
    let ix := protIx o
    let cur := d.currentChannels o
    let vc := d.get (outletIx o) 6
    let k := d.get ix 0xC
    let r := d.prot o
    let r := cur.foldl (fun (r : ProtRec) x =>
      let hi := decide (64 * d.get ix 0xA < (d.sample x.2).y.natAbs)
      { r with above := setAt r.above x.1 (if hi then r.above.getD x.1 0 + 1 else 0) }) r
    let r := if vc < 288 then
        { r with above := setAt r.above 4 (if 256 * d.get ix 0xB < (d.sample vc).y.natAbs then r.above.getD 4 0 + 1 else 0) } else r
    let bad := (cur.any fun x => !(d.sample x.2).valid) || (decide (vc < 288) && !(d.sample vc).valid)
      || (d.get ix 3 == 1 && !(d.sample (d.get ix 2)).valid)
    let d := d.setProt o r
    let d := d.when bad (tripOutlet o d.now 4)
    let d := d.when ((r.above.take 4).any fun n => decide (k ≤ n)) (tripOutlet o d.now 6)
    d.when (decide (k ≤ r.above.getD 4 0)) (tripOutlet o d.now 7)
  else d.setProt o { d.prot o with above := [0, 0, 0, 0, 0] }

/-- The protection limit of outlet `o` (11 R363). -/
def Dev.protLimit (d : Dev) (o : Nat) : Nat := if d.tripHeld o then 0 else 7 * d.get (protIx o) 0xA / 8

/-! ## Insulation (11 R359 to R362) -/

/-- Rated voltage of outlet `o`, V. -/
def Dev.ratedV (d : Dev) (o : Nat) : Nat := field (d.get (outletIx o) 8) 20 12

/-- The vehicle's request of outlet `o`: current and voltage in 2^-4 A and V (10 R325). -/
def Dev.vehicleRequest (d : Dev) (o : Nat) : Nat × Nat :=
  let r := d.out o
  let c := d.code o
  if c = 5 || c = 6 then (r.reqI, r.reqV)
  else if c = 1 then (field (d.get (outletIx o) 8) 0 20, 16 * d.ratedV o)
  else (field (d.get (outletIx o + 1) 5) 0 32, field (d.get (outletIx o + 1) 5) 32 32)

/-- The test voltage of step 3, 2^-4 V. -/
def Dev.testVoltage (d : Dev) (o : Nat) : Nat := min (16 * d.ratedV o) (d.vehicleRequest o).2

/-- Whether the monitor of outlet `o` runs. -/
def Dev.insRuns (d : Dev) (o : Nat) : Bool := d.get (insIx o) 1 == 1 && d.stepIn o 3 7

/-- Ticks of a state of a measurement. -/
def Dev.insTicks (d : Dev) (o : Nat) : Nat := 32 * d.get (insIx o) 6

/-- The monitor's work in H3: the sums over the last 3 200 samples of the state, the band of the test voltage. -/
def insTick (o : Nat) (d : Dev) : Dev :=
  let r := d.prot o
  let runs := d.insRuns o
  let d := d.setBitO (insIx o) 0xD 4 runs
  if !runs then d.setProt o { r with ins := { passed := r.ins.passed && d.step o == 3 } }
  else
    let i := if r.ins.state = 0 then { r.ins with state := 1, start := d.now, inBand := true, faults := 0, passed := false } else r.ins
    let v := (d.sample (d.get (outletIx o) 6)).y.natAbs
    let t := 256 * d.testVoltage o
    let i := { i with inBand := i.inBand && decide (95 * t ≤ 100 * v ∧ 100 * v ≤ 105 * t) }
    let i := if i.start + d.insTicks o ≤ d.now + 3200 && d.now < i.start + d.insTicks o then
        { i with vp := i.vp + (d.sample (d.get (insIx o) 2)).y, vn := i.vn + (d.sample (d.get (insIx o) 3)).y } else i
    d.setProt o { r with ins := i }

/-- INSULATION_STATE_SWITCH (11 R360): after t_s the resistor moves to DC-. -/
def insSwitch (o : Nat) (d : Dev) : Dev :=
  let r := d.prot o
  let i := r.ins
  d.when (i.state == 1 && decide (i.start + d.insTicks o ≤ d.effTick)) fun d =>
    d.setProt o { r with ins := { i with state := 2, start := d.effTick, vp1 := i.vp, vn1 := i.vn, vp := 0, vn := 0 } }

def execInsulationStateSwitch (o : Fin 32) (s : State) : Out := onRun (insSwitch o) s

/-- A resistance held to the 32-bit range, infinite where the divisor is not positive. -/
def resistance (rm : Nat) (det div : Int) : Nat := if div ≤ 0 then 0xFFFFFFFF else min 0xFFFFFFFF ((rm : Int) * det / div).toNat

/-- INSULATION_MEASUREMENT (11 R360 to R362): the end of a measurement. -/
def insMeasure (o : Nat) (d : Dev) : Dev :=
  let r := d.prot o
  let i := r.ins
  let ix := insIx o
  if i.state = 2 && i.start + d.insTicks o ≤ d.effTick then
    let u1 := i.vp1 - i.vn1
    let u2 := i.vp - i.vn
    let det := i.vp1 * i.vn - i.vn1 * i.vp
    let next : InsRec := { i with state := 1, start := d.effTick, vp := 0, vn := 0, inBand := true }
    let low := decide (u1 < 50 * 4096 * 3200)
    if low || decide ((u1.natAbs : Int) < (u2 - u1).natAbs * 50 ∨ det ≤ 0) then
      ((d.setProt o { r with ins := next }).setBitO ix 0xD 2 low).setBitO ix 0xD 3 (!low)
    else
      let rm := d.get ix 4
      let rp := resistance rm det (-i.vn * u1)
      let rn := resistance rm det (i.vp1 * u2)
      let riso := if rp = 0xFFFFFFFF then rn else if rn = 0xFFFFFFFF then rp else rp * rn / max 1 (rp + rn)
      let ur := d.ratedV o
      let lvl := if d.get ix 7 * ur < riso then 1 else if d.get ix 8 * ur < riso then 2 else 3
      let faults := if lvl = 3 then i.faults + 1 else 0
      let old := d.get ix 0xD % 4
      let three := d.step o == 3
      let confirmed := lvl == 3 && decide (d.get ix 9 ≤ faults)
      let d := ((d.set ix 0xA rp).set ix 0xB rn).set ix 0xC riso
      let d := ((d.setBitO ix 0xD 2 false).setBitO ix 0xD 3 false).inc ix 0xE
      let d := d.when (lvl != 3 || confirmed) fun d => d.set ix 0xD (setField (d.get ix 0xD) 0 2 lvl)
      let d := d.when (lvl == 2 && old != 2) fun d => d.raiseEv 51
      let d := d.setProt o { r with ins := { next with faults := faults, passed := i.passed || (three && lvl != 3 && i.inBand) } }
      let d := d.when (lvl == 3 && three) (tripOutlet o d.effTick 9)
      d.when confirmed fun d => (tripOutlet o d.effTick 8 d).raiseEv 52
  else d

def execInsulationMeasurement (o : Fin 32) (s : State) : Out := onRun (insMeasure o) s

/-- PROTECTION_CHECKS: H3 of a tick (11 R352 to R363). -/
def protectionTick (d : Dev) : Dev :=
  let d := each 8 latchSeen d
  let d := each 32 residualTick d
  let d := each 32 limitTick d
  each 32 insTick d

/-! ## Writes (11 R366 to R368) -/

/-- The active Whorl pair, 3 where there is none (12 R389). -/
def Dev.activePair (d : Dev) : Nat := d.get 0x6800 0x40 % 4

/-- Whether the active Whorl pair may clear a comparator latch (11 R366; log entry 44). -/
def latchClearable (d : Dev) (g : Nat) : Bool :=
  d.activePair != 3 && !(d.grp g).out && decide (64 ≤ (d.grp g).zeroRun) && (d.groupOutlets g).all fun o => !d.stepIn o 2 6

/-- Whether a held trip may be cleared, role and state apart (11 R367). -/
def tripClearable (d : Dev) (o : Nat) : Bool := decide (d.step o ≤ 1) && levelsLow d o

/-- Whether every outlet is in step 0 or 1 (11 R368). -/
def Dev.allIdle (d : Dev) (os : List Nat) : Bool := os.all fun p => decide (d.step p ≤ 1)

/-- Whether the residual channel a write names is a mode-1 channel of type 4 in `aft` (11 R354, R369). -/
def residualTyped (aft : Dev) (c : Nat) : Bool := decide (288 ≤ c) || (aft.chanIs 4 c && aft.get (0x3000 + c) 1 == 1)

/-- The refusals of a write to 0x6000+o.`sub`; the residual channel is judged on what `aft` holds. -/
def protRules (d aft : Dev) (role : Role) (o sub v : Nat) : Rules :=
  let ix := protIx o
  if sub = 0x15 then
    if v = 1 then
      { atLife := if d.bitO ix 0x12 11 && !(role == .S && d.inService) then 4 else 0
        atRange := if tripClearable d o then 0 else 8 }
    else {}
  else if sub = 0x26 then { atRange := if v = 1 && !latchClearable d o then 8 else 0 }
  else if 0x20 ≤ sub then { atRange := if d.allIdle (d.groupOutlets o) then 0 else 8 }
  else { atRange := if d.allIdle [o] && (sub != 2 || residualTyped aft v) && residualOk aft then 0 else 8 }

/-- Clear the held trip and its causes. -/
def clearTrip (o : Nat) (d : Dev) : Dev := d.set (protIx o) 0x12 0

/-- Discard the measurement, band counts and self-test of outlet `o` (11 R368). -/
def discardProt (o : Nat) (d : Dev) : Dev := d.setProt o { trips := (d.prot o).trips }

/-- The effect of a write to 0x6000+o.`sub`: a change discards what is under way (11 R368). -/
def effProt (o sub v : Nat) (d : Dev) : Dev :=
  let ix := protIx o
  if sub = 0x15 then (if v = 1 then clearTrip o d else d)
  else if sub = 0x26 then (if v = 1 then (d.setBitO ix 0x23 0 false).setGrp o { d.grp o with unseen := false } else d)
  else if 0x20 ≤ sub then eachN (d.groupOutlets o) discardProt (d.set ix sub v)
  else discardProt o (d.set ix sub v)

/-- A write to 0x6000+o.`sub`. -/
def writeProt (role : Role) (o sub v : Nat) (d : Dev) : Dev :=
  writeObj role (protIx o) sub (.num v) (protRules d (d.set (protIx o) sub v) role o sub v) (effProt o sub v) d

/-- The refusals of a write to 0x6100+o.`sub`; channel types and the order of the thresholds are judged on what `aft` holds (11 R372). -/
def insRules (d aft : Dev) (o sub v : Nat) : Rules :=
  let typed := !(sub == 2 || sub == 3) || decide (288 ≤ v) || aft.chanIs 0 v
  { atRange := if d.allIdle [o] && typed && decide (aft.get (insIx o) 8 ≤ aft.get (insIx o) 7) then 0 else 8 }

/-- The effect of a write to 0x6100+o.`sub`. -/
def effIns (o sub v : Nat) (d : Dev) : Dev := discardProt o (d.set (insIx o) sub v)

/-- A write to 0x6100+o.`sub`. -/
def writeIns (role : Role) (o sub v : Nat) (d : Dev) : Dev :=
  writeObj role (insIx o) sub (.num v) (insRules d (d.set (insIx o) sub v) o sub v) (effIns o sub v) d

def execClearLatch (role : Role) (g : Fin 8) (v : Nat) (s : State) : Out := onDev (writeProt role g 0x26 v) s
def execClearTrip (role : Role) (o : Fin 32) (v : Nat) (s : State) : Out := onDev (writeProt role o 0x15 v) s

/-- AUTOMATIC_CLEAR (11 R367). -/
def autoClear (o : Nat) (d : Dev) : Dev :=
  d.when (d.tripHeld o && d.get (protIx o) 0xF == 1 && !d.bitO (protIx o) 0x12 11 && tripClearable d o) (clearTrip o)

def execAutomaticClear (o : Fin 32) (s : State) : Out := onRun (autoClear o) s

def execProtectionConfigurationWrite (role : Role) (o : Fin 32) (insulation : Bool) (sub v : Nat) (s : State) : Out :=
  onDev (fun d => if insulation then writeIns role o sub v d else writeProt role o sub v d) s

end Sys2Proof.Machine
end

