-- ==== Sys2Proof/Machine/Outlet.lean ====
section
/-! DEFINITION. Vehicle interfaces: pilot and proximity, SLAC, the CAN paths, the session sequencer and its writes (chapter 10). -/
namespace Sys2Proof.Machine

/-! ## Pilot and proximity (10 R313 to R315, R321, R323) -/

/-- The latest pilot sample of outlet `o`, 2^-7 V. -/
def Dev.pilotSample (d : Dev) (o : Nat) : Int :=
  match d.headCore o with
  | some h => h.pilot.getD 15 0
  | none => 0

/-- The latest proximity sample of outlet `o`, 2^-9 V. -/
def Dev.proxSample (d : Dev) (o : Nat) : Nat :=
  match d.headCore o with
  | some h => h.prox
  | none => 0

/-- The median of a list, the upper one of an even number, 0 of none. -/
def medianOf (l : List Int) : Int := (sortBy (fun a b => decide (a ≤ b)) l).getD (l.length / 2) 0

/-- The state of a high level in 2^-7 V: A to F as 0 to 5 (10 R314). -/
def pilotBand (h : Int) : Nat :=
  if 1344 ≤ h ∧ h ≤ 1728 then 0 else if 960 ≤ h ∧ h < 1344 then 1 else if 576 ≤ h ∧ h < 960 then 2
  else if 192 ≤ h ∧ h < 576 then 3 else if -192 ≤ h ∧ h < 192 then 4 else 5

/-- Whether the pilot of outlet `o` is in PWM mode (10 R313). -/
def Dev.pilotPwm (d : Dev) (o : Nat) : Bool :=
  let s := d.get (outletIx o + 3) 2 % 8
  decide (1 ≤ d.code o ∧ d.code o ≤ 4 ∧ 1 ≤ d.step o ∧ 1 ≤ s ∧ s ≤ 3)

/-- High and low level of the 512 samples of a pilot period, oldest first, under a duty in 0.01 %. -/
def pilotLevels (pwm : Bool) (duty : Nat) (l : List Int) : Int × Option Int :=
  if !pwm || 10000 ≤ duty then (medianOf l, none)
  else
    let ix := List.zip (List.range 512) l
    let hi := (ix.filter fun x => decide (6400 < x.1 * 1250 ∧ x.1 * 1250 + 6400 < 64 * duty)).map Prod.snd
    let lo := (ix.filter fun x => decide (64 * duty + 6400 < x.1 * 1250 ∧ x.1 * 1250 < 64 * 9900)).map Prod.snd
    (medianOf hi, some (medianOf lo))

/-- The samples of a tick, and the evaluation at the end of a pilot period (10 R314); samples of a link that is not in RUN are none
(03 R107). -/
def pilotTick (o : Nat) (d : Dev) : Dev :=
  match d.headCore o with
  | some h =>
    let r := d.out o
    let base := if h.period % 32 = 0 then [] else r.pilot
    let l := h.pilot.reverse ++ base
    if h.period % 32 = 31 && l.length = 512 then
      let z := pilotLevels (d.pilotPwm o) (d.get (outletIx o + 4) 2) l.reverse
      let b := pilotBand z.1
      let lowBad := match z.2 with
        | some x => !decide (-1728 ≤ x ∧ x ≤ -1344)
        | none => false
      let st := if 1 ≤ b && b ≤ 3 && lowBad then 5 else b
      let d := d.set (outletIx o + 4) 1 (spat 16 z.1 + 65536 * spat 16 (z.2.getD 0))
      d.setOut o { r with pilot := [], cand := st, candRun := if r.cand = st then r.candRun + 1 else 1 }
    else d.setOut o { r with pilot := l }
  | none => d.setOut o { d.out o with pilot := [] }

/-- The accepted pilot state of outlet `o`. -/
def Dev.pilotState (d : Dev) (o : Nat) : Nat := d.get (outletIx o + 3) 2 % 8

/-- PILOT_STATE_CHANGE (10 R314, R318, R328): a state that has held for two periods is accepted. -/
def pilotChange (o : Nat) (d : Dev) : Dev :=
  let r := d.out o
  let old := d.pilotState o
  d.when (decide (2 ≤ r.candRun) && r.cand != old) fun d =>
    let d := d.set (outletIx o + 3) 2 (setField (d.get (outletIx o + 3) 2) 0 3 r.cand)
    let d := d.when (r.cand == 0) fun d => d.setOut o { d.out o with slac := {} }
    d.when ((old == 2 || old == 3) && r.cand == 1 && d.stepIn o 2 6) fun d => d.askEnd o 2

def execPilotStateChange (o : Fin 32) (s : State) : Out := onRun (pilotChange o) s

/-- The cable rating of outlet `o`, 2^-4 A; none where nothing limits it (10 R315, log entry 19). -/
def Dev.cableRating (d : Dev) (o : Nat) : Option Nat :=
  let v := outletIx o
  if d.get v 9 ≠ 0 then some (d.get v 9)
  else if d.code o = 1 then
    let p := d.proxSample o
    some (if d.get (v + 4) 3 < p then 0 else if d.get (v + 4) 4 < p then 208 else if d.get (v + 4) 5 < p then 320
      else if d.get (v + 4) 6 < p then 512 else if 256 ≤ p then 1008 else 0)
  else none

/-- The proximity sample is below 0.5 V where it counts: a fault (10 R315). -/
def Dev.proxFault (d : Dev) (o : Nat) : Bool :=
  d.code o == 1 && d.get (outletIx o) 9 == 0 && decide (d.proxSample o < 256)

/-- Whether the vehicle is present (10 R321, R323, R326). -/
def Dev.present (d : Dev) (o : Nat) : Bool :=
  match d.code o with
  | 5 => decide (d.pilotSample o < 256)
  | 6 => decide (1639 ≤ d.proxSample o ∧ d.proxSample o ≤ 2457)
  | 7 => decide (field (d.get (outletIx o + 4) 7) 0 16 ≤ d.proxSample o ∧ d.proxSample o ≤ field (d.get (outletIx o + 4) 7) 16 16)
  | 0 => false
  | _ => decide (1 ≤ d.pilotState o ∧ d.pilotState o ≤ 3)

/-- Whether the vehicle is absent: state A, CC1 open, ID out of band. -/
def Dev.absent (d : Dev) (o : Nat) : Bool :=
  if 5 ≤ d.code o && d.code o ≤ 7 then !d.present o else d.pilotState o == 0

/-! ## Green PHY and SLAC (10 R316 to R318) -/

/-- Whether outlet `o` takes SLAC messages: codes 2 to 4 in step 1. -/
def Dev.slacOn (d : Dev) (o : Nat) : Bool := d.running && decide (2 ≤ d.code o ∧ d.code o ≤ 4) && d.step o == 1

/-- Replace the SLAC state of outlet `o`. -/
def Dev.setSlac (d : Dev) (o : Nat) (x : SlacRec) : Dev := d.setOut o { d.out o with slac := x }

def execCmSlacParmReq (o : Fin 32) (mac : Fin 281474976710656) (run : Nat) (s : State) : Out :=
  onRun (fun d => d.when (d.slacOn o && (d.out o).slac.stage != 5) fun d => d.setSlac o { stage := 1, mac := mac, run := run }) s

/-- Whether a SLAC message of a vehicle belongs to the run in hand. -/
def SlacRec.mine (x : SlacRec) (mac run : Nat) : Bool := x.mac == mac && x.run == run

def execCmStartAttenCharInd (o : Fin 32) (mac : Fin 281474976710656) (run sounds : Nat) (s : State) : Out :=
  onRun (fun d =>
    let x := (d.out o).slac
    d.when (d.slacOn o && x.mine mac run && (x.stage == 1 || x.stage == 2)) fun d =>
      d.setSlac o { x with stage := 2, left := sounds, sounds := 0, sums := [] }) s

/-- Add two lists, the longer one's tail kept. -/
def addLists : List Nat → List Nat → List Nat
  | [], b => b
  | a, [] => a
  | x :: a, y :: b => (x + y) :: addLists a b

def execCmMnbcSoundInd (o : Fin 32) (mac : Fin 281474976710656) (run : Nat) (atten : List Nat) (s : State) : Out :=
  onRun (fun d =>
    let x := (d.out o).slac
    d.when (d.slacOn o && x.mine mac run && x.stage == 2 && decide (1 ≤ x.left)) fun d =>
      d.setSlac o { x with left := x.left - 1, sounds := x.sounds + 1, sums := addLists x.sums atten }) s

def execCmAttenCharInd (o : Fin 32) (s : State) : Out :=
  onRun (fun d =>
    let x := (d.out o).slac
    d.when (d.slacOn o && x.stage == 2 && decide (1 ≤ x.sounds)) fun d =>
      d.setSlac o { x with stage := 4, average := sumN x.sums / max 1 (x.sounds * x.sums.length) }) s

/-- CM_SLAC_MATCH.REQ (10 R317): answered with a fresh key, EV44 and the MAC address; not answered above the threshold. -/
def slacMatch (o mac run : Nat) (d : Dev) : Dev :=
  let x := (d.out o).slac
  d.when (d.slacOn o && x.mine mac run && x.stage == 4 && decide (x.average ≤ d.get (outletIx o + 5) 2)) fun d =>
    let z := d.freshBytes 16
    let d := (z.2.setSlac o { x with stage := 5, nmk := z.1 }).raiseEv 44
    (d.set (outletIx o + 5) 3 mac).setOut o { (z.2.setSlac o { x with stage := 5, nmk := z.1 }).out o with frameAt := d.effTick }

def execCmSlacMatchReq (o : Fin 32) (mac : Fin 281474976710656) (run : Nat) (s : State) : Out := onRun (slacMatch o mac run) s

/-- Whether the tunnel of outlet `o`'s link carries its lines (03 R110): Gen 2 and in RUN. -/
def Dev.tunnel (d : Dev) (o : Nat) : Bool := d.linkState o == 5 && (d.link o).lineGen == 2

/-- Whether the Ethernet path between the vehicle and the host is open (10 R318, R322). -/
def Dev.etherOpen (d : Dev) (o : Nat) : Bool :=
  d.running && d.tunnel o && ((decide (2 ≤ d.code o ∧ d.code o ≤ 4) && (d.out o).slac.stage == 5) || d.code o == 7)

/-- Whether the CAN path is open (10 R319). -/
def Dev.canOpen (d : Dev) (o : Nat) : Bool := d.running && d.tunnel o && (d.code o == 5 || d.code o == 6)

/-- Bytes of vehicle-link frames that wait in outlet `o`'s share of the frame buffer (18 R528). -/
def Dev.frameBytes (d : Dev) (o : Nat) : Nat :=
  sumN (((tget {} d.vcs 4).out.filter fun r => r.word % 256 == o).map fun r => r.payload.length)

/-- The oldest waiting frame of outlet `o` is dropped and counted, so many at most, until `n` bytes more fit its share (18 R528). -/
def dropOldest : Nat → Nat → Nat → Dev → Dev
  | 0, _, _, d => d
  | f + 1, o, n, d =>
    let c := tget {} d.vcs 4
    match c.out.find? fun r => r.ty == 0x40 && r.word % 256 == o with
    | some r =>
      if d.frameBytes o + n ≤ Config.frameShare then d
      else dropOldest f o n ({ d with vcs := tset d.vcs 4 { c with out := c.out.erase r } }.satInc 32 (0x2510 + o) 0xC 1)
    | none => d

/-- A frame of the vehicle of outlet `o` to the host over Hank channel 4, by way of the frame buffer (18 R528; 19 R553). -/
def Dev.toHost (d : Dev) (o word : Nat) (b : Bytes) : Dev :=
  (dropOldest (tget {} d.vcs 4).out.length o b.length d).stream 4 ⟨0x40, word, b⟩

/-- VEHICLE_ETHERNET_FRAME (10 R318): to the host over Hank channel 4, restarting the 10 s. -/
def vehicleEthernet (o : Nat) (b : Bytes) (d : Dev) : Dev :=
  d.when (d.etherOpen o) fun d => (d.setOut o { d.out o with frameAt := d.effTick }).toHost o o b

def execVehicleEthernetFrame (o : Fin 32) (frame : Bytes) (s : State) : Out := onRun (vehicleEthernet o frame) s

/-- The session of outlet `o` ends for loss of the link, its setpoint falling at the ramp rate (10 R331, R339). -/
def linkLost (o : Nat) (d : Dev) : Dev :=
  let d := d.askEnd o 3
  d.setOut o { d.out o with linkLoss := true }

/-- VEHICLE_LINK_TIMEOUT (10 R318, R322): no frame for 10 s in steps 2 to 6, whether the vehicle was matched or not. -/
def vehicleTimeout (o : Nat) (d : Dev) : Dev :=
  d.when (d.running && !d.pausing 1 && (decide (2 ≤ d.code o ∧ d.code o ≤ 4) || d.code o == 7) && d.stepIn o 2 6 && decide ((d.out o).frameAt + 320000 ≤ d.effTick)) (linkLost o)

def execVehicleLinkTimeout (o : Fin 32) (s : State) : Out := onRun (vehicleTimeout o) s

/-! ## The CAN paths (10 R319 to R321) -/

/-- CHAdeMO frame 0x102: target voltage at bytes 1 to 2 in V, current request at byte 3 in A, charging enabled at byte 5 bit 0 (log
entry 20). -/
def decodeChademo (o : Nat) (b : Bytes) (d : Dev) : Dev :=
  let r := d.out o
  let on := (byteAt b 5).testBit 0
  let d := d.setOut o { r with reqV := 16 * leAt b 1 2, reqI := 16 * byteAt b 3, reqOn := on, reqAt := d.effTick }
  d.when (r.reqOn && !on && d.stepIn o 2 6) fun d => d.askEnd o 2

/-- GB/T BCL: voltage demand at bytes 0 to 1 in 0.1 V, current demand at bytes 2 to 3 in 0.1 A below 400 A (log entry 20). -/
def decodeBcl (o : Nat) (b : Bytes) (d : Dev) : Dev :=
  d.setOut o { d.out o with reqV := leAt b 0 2 * 16 / 10, reqI := (4000 - leAt b 2 2) * 16 / 10, reqOn := true, reqAt := d.effTick }

/-- GB/T BST: an end by the vehicle. -/
def decodeBst (o : Nat) (d : Dev) : Dev :=
  let d := d.setOut o { d.out o with reqOn := false, reqAt := d.effTick }
  d.when (d.stepIn o 2 6) fun d => d.askEnd o 2

/-- A CAN frame of the vehicle: to the host, and decoded where it is one of 10 R320. -/
def vehicleCan (o id : Nat) (b : Bytes) (d : Dev) : Dev :=
  d.when (d.canOpen o) fun d =>
    let d := d.toHost o (o + 256) (natLE 4 id ++ natLE 1 b.length ++ zeros 3 ++ b)
    if d.code o = 5 then (if id = 0x102 then decodeChademo o b d else d)
    else if id.testBit 31 && field id 16 8 = 0x10 then decodeBcl o b d
    else if id.testBit 31 && field id 16 8 = 0x19 then decodeBst o d
    else d

def execVehicleCanFrame (o : Fin 32) (id : Nat) (data : Bytes) (s : State) : Out := onRun (vehicleCan o id data) s
def execChademoVehicleFrame (o : Fin 32) (data : Bytes) (s : State) : Out :=
  onRun (fun d => d.when (d.code o == 5) (vehicleCan o 0x102 data)) s
def execGbtBcl (o : Fin 32) (data : Bytes) (s : State) : Out :=
  onRun (fun d => d.when (d.code o == 6) (vehicleCan o 0x981056F4 data)) s
def execGbtBst (frame : Fin 32 × Bytes) (s : State) : Out :=
  onRun (fun d => d.when (d.code frame.1 == 6) (vehicleCan frame.1 0x901956F4 frame.2)) s

/-- CAN_REQUEST_TIMEOUT (10 R320). -/
def canTimeout (o : Nat) (d : Dev) : Dev :=
  d.when (d.running && (d.code o == 5 || d.code o == 6) && !d.pausing 1 && d.stepIn o 2 6 && decide ((d.out o).reqAt + 32 * d.get (outletIx o + 6) 0xA ≤ d.effTick)) (linkLost o)

def execCanRequestTimeout (o : Fin 32) (s : State) : Out := onRun (canTimeout o) s

/-- CE_LOW (10 R323): the CE line, on the pilot sample channel, is below its level. -/
def ceLow (o : Nat) (d : Dev) : Dev :=
  d.when (d.running && d.code o == 7 && d.stepIn o 5 6 && decide (d.pilotSample o < d.get (outletIx o + 4) 8)) fun d => d.askEnd o 2

def execCeLow (o : Fin 32) (s : State) : Out := onRun (ceLow o) s

/-! ## The session sequencer (10 R326 to R334) -/

/-- Whether a supply warning is in force for the sequencers (10 R332). -/
def Dev.warned (d : Dev) : Bool := d.supply.seenAt.isSome

/-- Whether the channels of outlet `o` are configured as 10 R329 and 11 R347 ask. Which locks are held by a powered coil the part cannot tell
(log entry 99). -/
def Dev.configured (d : Dev) (o : Nat) : Bool :=
  let v := outletIx o
  let g := d.get (protIx o) 1
  let ok := fun n : Nat => decide (n < 64) && d.get 0x2110 (n + 1) % 4 == 2 && (g == 0xFF || field (d.get 0x2110 (n + 1)) 2 3 == g)
  ok (d.get v 2) && (d.get v 4 == 0xFF || d.chanIs 5 (d.get v 5)) && d.chanIs 0 (d.get v 6)
    && (d.code o == 1 || (decide (g < 8) && ok (d.get v 3) && d.chanIs 0 (d.get v 7)))

/-- The configuration mismatch bit, judged in every tick (10 R329, 11 R347). -/
def mismatchShow (o : Nat) (d : Dev) : Dev := d.setBitO (outletIx o + 3) 2 4 (d.code o != 0 && !d.configured o)

/-- Whether the lock sense channel shows locked: above half scale. -/
def Dev.locked (d : Dev) (o : Nat) : Bool := decide (4194304 < (d.sample (d.get (outletIx o) 5)).y)

/-- Whether an axis that serves outlet `o` holds a trip (12 R383). -/
def Dev.axisHolds (d : Dev) (o : Nat) : Bool :=
  (List.range 4).any fun a => (d.get (0x6800 + a) 0x16).testBit o && d.bitO (0x6800 + a) 0x30 2

/-- Whether a step is passed straight through (10 R326, 11 R359). -/
def Dev.skips (d : Dev) (o st : Nat) : Bool :=
  match st with
  | 2 => d.get (outletIx o) 4 == 0xFF
  | 3 => d.code o == 1 || d.get (insIx o) 1 == 0
  | 4 => d.code o == 1
  | 9 => d.get (outletIx o) 4 == 0xFF
  | _ => false

/-- The action of a step at its entry in tick `t`. -/
def stepAction (o st t : Nat) (d : Dev) : Dev :=
  let v := outletIx o
  match st with
  | 2 => d.loadOrder (d.get v 4) true
  | 3 => d.loadOrder (d.get v 3) true
  | 4 => d.loadOrder (d.get v 3) true
  | 5 => if d.code o = 1 then d
         else (d.loadOrder (d.get v 2) true).setOut o { (d.loadOrder (d.get v 2) true).out o with preOff := some (t + 1600) }
  | 8 => ((d.loadOrder (d.get v 2) false).loadOrder (d.get v 3) false).setOut o
           { ((d.loadOrder (d.get v 2) false).loadOrder (d.get v 3) false).out o with preOff := none, current := 0, linkLoss := false, tripped := false }
  | 9 => d.loadOrder (d.get v 4) false
  | 0 => d.setOut o { d.out o with waitAbsent := true, ask := 0, reason := 0 }
  | _ => d

/-- Enter step `st` at tick `t`, passing steps that are skipped. -/
def enterStep : Nat → Nat → Nat → Nat → Dev → Dev
  | 0, _, _, _, d => d
  | f + 1, o, st, t, d =>
    if d.skips o st then enterStep f o ((st + 1) % 10) t d
    else
      let d := d.set (outletIx o + 3) 1 st
      stepAction o st t (d.setOut o { d.out o with since := t, run := 0 })

/-- The reason of an end: 3 before the others (10 R328, R331). -/
def endReason (ask : Nat) : Nat :=
  if ask.testBit 3 || ask.testBit 0 then 3 else if ask.testBit 1 then 1 else if ask.testBit 2 then 2 else 4

/-- The causes of an end that the sequencer of tick `t` acts on: a trip of that tick waits for the next (11 R364). -/
def OutRec.asks (r : OutRec) (t : Nat) : Nat := if r.tripAt = t then setBit r.ask 0 false else r.ask

/-- Leave steps 2 to 6 for ramp-down at tick `t`. -/
def toRampDown (o t : Nat) (d : Dev) : Dev :=
  let r := d.out o
  let c := endReason (r.asks t)
  let d := d.setOut o { r with reason := c, ask := 0, linkLoss := r.linkLoss && c == 3 }
  enterStep 1 o 7 t d

/-- SESSION_START at tick S (10 R327): the permit is cleared, the record opens, EV40. -/
def sessionStart (o : Nat) (d : Dev) : Dev :=
  let d := d.setOut o { d.out o with code := d.code o, frameAt := d.now, reqAt := d.now, ask := 0, reason := 0, linkLoss := false, tripped := false }
  let d := enterStep 8 o 2 d.now ((openSession o d).raiseEv 40)
  d.set (outletIx o + 2) 1 0

/-- SESSION_END at tick E (10 R328): EV41; the record closes under 07 R256. -/
def sessionEnd (o : Nat) (d : Dev) : Dev :=
  match tfind d.bill.sessions o with
  | some x =>
    { d with bill := { d.bill with sessions := tset d.bill.sessions o { x with ended := some d.now, reason := (d.out o).reason } } }.raiseEv 41
  | none => d

/-- Whether outlet `o` may leave step 1, the self-test apart (10 R315, R327, R332; 11 R355, R364; 12 R383; 07 R256; 20 R576, R591). -/
def Dev.mayStart (d : Dev) (o : Nat) : Bool :=
  d.life != 0 && d.life != 4 && !d.pausing 1 && !d.pausing 2 && !d.pausing 3 && d.present o && d.get (outletIx o + 2) 1 == 1 && !d.proxFault o && !d.tripHeld o && !d.axisHolds o && !d.warned
    && (d.get (protIx o) 3 != 1 || d.windowFull o) && decide (tget 0 d.bill.notBefore o ≤ d.now)
    && !(thas d.bill.sessions o)

/-- Step 1 of the sequencer: the self-test where enabled, then the session; back to step 0 where the configuration is not as 10 R329 and 11 R347 ask. -/
def stepOne (o : Nat) (d : Dev) : Dev :=
  if !(d.outletEnabled o && d.code o != 0 && d.configured o) then d.set (outletIx o + 3) 1 0
  else if d.mayStart o then
    let p := d.prot o
    if (d.get (protIx o) 0xD).testBit 7 && !p.selfDone then (if p.selfTest.isNone then selfTestStart o d else d)
    else sessionStart o d
  else d

/-- Step 0 of the sequencer. -/
def stepZero (o : Nat) (d : Dev) : Dev :=
  if d.outletEnabled o && d.code o != 0 && d.configured o && !d.bitO (outletIx o + 3) 2 5 then
    if (d.out o).waitAbsent then d.when (d.absent o) fun d => d.setOut o { d.out o with waitAbsent := false }
    else enterStep 1 o 1 d.now d
  else d

/-- Whether the outlet current is below 2 A. -/
def Dev.currentLow (d : Dev) (o : Nat) : Bool := (d.currentChannels o).all fun x => decide ((d.sample x.2).y.natAbs < 2048)

/-- Whether the cable-side voltage is below 60 V DC or 30 V RMS. -/
def Dev.voltageLow (d : Dev) (o : Nat) : Bool :=
  let c := d.get (outletIx o) 6
  if d.code o = 1 then
    let els := (bitsOf 4 (d.get (meterIx o) 2)).filter fun e => d.get (meterIx o + 1 + e) 1 == c
    if els = [] then decide ((d.sample c).y.natAbs < 30 * 4096) else els.all fun e => decide (d.get (meterIx o + 5) (0xB + e) < 30 * 65536)
  else decide ((d.sample c).y.natAbs < 60 * 4096)

/-- Whether the condition of a step is met in this tick, and for how many ticks it must be. -/
def stepMet (d : Dev) (o st : Nat) : Bool × Nat :=
  let v := outletIx o
  let y := (d.sample (d.get v 6)).y
  match st with
  | 2 => (d.locked o, 1)
  | 3 => ((d.prot o).ins.passed, 1)
  | 4 => (decide ((y.natAbs : Int) - 256 * (d.vehicleRequest o).2 ≤ 20 * 4096 ∧ 256 * (d.vehicleRequest o).2 - (y.natAbs : Int) ≤ 20 * 4096), 32)
  | 5 => if d.code o = 1 then (d.pilotState o == 2 || d.pilotState o == 3, 1)
         else (decide ((y - (d.sample (d.get v 7)).y).natAbs < 10 * 4096), 1)
  | 7 => (d.currentLow o, 32)
  | 8 => (d.voltageLow o, 1)
  | 9 => (!d.locked o, 1)
  | _ => (false, 1)

/-- Steps 2 to 6 of the sequencer; under a supply warning the outlet stays in its step, and an end asked for waits (10 R332), but a protection trip
is acted on as ever (11 R364, R365). -/
def stepRun (o st : Nat) (d : Dev) : Dev :=
  let c := d.code o
  let gone := d.absent o || (decide (1 ≤ c ∧ c ≤ 4) && decide (4 ≤ d.pilotState o))
  let d := d.when gone fun d => d.askEnd o 2
  let r := d.out o
  let w := d.warned
  if r.asks d.now ≠ 0 && (!w || (r.asks d.now).testBit 0) then toRampDown o d.now d
  else if w then d.when (decide (st ≤ 5)) fun d => d.setOut o { r with since := r.since + 1 }
  else
    let m := stepMet d o st
    let n := if m.1 then r.run + 1 else 0
    let d := d.setOut o { r with run := n }
    if m.1 && m.2 ≤ n then
      let d := if st = 5 && c = 1 then d.loadOrder (d.get (outletIx o) 2) true else d
      enterStep 8 o (st + 1) d.now d
    else d

/-- Whether the step of outlet `o` has timed out at tick `t`; 0 is no timeout (10 R326). -/
def Dev.stepLate (d : Dev) (o t : Nat) : Bool :=
  let x := d.get (outletIx o + 6) (d.step o)
  x != 0 && decide ((d.out o).since + x ≤ t)

/-- Steps 7 and 9 of the sequencer, and step 8 until it times out; after a protection trip step 7 has no timeout (10 R326, R330, R331). -/
def stepDown (o st : Nat) (d : Dev) : Dev :=
  let r := d.out o
  let m := stepMet d o st
  let n := if m.1 then r.run + 1 else 0
  let d := d.setOut o { r with run := n }
  let late := st != 8 && !(st == 7 && r.tripped) && d.stepLate o d.now
  if (m.1 && m.2 ≤ n) || late then
    let d := d.when (st == 7) (sessionEnd o)
    enterStep 3 o ((st + 1) % 10) d.now d
  else d

/-- SESSION_SEQUENCER_STEP of outlet `o` (10 R326): one evaluation per tick. -/
def sequencerTick (o : Nat) (d : Dev) : Dev :=
  let st := d.step o
  let d := mismatchShow o d
  let d := if st = 0 then stepZero o d else if st = 1 then stepOne o d else if st ≤ 6 then stepRun o st d else stepDown o st d
  match (d.out o).preOff with
  | some t => if t ≤ d.now then (d.loadOrder (d.get (outletIx o) 3) false).setOut o
      { (d.loadOrder (d.get (outletIx o) 3) false).out o with preOff := none } else d
  | none => d

/-- STEP_TIMEOUT (10 R326): in steps 2 to 6 the session ends with reason 3; a warning suspends the timeouts (10 R332). -/
def stepTimeout (o : Nat) (d : Dev) : Dev :=
  d.when (d.running && !d.pausing 1 && d.stepIn o 2 6 && !d.warned && d.stepLate o d.effTick) fun d =>
    toRampDown o d.effTick (d.askEnd o 3)

def execStepTimeout (o : Fin 32) (s : State) : Out := onRun (stepTimeout o) s

/-- WELDED_CONTACTOR (10 R330): step 8 timed out; EV42, bit 5, the lock stays engaged. -/
def weldedContactor (o : Nat) (d : Dev) : Dev :=
  d.when (d.running && !d.pausing 1 && d.step o == 8 && d.stepLate o d.effTick) fun d =>
    let d := (d.setBitO (outletIx o + 3) 2 5 true).raiseEv 42
    enterStep 1 o 0 d.effTick d

def execWeldedContactor (o : Fin 32) (s : State) : Out := onRun (weldedContactor o) s

/-! ## Writes -/

/-- The effect of a write to V+0x01: the limits are fresh (10 R324). -/
def effLimits (o sub v : Nat) (d : Dev) : Dev :=
  let d := (d.set (outletIx o + 1) sub v).setBitO (outletIx o + 3) 2 3 false
  d.setOut o { d.out o with limitsAt := some d.effTick }

def execHostLimitsWrite (role : Role) (o : Fin 32) (sub v : Nat) (s : State) : Out :=
  onDev (writeObj role (outletIx o + 1) sub (.num v) {} (effLimits o sub v)) s

/-- Whether the limits of outlet `o` are older than their lifetime at tick `t`. -/
def Dev.limitsOld (d : Dev) (o t : Nat) : Bool :=
  match (d.out o).limitsAt with
  | some x => decide (x + 32 * d.get (outletIx o + 6) 0xB < t)
  | none => false

/-- LIMITS_STALE (10 R324): bit 3, and EV43 once. -/
def limitsStale (o : Nat) (d : Dev) : Dev :=
  d.when (!d.pausing 1 && d.limitsOld o d.effTick && !d.bitO (outletIx o + 3) 2 3) fun d =>
    ((d.setBitO (outletIx o + 3) 2 3 true).raiseEv 43).setOut o { d.out o with current := 0 }

def execLimitsStale (o : Fin 32) (s : State) : Out := onRun (limitsStale o) s

/-- The refusals of a write to V+0x02.`sub` (10 R327, R330). -/
def controlRules (d : Dev) (o sub v : Nat) : Rules :=
  if sub = 1 then { atRange := if v = 1 && d.step o != 1 then 8 else 0 }
  else if sub = 5 then { atLife := if d.inService || v != 1 then 0 else 4 }
  else {}

/-- The effect of a write to V+0x02.`sub`. -/
def effControl (o sub v : Nat) (d : Dev) : Dev :=
  if sub = 4 then d.when (d.stepIn o 2 6) fun d => d.askEnd o v
  else if sub = 5 then d.when (v == 1) fun d => d.setBitO (outletIx o + 3) 2 5 false
  else if sub = 1 then (d.set (outletIx o + 2) 1 v).setProt o { d.prot o with selfDone := false }
  else d.set (outletIx o + 2) sub v

/-- A write to V+0x02.`sub`. -/
def writeControl (role : Role) (o sub v : Nat) (d : Dev) : Dev :=
  writeObj role (outletIx o + 2) sub (.num v) (controlRules d o sub v) (effControl o sub v) d

def execStartPermit (role : Role) (o : Fin 32) (v : Nat) (s : State) : Out := onDev (writeControl role o 1 v) s
def execEndRequestNormal (role : Role) (o : Fin 32) (s : State) : Out := onDev (writeControl role o 4 1) s
def execEndRequestVehicle (role : Role) (o : Fin 32) (s : State) : Out := onDev (writeControl role o 4 2) s
def execEndRequestHost (role : Role) (o : Fin 32) (s : State) : Out := onDev (writeControl role o 4 4) s
def execReturnToService (role : Role) (o : Fin 32) (v : Nat) (s : State) : Out := onDev (writeControl role o 5 v) s

/-- Whether the link of outlet `o` limits it to code 1 (03 R112). -/
def Dev.pwmOnly (d : Dev) (o : Nat) : Bool := decide (1600 < d.get (linkIx o) 5) || d.get (linkIx o) 3 == 1

/-- Whether a value of V+0x00.01 takes the outlet out of service (10 R334). -/
def disables (v : Nat) : Bool := v % 16 == 0 || !v.testBit 7

/-- Whether the channel that a write names has the type of its range: 5 for the lock sense, 0 for the voltages (10 R343). -/
def outletTyped (aft : Dev) (sub v : Nat) : Bool :=
  decide (288 ≤ v) || (if sub = 5 then aft.chanIs 5 v else if sub = 6 || sub = 7 then aft.chanIs 0 v else true)

/-- The refusals of a write to V+0x00.`sub`; channel types are judged on what `aft` holds (10 R312, R343). -/
def outletRules (d aft : Dev) (o sub v : Nat) : Rules :=
  let drain := sub == 1 && disables v
  let codeBad := sub == 1 && (decide (7 < v % 16) || field v 4 3 != 0 || (decide (2 ≤ v % 16) && d.pwmOnly o))
  { atRange := if codeBad || !outletTyped aft sub v || (d.step o != 0 && !drain) then 8 else 0 }

/-- The effect of a write to V+0x00.`sub` (10 R319, R334). -/
def effOutlet (o sub v : Nat) (d : Dev) : Dev :=
  let d := d.set (outletIx o) sub v
  if sub = 1 then
    let d := d.when (v % 16 == 6) fun d => d.set (outletIx o + 5) 4 0
    if disables v then
      if d.step o ≤ 1 then (d.set (outletIx o + 3) 1 0).setOut o { (d.out o) with slac := {} }
      else d.when (d.stepIn o 2 6) fun d => d.askEnd o 4
    else d
  else d

def execOutletConfigurationWrite (role : Role) (o : Fin 32) (sub v : Nat) (s : State) : Out :=
  onDev (fun d => writeObj role (outletIx o) sub (.num v) (outletRules d d o sub v) (effOutlet o sub v) d) s

end Sys2Proof.Machine
end

