-- ==== Sys2Proof/Machine/Ring.lean ====
section
/-! DEFINITION. The ring of parts: ports, markers, frames sent, mastership and holdover (01 R37 to R42, 19 R556 to R561). -/
namespace Sys2Proof.Machine

/-- The object of ring port `p`. -/
def ringIx (p : Nat) : Nat := 0x2660 + p
/-- The record of ring port `p`. -/
def Dev.port (d : Dev) (p : Nat) : PortRec := tget {} d.ports p
/-- The part with the record of ring port `p` set. -/
def Dev.setPort (d : Dev) (p : Nat) (r : PortRec) : Dev := { d with ports := tset d.ports p r }
/-- Whether ring port `p` is in RUN. -/
def Dev.portRun (d : Dev) (p : Nat) : Bool := d.get (ringIx p) 1 == 1
/-- Position of the tick and allocation master (01 R38, R40). -/
def Dev.master (d : Dev) : Nat := d.get 0x2000 7 % 8
/-- Whether the part is the master. -/
def Dev.isMaster (d : Dev) : Bool := d.position == d.master
/-- Whether another part is on the ring. -/
def Dev.onRing (d : Dev) : Bool := (List.range 8).any fun i => i != d.position && d.bitO 0x2668 1 i
/-- Number of parts last seen, the part itself among them (log entry 21): with no port in RUN, those seen when the last port went down
(01 R42, log entry 85). -/
def Dev.partsSeen (d : Dev) : Nat :=
  let m := if d.portRun 0 || d.portRun 1 then d.get 0x2668 1 else Nat.lor (d.get 0x2668 1) d.ring.lastSeen
  ((List.range 8).filter fun i => i == d.position || m.testBit i).length
/-- Whether the part has refused to join for a duplicate position (01 R37). -/
def Dev.refused (d : Dev) : Bool := d.bitO 0x2000 6 7

/-- Set the tick master; a change raises EV14 (19 R544). -/
def Dev.setMaster (d : Dev) (p : Nat) : Dev := if d.get 0x2000 7 = p then d else (d.set 0x2000 7 p).raiseEv 14

/-- Mark a position as seen or not; a change raises EV14 (19 R544, R564). -/
def Dev.setSeen (d : Dev) (p : Nat) (b : Bool) : Dev :=
  if d.bitO 0x2668 1 p = b then d else (d.setBitO 0x2668 1 p b).raiseEv 14

/-- Position `p` is heard from: seen, and gone no more (01 R40). -/
def Dev.heard (d : Dev) (p : Nat) : Dev :=
  { d with ring := { d.ring with gone := setBit d.ring.gone p false } }.setSeen p true

/-- Put characters out on port `p`. -/
def Dev.portOut (d : Dev) (p : Nat) (b : Bytes) : Dev := d.setPort p { d.port p with sent := push 64 b (d.port p).sent }

/-- The bytes of a ring frame with its CRC (19 R559). -/
def ringBytes (ty src dst hops seq : Nat) (payload : Bytes) : Bytes :=
  let b := natLE 1 ty ++ natLE 1 src ++ natLE 1 dst ++ natLE 1 hops ++ natLE 2 seq ++ natLE 2 payload.length ++ payload
  b ++ natLE 4 (crc32 b)

/-- The port towards a position: that with fewer hops, the other where it is not in RUN (19 R559). -/
def Dev.portTo (d : Dev) (dst : Nat) : Nat :=
  let h := fun p => tget 8 d.ring.hops (2 * dst + p)
  let p := if h 1 < h 0 then 1 else 0
  if d.portRun p then p else 1 - p

/-- Send a frame of the part: on one port to a position, on both to all (19 R559). -/
def Dev.ringSend (d : Dev) (ty dst : Nat) (payload : Bytes) : Dev :=
  if d.refused then d
  else
    let b := ringBytes ty d.position dst 7 (d.ring.seq % 65536) payload
    let d := { d with ring := { d.ring with seq := d.ring.seq + 1 } }
    let ports := if dst = 0xFF then [0, 1] else [d.portTo dst]
    eachN (ports.filter fun p => d.portRun p) (fun p d => d.portOut p b) d

/-! ## Ports (19 R557) -/

/-- A frame of the part's own position that it has not sent: another part has the position (01 R37). A ping is a neighbour's and never
its own; another frame is its own where its sequence is one of the last 64 sent (log entry 108). -/
def Dev.foreign (d : Dev) (ty seq : Nat) : Bool :=
  let k := (d.ring.seq + 65536 - seq) % 65536
  decide (ty ≤ 2 ∨ k = 0 ∨ min 64 d.ring.seq < k)

/-- A duplicate of the part's position is on the ring: it refuses to join and reports it (01 R37). -/
def duplicateSeen (d : Dev) : Dev := d.setBitO 0x2000 6 7 true

/-- The mean of 16 round trips, halved, in 0.25 ns. -/
def portDelay (l : List Nat) : Nat := sumN l / (2 * max 1 l.length)

/-- RING_ECHO: round trip and turnaround in 0.25 ns, the neighbour's position; the same position is a duplicate (01 R37). -/
def ringEcho (p rtt turnaround position : Nat) (d : Dev) : Dev :=
  d.when d.ticking fun d =>
    if position % 8 = d.position then duplicateSeen d
    else
      let r := d.port p
      let l := push 16 (rtt - turnaround) r.trips
      let d := d.setPort p { r with trips := l, pings := 0 }
      let d := { d with ring := { d.ring with hops := tset d.ring.hops (2 * (position % 8) + p) 1 } }
      ((d.set (ringIx p) 3 (min 65535 (portDelay l))).set (ringIx p) 2 (position % 8)).heard (position % 8)

def execRingEcho (p : Fin 2) (rtt turnaround position : Nat) (s : State) : Out := onDev (ringEcho p rtt turnaround position) s

/-- RING_PORT_RUN: 64 ticks of alignment, with a valid echo. -/
def portUp (p : Nat) (d : Dev) : Dev :=
  d.when (d.ticking && !d.portRun p && (d.port p).trips != [] && !d.refused) fun d =>
    ((d.set (ringIx p) 1 1).raiseEv 11).setSeen d.position true

def execRingPortRun (p : Fin 2) (s : State) : Out := onDev (portUp p) s

/-- Nothing is seen with no port in RUN; what was seen last is kept (01 R42, log entry 85). -/
def isolate (d : Dev) : Dev :=
  let m := d.get 0x2668 1
  each 8 (fun i d => if i = d.position then d else d.setSeen i false) { d with ring := { d.ring with lastSeen := m } }

/-- RING_PORT_DOWN: 64 ticks without alignment, or 4 pings without an echo. Its neighbour counts as gone from the ring until it is heard
again (01 R40, log entry 85). -/
def portLost (p : Nat) (d : Dev) : Dev :=
  d.when (d.portRun p) fun d =>
    let n := d.get (ringIx p) 2
    let d := ((d.set (ringIx p) 1 0).set (ringIx p) 2 0xFF).raiseEv 11
    let d := d.setPort p { d.port p with trips := [], pings := 0 }
    let d := if n < 8 && d.get (ringIx (1 - p)) 2 != n then { d with ring := { d.ring with gone := setBit d.ring.gone n true } } else d
    if d.portRun (1 - p) then d else isolate d

def execRingPortDown (p : Fin 2) (s : State) : Out := onDev (portLost p) s

/-- RING_PING: every 1 024 ticks; a port whose last 4 pings have had no echo by then leaves RUN first (log entry 30). -/
def ringPing (p : Nat) (d : Dev) : Dev :=
  d.when (d.ticking && d.effTick % 1024 == 0 && !d.refused) fun d =>
    let d := d.when (decide (4 ≤ (d.port p).pings)) (portLost p)
    let b := ringBytes 1 d.position 0xFF 7 (d.ring.seq % 65536) (natLE 1 d.position ++ natLE 4 0)
    let d := { d with ring := { d.ring with seq := d.ring.seq + 1 } }
    (d.setPort p { d.port p with pings := (d.port p).pings + 1 }).portOut p b

def execRingPing (p : Fin 2) (s : State) : Out := onDev (ringPing p) s

/-! ## The tick marker (19 R558, 01 R38 to R40) -/

/-- A marker of a master that the part does not follow: P0 is back while another part is master, and takes its roles only at a multiple
of 32 000 (01 R40). -/
def markerOfP0 (d : Dev) : Dev :=
  { d with tick := { d.tick with p0Back := true, p0Miss := 0 } }

/-- TICK_MARKER: its 8 bytes and its arrival less the part's tick edge in 0.25 ns. A part uses the copy with fewer hops, port 0
on a tie, and forwards with hops + 1 and the delay added; the latency of forwarding is a free value. The offset shown is 0 at P0 (01 R43). A restored P0 that finds another
master follows it until a multiple of 32 000, and no part follows a restored P0 before (01 R40). -/
def tickMarker (p : Nat) (b : Bytes) (offset : Int) (d : Dev) : Dev :=
  let m := byteAt b 4 % 8
  if d.ticking && !d.refused && d.position != 0 && m == 0 && d.master != 0 then markerOfP0 d
  else if d.ticking && !d.refused && d.isMaster && m == d.position then { d with ring := { d.ring with copies := d.ring.copies + 1 } }
  else d.when (d.ticking && !d.refused && m != d.position && (!d.isMaster || d.position == 0)) fun d =>
    let h := byteAt b 5
    let a := leAt b 6 2
    let dp := d.get (ringIx p) 3
    let better := match d.ring.best with
      | some x => decide (h < x.1 ∨ (h = x.1 ∧ p < x.2))
      | none => true
    let d := { d with
      ring := { d.ring with best := if better then some (h, p) else d.ring.best, copies := d.ring.copies + 1 }
      tick := { d.tick with markerMiss := 0, p0Miss := if m = 0 then 0 else d.tick.p0Miss } }
    let d := d.when better fun d =>
      let e := offset - ((a + dp : Nat) : Int)
      let was := d.get 0x2000 2
      let d := (d.set 0x2000 2 1).setS 16 0x2000 3 (if d.position = 0 then 0 else clampI (-8192) 8191 e)
      let d := if was = 2 || d.ring.back then { d with tick := { d.tick with slewNs := e }, ring := { d.ring with back := true } } else d
      (d.setMaster m).heard m
    let d := if d.position = 0 then { d with tick := { d.tick with p0Back := true } } else d
    if h < 7 && d.portRun (1 - p) then
      let z := d.fresh 65536
      z.2.portOut (1 - p) (padTo 4 b ++ natLE 1 m ++ natLE 1 (h + 1) ++ natLE 2 (a + dp + z.1))
    else d

def execTickMarker (p : Fin 2) (marker : Bytes) (offset : Int) (s : State) : Out := onDev (tickMarker p marker offset) s

/-- The marker that the master sends at cycle 0 of the present tick (19 R558). -/
def ringMarker (d : Dev) : Dev :=
  d.when (d.isMaster && !d.refused) fun d =>
    let d := { d with ring := { d.ring with marked := true } }
    each 2 (fun p d => d.when (d.portRun p) fun d => d.portOut p (natLE 4 d.now ++ natLE 1 d.position ++ natLE 1 0 ++ natLE 2 0)) d

/-- The counts of a tick without marker or share, the slew of no more than 1 ns, and the state of the ring (01 R39, R40, R42;
19 R564): on a whole ring a part has both copies of the marker in each tick, and the master has its own back on both ports (log entry 108). -/
def ringTick (d : Dev) : Dev :=
  let s := d.tick.slewNs
  let own := d.isMaster
  let d := { d with
    tick := { d.tick with
      markerMiss := if own then 0 else d.tick.markerMiss + 1
      p0Miss := if d.position = 0 then 0 else d.tick.p0Miss + 1
      shareMiss := if own then 0 else d.tick.shareMiss + 1
      slewNs := if 4 < s then s - 4 else if s < -4 then s + 4 else 0 } }
  let d := d.when (s != 0 && !own && d.position != 0 && d.get 0x2000 2 != 2) fun d =>
    d.setS 16 0x2000 3 (clampI (-8192) 8191 d.tick.slewNs)
  let lost := if own then d.ring.marked && decide (d.ring.copies < 2) else d.ring.copies == 1
  let broken := d.onRing && (!d.portRun 0 || !d.portRun 1 || lost)
  let d := d.set 0x2668 2 (b2n broken)
  ringMarker { d with ring := { d.ring with best := none, copies := 0, back := false, marked := false } }

/-- The part's tick runs on its own reference in reference state `st`: no slew, offset 0 (01 R39, R43). -/
def ownReference (st : Nat) (d : Dev) : Dev :=
  { (d.set 0x2000 2 st).set 0x2000 3 0 with tick := { d.tick with slewNs := 0 } }

/-- HOLDOVER_ENTRY (01 R39): reference state 2, offset 0, EV5. -/
def holdoverEntry (d : Dev) : Dev :=
  d.when (d.ticking && !d.isMaster && decide (64 ≤ d.tick.markerMiss) && d.get 0x2000 2 != 2) fun d =>
    (ownReference 2 d).raiseEv 5

def execHoldoverEntry (s : State) : Out := onDev holdoverEntry s

/-- The lowest position still on the ring but P0, the part itself among them: seen, and not gone with its port (log entry 85). -/
def Dev.lowestPart (d : Dev) : Nat :=
  match (List.range 8).find? fun i => i != 0 && (i == d.position || (d.bitO 0x2668 1 i && !d.ring.gone.testBit i)) with
  | some i => i
  | none => d.position

/-- The claim of a new master (19 R560): its position and its device time. -/
def Dev.claim (d : Dev) : Dev := d.ringSend 0x20 0xFF (natLE 1 d.position ++ natLE 8 d.effTick)

/-- MASTER_TAKEOVER (01 R40): a part that is still on the ring, by a port in RUN. The rule speaks of the loss of P0 alone; where another part is master and is lost, no new master is taken: the
model's choice (log entry 86). -/
def masterTakeover (d : Dev) : Dev :=
  d.when (d.ticking && d.position != 0 && d.master == 0 && (d.portRun 0 || d.portRun 1) && decide (64 ≤ d.tick.p0Miss)) fun d =>
    let d := d.setSeen 0 false
    let d := d.setMaster d.lowestPart
    if d.isMaster then (ownReference 0 d).claim else d

def execMasterTakeover (s : State) : Out := onDev masterTakeover s

/-- MASTER_RESTORE (01 R40): a restored P0 that has not stopped again takes both roles at a tick that is a multiple of 32 000. -/
def masterRestore (d : Dev) : Dev :=
  d.when (d.ticking && d.tick.p0Back && d.effTick % 32000 == 0 && d.master != 0 && decide (d.tick.p0Miss < 64)) fun d =>
    let d := { d with tick := { d.tick with p0Back := false } }.setMaster 0
    if d.position = 0 then (ownReference 0 d).claim else d.heard 0

def execMasterRestore (s : State) : Out := onDev masterRestore s

/-- MASTER_CLAIM (19 R560). -/
def masterClaim (payload : Bytes) (d : Dev) : Dev :=
  d.when (d.ticking && !d.refused) fun d => (d.setMaster (byteAt payload 0 % 8)).heard (byteAt payload 0 % 8)

def execMasterClaim (payload : Bytes) (s : State) : Out := onDev (masterClaim payload) s

/-! ## Site power (01 R41, R42; 10 R341) -/

/-- DEMAND_REPORT from position `src`: for the master's next H6; the latest of a source counts. -/
def demandReport (payload : Bytes) (src : Nat) (d : Dev) : Dev :=
  d.when (d.running && d.isMaster) fun d =>
    let l := d.alloc.reports.filter fun x => x.1 != src
    { d with alloc := { d.alloc with reports := l ++ [(src, payload)] } }

def execDemandReport (payload : Bytes) (source : Fin 8) (s : State) : Out := onDev (demandReport payload source) s

/-- SITE_SHARES: for the next H6. -/
def siteShares (payload : Bytes) (d : Dev) : Dev :=
  d.when (d.running && !d.isMaster) fun d =>
    { d with
      alloc := { d.alloc with shares := some ((List.range 32).map fun o => leAt payload (4 + 4 * o) 4) }
      tick := { d.tick with shareMiss := 0 } }

def execSiteShares (payload : Bytes) (s : State) : Out := onDev (siteShares payload) s

/-- SHARE_FALLBACK (01 R42): no share for 64 ticks. -/
def shareFallback (d : Dev) : Dev :=
  d.when (d.running && !d.isMaster && decide (64 ≤ d.tick.shareMiss)) fun d => { d with alloc := { d.alloc with shares := none } }

def execShareFallback (s : State) : Out := onDev shareFallback s

end Sys2Proof.Machine
end

