-- ==== Sys2Proof/Machine/Alloc.lean ====
section
/-! DEFINITION. The site power allocator, the setpoints, curtailment and the control words of the heads (10 R313, R324, R325,
R335 to R342; 03 R97). -/
namespace Sys2Proof.Machine

/-! ## Curtailment (10 R340, R341) -/

/-- The curtailment as written: limit, duration and start. -/
def Dev.curtail (d : Dev) : Nat × Nat × Nat :=
  let b := d.getB 0x5810 0
  (leAt b 0 4, leAt b 4 4, leAt b 8 8)

/-- A change of state of the curtailment: EV45 and a Skein entry. -/
def Dev.setCurtail (d : Dev) (inForce waiting : Bool) (ends : Option Nat) : Dev :=
  let was := b2n d.alloc.inForce + 2 * b2n d.alloc.waiting
  let d := { d with alloc := { d.alloc with inForce := inForce, waiting := waiting, ends := ends } }.set 0x5811 1 (b2n inForce)
  let now := b2n inForce + 2 * b2n waiting
  d.when (was != now) fun d =>
    (d.raiseEv 45).skein { kind := 3, ev := some 45, ix := 0x5810, before := natLE 1 was, after := natLE 1 now }

/-- Civil time in seconds at the tick of effect. -/
def Dev.utcNext (d : Dev) : Nat := (d.civilAt d.effTick).1

/-- Apply a curtailment: a new one replaces the old one (10 R340). -/
def applyCurtail (v : Bytes) (d : Dev) : Dev :=
  let d := d.setB 0x5810 0 v
  let lim := leAt v 0 4
  let dur := leAt v 4 4
  let start := leAt v 8 8
  if lim = 0xFFFFFFFF then d.setCurtail false false none
  else if start = 0 then d.setCurtail true false (if dur = 0 then none else some (d.effTick + 32000 * dur))
  else if d.civil.valid && start ≤ d.utcNext then d.setCurtail (dur == 0 || decide (d.utcNext < start + dur)) false none
  else d.setCurtail false true none

/-- The effect of a write to 0x5810: applied at the master, else forwarded to it in the next report (10 R341). -/
def effCurtail (v : Bytes) (d : Dev) : Dev :=
  if d.isMaster then applyCurtail v d
  else { d with alloc := { d.alloc with forward := some v } }.setB 0x5810 0 v

def execCurtailmentWrite (role : Role) (v : Bytes) (s : State) : Out :=
  onDev (writeObj role 0x5810 0 (.raw v) {} (effCurtail v)) s

/-- CURTAILMENT_START: its UTC start has come. -/
def curtailStart (d : Dev) : Dev :=
  let c := d.curtail
  d.when (d.running && d.alloc.waiting && d.civil.valid && decide (c.2.2 ≤ d.utcNext)) fun d =>
    d.setCurtail (c.2.1 == 0 || decide (d.utcNext < c.2.2 + c.2.1)) false none

def execCurtailmentStart (s : State) : Out := onRun curtailStart s

/-- CURTAILMENT_EXPIRY: the end of its duration; one with a start time is kept while civil time is invalid. -/
def curtailExpiry (d : Dev) : Dev :=
  let c := d.curtail
  let due := match d.alloc.ends with
    | some t => decide (t ≤ d.effTick)
    | none => c.2.2 != 0 && c.2.1 != 0 && d.civil.valid && decide (c.2.2 + c.2.1 ≤ d.utcNext)
  d.when (d.running && d.alloc.inForce && due) fun d => d.setCurtail false false none

def execCurtailmentExpiry (s : State) : Out := onRun curtailExpiry s

/-- CURTAILMENT_FORWARD (10 R341): applied at the master. -/
def curtailForward (payload : Bytes) (d : Dev) : Dev :=
  d.when (d.running && d.isMaster && payload.length == 16) (applyCurtail payload)

def execCurtailmentForward (payload : Bytes) (s : State) : Out := onDev (curtailForward payload) s

/-! ## The allocation (10 R335 to R338) -/

/-- What one outlet brings to the allocation: its key (32 × position + outlet), demand or return in W, weight, floor, whether it
returns. -/
structure Bid where
  key : Nat
  d : Nat
  w : Nat
  floor : Nat
  ret : Bool
deriving DecidableEq, Repr

/-- The division by weight of `rem` W over open outlets (10 R336). -/
def shareOut : Nat → Nat → List Bid → List (Nat × Nat)
  | 0, _, _ => []
  | f + 1, rem, l =>
    let wsum := sumN (l.map Bid.w)
    if wsum = 0 then []
    else
      let level := rem / wsum
      let settled := l.filter fun b => decide (b.d ≤ b.w * level)
      if settled = [] then l.map fun b => (b.key, b.w * level)
      else
        settled.map (fun b => (b.key, b.d)) ++
          shareOut f (rem - sumN (settled.map Bid.d)) (l.filter fun b => decide (b.w * level < b.d))

/-- The value at a key of a list of pairs, 0 where it has none. -/
def lookup (k : Nat) (l : List (Nat × Nat)) : Nat :=
  match l.find? fun x => x.1 == k with
  | some x => x.2
  | none => 0

/-- The outlet to be set aside: of those below their floor the lowest weight, ties to the highest number (10 R337). -/
def asideNext (l : List Bid) (a : List (Nat × Nat)) : Option Nat :=
  let low := l.filter fun b => decide (lookup b.key a < b.floor)
  match low.foldl (fun (x : Option Bid) b => match x with
      | some y => if b.w < y.w || (b.w == y.w && decide (y.key < b.key)) then some b else x
      | none => some b) none with
  | some b => some b.key
  | none => none

/-- R336 and R337: the allocations of the open outlets. -/
def allocate : Nat → Nat → List Bid → List (Nat × Nat)
  | 0, _, _ => []
  | f + 1, avail, l =>
    let a := shareOut (l.length + 1) avail l
    match asideNext l a with
    | some k => allocate f avail (l.filter fun b => b.key != k)
    | none => a

/-- Return allowances (10 R338). -/
def allowances (room : Nat) (l : List Bid) : List (Nat × Nat) :=
  let sum := sumN (l.map Bid.d)
  l.map fun b => (b.key, if sum ≤ room then b.d else b.d * room / max 1 sum)

/-- The powers of a site: supply meters, outlets, and whether a supply meter is named. -/
structure SitePower where
  site : Int := 0
  outs : Int := 0
  named : Bool := false
deriving DecidableEq, Repr

/-- R335 to R338 under a limit: the power available, the other load and what each outlet gets. -/
def Dev.solve (d : Dev) (limit : Nat) (p : SitePower) (l : List Bid) : Nat × Nat × List (Nat × Nat) :=
  let other := if p.named then (p.site - p.outs).toNat else 0
  let avail := limit - other - d.get 0x5800 3
  let exp := if p.named then (p.outs - p.site).toNat else 0
  let isOpen := l.filter fun b => !b.ret && decide (0 < b.d)
  (avail, other, allocate (isOpen.length + 1) avail isOpen ++ allowances (d.get 0x5800 2 - exp) (l.filter Bid.ret))

/-- The limit of R335. -/
def Dev.siteLimit (d : Dev) : Nat :=
  if d.alloc.inForce then min (d.get 0x5800 1) d.curtail.1 else d.get 0x5800 1

/-- The fallback share (10 R342). -/
def Dev.fallback (d : Dev) : Nat := if d.get 0x5800 5 = 0 then d.get 0x5800 1 / max 1 d.partsSeen else d.get 0x5800 5

/-- Mean active power of the latest quantum of meter `m`, W (05 R194). -/
def Dev.meanPower (d : Dev) (m : Nat) : Int :=
  let n := d.get (meterIx m + 5) 2
  if n = 0 then 0 else d.getS 64 (meterIx m + 5) 3 / ((n : Int) * 2 ^ 22)

/-- The powers of the part's own meters. -/
def Dev.sitePower (d : Dev) : SitePower :=
  let mask := d.get 0x5800 4
  { site := sumI ((bitsOf 8 mask).map fun s => if s < 4 then d.meanPower (32 + s) else 0)
    outs := sumI ((List.range 32).map d.meanPower)
    named := mask % 16 != 0 }

/-! ## One outlet's limits (10 R324, R325, R338, R339) -/

/-- The cable-side voltage in V, rounded down, at least 1. -/
def Dev.cableV (d : Dev) (o : Nat) : Nat :=
  max 1 (if d.code o = 1 then sumN ((bitsOf 4 (d.get (meterIx o) 2)).map fun e => d.get (meterIx o + 5) (0xB + e)) / 65536
    else (d.sample (d.get (outletIx o) 6)).y.natAbs / 4096)

/-- Whether outlet `o` returns energy: asked for and permitted. -/
def Dev.returning (d : Dev) (o : Nat) : Bool := d.get (outletIx o + 1) 6 == 1 && d.get (outletIx o) 0xC == 1

/-- Whether the samples of outlet `o` are valid (01 R23). -/
def Dev.samplesOk (d : Dev) (o : Nat) : Bool :=
  (d.currentChannels o).all (fun x => (d.sample x.2).valid) &&
    (decide (288 ≤ d.get (outletIx o) 6) || (d.sample (d.get (outletIx o) 6)).valid)

/-- Whether the setpoint of outlet `o` is held at 0: warning, stale limits, invalid samples, a trip, the vehicle gone, a return that is
not permitted, CE of code 7 not above its level (01 R23, 09 R294, 10 R323, R324, R331). -/
def Dev.zeroNow (d : Dev) (o : Nat) : Bool :=
  d.warned || d.bitO (outletIx o + 3) 2 3 || d.limitsOld o d.now || !d.samplesOk o || d.tripHeld o || d.absent o
    || (decide (1 ≤ d.code o ∧ d.code o ≤ 4) && decide (4 ≤ d.pilotState o))
    || (d.get (outletIx o + 1) 6 == 1 && d.get (outletIx o) 0xC == 0)
    || (d.code o == 7 && decide (d.pilotSample o ≤ d.get (outletIx o + 4) 8))

/-- The same, or the setpoint falls after a loss of the link (10 R339). -/
def Dev.zeroed (d : Dev) (o : Nat) : Bool := d.zeroNow o || (d.out o).linkLoss

/-- The limit of R325 without the allocation term, 2^-4 A. -/
def Dev.ownLimit (d : Dev) (o : Nat) : Nat :=
  let v := outletIx o
  if d.step o != 6 || d.zeroed o then 0
  else
    let host := if d.returning o then min (d.get (v + 1) 1) (d.get (v + 1) 4) else d.get (v + 1) 1
    let pow := d.get (v + 1) 3
    let l := min host (min (d.vehicleRequest o).1 (min (field (d.get v 8) 0 20) (d.protLimit o)))
    let l := if pow = 0 then l else min l (pow * 16 / d.cableV o)
    match d.cableRating o with
    | some c => min l c
    | none => l

/-- The floor of outlet `o`, W (10 R337). -/
def Dev.floorW (d : Dev) (o : Nat) : Nat :=
  if d.get (outletIx o) 0xB = 0 && d.code o == 1 then 6 * d.cableV o else d.get (outletIx o) 0xB

/-- What outlet `o` brings: its demand, or its return limit in W. -/
def Dev.bid (d : Dev) (o : Nat) : Bid :=
  let r := d.returning o
  let i := if r then (if d.step o != 6 || d.zeroed o then 0 else d.get (outletIx o + 1) 4) else d.ownLimit o
  { key := 32 * d.position + o, d := i * d.cableV o / 16, w := d.get (outletIx o) 0xA, floor := d.floorW o, ret := r && d.step o == 6 }

/-- The bids of the part's outlets in step 6. -/
def Dev.bids (d : Dev) : List Bid := ((List.range 32).filter fun o => d.step o == 6).map d.bid

/-- Apply allocation or allowance `a` W to outlet `o`: the setpoint falls at once and rises by the ramp rate (10 R339); the status
bits and objects. -/
def applyShare (o a : Nat) (d : Dev) : Dev :=
  let v := outletIx o
  let r := d.out o
  let target := if d.step o = 6 then min (d.ownLimit o) (16 * a / d.cableV o) else 0
  let ramp := d.get v 0xD
  let falling := r.linkLoss && (d.step o == 6 || d.step o == 7) && !d.zeroNow o
  let i := if falling then r.current - ramp else if target ≤ r.current then target else min target (r.current + ramp)
  let b := d.bid o
  let aside := d.step o == 6 && !b.ret && decide (0 < b.d ∧ a < b.floor)
  let first := aside && !d.bitO 0x5811 4 o
  let d := d.setOut o { r with current := i }
  let d := (d.set (v + 3) 4 a).set (v + 3) 5 ((d.cableRating o).getD 0)
  let d := (d.setBitO (v + 3) 2 6 aside).setBitO (v + 3) 2 7 (d.step o == 6 && d.returning o)
  (d.setBitO 0x5811 4 o aside).when first fun d => d.raiseEv 46

/-! ## Reports and shares of a ring (10 R341; 19 R560) -/

/-- A power clamped to 32 bits signed. -/
def i32 (x : Int) : Bytes := natLE 4 (spat 32 (satS 32 x))

/-- The part's demand report. -/
def demandPayload (d : Dev) : Bytes :=
  let p := d.sitePower
  let mask := d.get 0x5800 4 % 16
  natLE 4 d.now ++ natLE 1 mask ++ natLE 1 (b2n (d.get 0x2000 2 == 2)) ++ zeros 2 ++ i32 p.outs
    ++ (List.range 4).flatMap (fun s => i32 (if mask.testBit s then d.meanPower (32 + s) else 0))
    ++ (List.range 32).flatMap fun o =>
      let b := d.bid o
      let x := d.step o == 6
      natLE 2 (if x then min 65535 (b.d / 100) else 0) ++ natLE 1 (min 255 ((b.floor + 999) / 1000)) ++ natLE 1 b.w
        ++ natLE 1 (b2n (x && !b.ret && decide (0 < b.d)) + 2 * b2n (x && b.ret))

/-- The bids of a report of position `src`. -/
def reportBids (src : Nat) (b : Bytes) : List Bid :=
  (List.range 32).filterMap fun o =>
    let at' := 28 + 5 * o
    let fl := byteAt b (at' + 4)
    if fl % 4 = 0 then none
    else some { key := 32 * src + o, d := 100 * leAt b at' 2, w := byteAt b (at' + 3), floor := 1000 * byteAt b (at' + 2), ret := fl.testBit 1 }

/-- The powers of the reports of a site. -/
def reportPower (l : List (Nat × Bytes)) : SitePower :=
  { site := sumI (l.map fun x => sumI ((bitsOf 4 (byteAt x.2 4)).map fun s => sval 32 (leAt x.2 (12 + 4 * s) 4)))
    outs := sumI (l.map fun x => sval 32 (leAt x.2 8 4))
    named := l.any fun x => byteAt x.2 4 % 16 != 0 }

/-- The share of each of the 32 outlets of position `p`. -/
def sharesOf (p : Nat) (a : List (Nat × Nat)) : List Nat := (List.range 32).map fun o => lookup (32 * p + o) a

/-- The master's work in H6: shares from the reports of the previous tick, sent to each part; its own for its next H6. -/
def masterShares (d : Dev) : Dev :=
  let l := d.alloc.reports
  if l = [] then d
  else
    let s := d.solve d.siteLimit (reportPower l) (l.flatMap fun x => reportBids x.1 x.2)
    let d := (d.set 0x5811 2 (min s.1 (2 ^ 32 - 1))).set 0x5811 3 (min s.2.1 (2 ^ 32 - 1))
    let d := eachN ((l.map Prod.fst).filter fun p => p != d.position) (fun p d =>
      d.ringSend 0x11 p (padTo 4 ((l.headD (0, [])).2) ++ (sharesOf p s.2.2).flatMap (natLE 4))) d
    { d with alloc := { d.alloc with reports := [], shares := some (sharesOf d.position s.2.2) } }

/-- ALLOCATION in H6 (10 R325, R335 to R342). A part that is not master and has had no share yet takes its fallback share at once, before 64
ticks have passed; a master on a ring gives its own outlets nothing before its first own share; P0 cut off from its ring uses the site limit,
an acting master cut off its fallback share: 01 R41 and R42 say nothing of them: the model's choice (log entry 87). -/
def allocationTick (d : Dev) : Dev :=
  if d.onRing && (d.isMaster || (d.alloc.shares.isSome && d.get 0x2000 2 != 2)) then
    let sh := d.alloc.shares.getD []
    let d := each 32 (fun o d => applyShare o (sh.getD o 0) d) d
    d.when d.isMaster masterShares
  else
    let s := d.solve (if d.isMaster && d.position == 0 then d.siteLimit else d.fallback) d.sitePower d.bids
    let d := (d.set 0x5811 2 (min s.1 (2 ^ 32 - 1))).set 0x5811 3 (min s.2.1 (2 ^ 32 - 1))
    each 32 (fun o d => applyShare o (lookup (32 * d.position + o) s.2.2) d) d

/-- The part's report in H7, to the master or kept by it, and a curtailment to be forwarded (01 R41, 10 R341). -/
def reportTick (d : Dev) : Dev :=
  d.when d.onRing fun d =>
    let b := demandPayload d
    if d.isMaster then
      { d with alloc := { d.alloc with reports := d.alloc.reports.filter (fun x => x.1 != d.position) ++ [(d.position, b)] } }
    else
      let d := d.ringSend 0x10 d.master b
      match d.alloc.forward with
      | some v => { d.ringSend 0x12 d.master v with alloc := { d.alloc with forward := none } }
      | none => d

/-! ## The control words of the heads (03 R97; 10 R313, R321, R325; 11 R358, R360, R362) -/

/-- The duty of code 1 from setpoint `i`, 0.01 % (10 R313). -/
def dutyOf (i : Nat) : Nat := if i < 96 then 10000 else if i ≤ 816 then i * 125 / 12 else if i ≤ 1280 then i * 5 / 2 + 6400 else 9600

/-- Pilot mode and duty of outlet `o`. -/
def Dev.pilotDrive (d : Dev) (o : Nat) : Nat × Nat :=
  let c := d.code o
  if c = 0 || 5 ≤ c then (0, 10000)
  else if d.pilotPwm o then (2, if c = 1 then dutyOf (d.out o).current else 500)
  else (1, 10000)

/-- CW2: the test voltage in step 3, else the smallest of the host's limit, the vehicle's target and the rated voltage. -/
def Dev.voltLimit (d : Dev) (o : Nat) : Nat :=
  if d.step o = 3 then d.testVoltage o
  else min (d.get (outletIx o + 1) 2) (min (d.vehicleRequest o).2 (16 * d.ratedV o))

/-- The head outputs of outlet `o`: the self-test, the measuring resistor, and the lines of codes 5 and 6 (log entry 22). -/
def Dev.headOutputs (d : Dev) (o : Nat) : Nat :=
  let p := d.prot o
  let test := match p.selfTest with
    | some _ => if p.firstDone then [] else [d.get (protIx o) 0xD % 8]
    | none => []
  let sw := d.get (insIx o) 5
  let ins := if d.insRuns o then (if p.ins.state = 2 then [field sw 3 3] else [field sw 0 3]) else []
  let step := d.step o
  let lines := if d.code o = 5 then (if 2 ≤ step ∧ step ≤ 8 then [0] else []) ++ (if 5 ≤ step ∧ step ≤ 7 then [1] else [])
    else if d.code o = 6 then (if 1 ≤ step then [0] else []) else []
  (test ++ ins ++ lines).foldl (fun m i => setBit m i true) 0

/-- CW1 of outlet `o`: its setpoint; in the insulation test and the precharge the power stage of a DC outlet runs at a current that the spec
does not give, free up to the outlet's rating and protection limit (10 R326; log entry 47). -/
def stageCurrent (o : Nat) (d : Dev) : Nat × Dev :=
  let m := min (field (d.get (outletIx o) 8) 0 20) (d.protLimit o)
  if (d.step o == 3 || d.step o == 4) && d.code o != 1 && !d.zeroed o && m != 0 then
    let z := d.fresh m
    (z.1 + 1, z.2)
  else ((d.out o).current, d)

/-- The control words of link `l` with current `i` (03 R97, R103): in ALIGN zero but for CW6, before it and in RATE none is sent. -/
def controlWords (d : Dev) (l i : Nat) : List Nat :=
  let r := d.link l
  let st := d.linkState l
  if st < 3 || st = 4 || st = 7 then [0, 0, 0, 0, 0, 0, 0, 0]
  else if st = 3 then [0, 0, 0, 0, 0, 0, r.dAdj, 0]
  else
    let mods := maskOf ((List.range 8).map fun k => d.get (0x3000 + 8 * l + k) 1 != 0)
    if l < 32 then
      let pd := d.pilotDrive l
      [pd.2 + pd.1 * 2 ^ 14, min i (2 ^ 20 - 1) + (if d.step l = 6 && d.returning l then 2 ^ 31 else 0),
       min (d.voltLimit l) (2 ^ 20 - 1), mods + 256 * d.headOutputs l, r.cw4, 0, r.dAdj, 0]
    else [0, 0, 0, mods, r.cw4, 0, r.dAdj, 0]

/-- The modem transmit samples of link `l`: the waveform of an outlet's HomePlug baseband is not in the spec and is free (log entry 93); every
other link sends zeros. -/
def modemOut (l : Nat) (d : Dev) : Bytes × Dev :=
  if decide (l < 32) && d.linkState l == 5 && decide (2 ≤ d.code l ∧ d.code l ≤ 4) then d.freshBytes 4608 else (zeros 4608, d)

/-- What link `l` sends in the tick (03 R91, R103, R104): frames in ALIGN, RUN and RECOVER, the request set in IDENTIFY, the rate set in
RATE. -/
def linkSend (l : Nat) (cw : List Nat) (d : Dev) : Dev :=
  let r := d.link l
  let st := d.linkState l
  if st = 3 ∨ st = 5 ∨ st = 6 then
    let z := if r.lineGen = 2 then modemOut l d else ([], d)
    z.2.setLink l { r with sent := downFrame d.now r.lineGen cw z.1 }
  else d.setLink l { r with sent := if st = 2 then d.requestSet l else if st = 4 then d.rateSet l else [] }

/-- The down sideband's steady line states (03 R110; 10 R319): recessive, and in normal mode where the tunnel of an outlet with a CAN interface is
up. -/
def Dev.sideband (d : Dev) (l : Nat) : Nat := 1 + 2 * b2n (decide (l < 32) && d.tunnel l && (d.code l == 5 || d.code l == 6))

/-- The frames to the heads in H7: control words, a CW4 access sent in one frame in RUN or RECOVER (log entry 92), the frame itself, which is
the frame of the tick in whose H7 the words are formed, the model's choice (log entry 110), the sideband, the
setpoint as sent and the duty in force. -/
def headFrames (d : Dev) : Dev :=
  each 36 (fun l d =>
    let z := if l < 32 then stageCurrent l d else (0, d)
    let cw := controlWords z.2 l z.1
    let d := linkSend l cw z.2
    let r := d.link l
    let go := (d.linkState l == 5 || d.linkState l == 6) && r.cw4 != 0
    let d := d.setLink l { r with cw := cw, cw4Sent := if go then push 64 d.now r.cw4Sent else r.cw4Sent, cw4 := if go then 0 else r.cw4, sideband := d.sideband l }
    if l < 32 then
      let d := d.set (outletIx l + 3) 3 (cw.getD 1 0)
      if d.now % 32 = 0 then d.set (outletIx l + 4) 2 (d.pilotDrive l).2 else d
    else d) d

/-- The permit enables that the command frame of the tick asks for (11 R348; 20 R591). -/
def permitTick (d : Dev) : Dev :=
  each 8 (fun g d =>
    let os := d.groupOutlets g
    let en := os.any (fun o => d.stepIn o 3 7) && !os.any (fun o => d.tripHeld o) && !d.pausing 2
    (d.setGrp g { d.grp g with enabled := en }).setBitO (protIx g) 0x23 3 en) d

/-! ## Host frames to the vehicle (19 R553; 10 R318, R319) -/

/-- Count a record of stream channel `v` dropped. -/
def Dev.dropRecord (d : Dev) (v : Nat) : Dev := d.inc (0x2618 + v) 4

/-- A type-0x40 record of the host: sent to the outlet's vehicle where its path is open, else dropped and counted. -/
def vehicleRecord (word : Nat) (payload : Bytes) (d : Dev) : Dev :=
  let o := word % 256
  let can := word.testBit 8
  let lenOk := if can then byteAt payload 4 ≤ 8 && payload.length == 8 + byteAt payload 4
    else decide (14 ≤ payload.length ∧ payload.length ≤ 1514)
  if o < 32 && (if can then d.canOpen o else d.etherOpen o) && lenOk then
    d.setOut o { d.out o with out := (d.out o).out ++ [(can, payload)] }
  else d.dropRecord 4

def execVehicleLinkRecord (word : Nat) (payload : Bytes) (s : State) : Out := onDev (fun d => d.when d.running (vehicleRecord word payload)) s

end Sys2Proof.Machine
end

