-- ==== Sys2Proof/Machine/Tamper.lean ====
section
/-! DEFINITION. The tamper domain of the Mill die: inputs, records, battery and configuration (08 R283 to R287). -/
namespace Sys2Proof.Machine

/-- Tamper record `r`, empty where its slot holds none. -/
def Dev.tamperRec (d : Dev) (r : Nat) : Bytes := d.getB 0x4DE2 (r + 1)

/-- Whether slot `r` holds a record. -/
def Dev.tamperHas (d : Dev) (r : Nat) : Bool := leAt (d.tamperRec r) 8 4 != 0

/-- Whether slot `r` holds a record not yet copied. -/
def Dev.tamperDue (d : Dev) (r : Nat) : Bool := d.tamperHas r && !(byteAt (d.tamperRec r) 12).testBit 0

/-- The slot of a new record: an empty one, else the oldest copied one (08 R286). -/
def Dev.tamperSlot (d : Dev) : Option Nat :=
  match (List.range 64).find? fun r => !d.tamperHas r with
  | some r => some r
  | none =>
    ((List.range 64).filter fun r => !d.tamperDue r).foldl (fun (a : Option Nat) r =>
      match a with
      | some x => if leAt (d.tamperRec r) 8 4 < leAt (d.tamperRec x) 8 4 then some r else a
      | none => some r) none

/-- The 16 bytes of a record (08 R285). -/
def tamperBytes (i : Nat) (active supply valid : Bool) (clock : Nat × Nat) (seq : Nat) : Bytes :=
  natLE 5 clock.1 ++ natLE 2 (clock.2 % 32768) ++ natLE 1 (i % 8 + 8 * b2n active + 16 * b2n supply + 32 * b2n valid)
    ++ natLE 4 seq ++ zeros 4

/-- TAMPER_INPUT_CHANGE: input `i` has held a level for `samples` consecutive samples at the crystal's count `raw`; it changes state where they
are the debounce count (08 R285, R286). The mode tells how the input is sampled. -/
def tamperInput (i : Nat) (active : Bool) (samples : Nat) (raw : Nat × Nat) (d : Dev) : Dev :=
  if d.tamperOn && d.bitO 0x4DE0 6 i != active && decide (d.tamper.debounce.getD i 0x20 ≤ samples) then
    let d := (d.clockRead (some raw)).setBitO 0x4DE0 6 i active
    if d.tamper.enabled.testBit i then
      match d.tamperSlot with
      | some r =>
        let n := d.tamper.next
        let d := d.setB 0x4DE2 (r + 1) (tamperBytes i active (d.loom != .unpowered) d.tamper.clock.isSome (d.tamper.clock.getD (0, 0)) n)
        { d.satInc 16 0x4DE0 5 1 with tamper := { d.tamper with next := n + 1 } }
      | none => d.satInc 16 0x4DE3 (i + 1) 1
    else d
  else d

def execTamperInputChange (i : Fin 8) (level : Bool × Nat) (battery : Nat × Nat) (s : State) : Out :=
  onDev (tamperInput i level.1 level.2 battery) s

/-- TAMPER_RECORD_COPY (08 R286): event 0x0012, the record marked, EV29. -/
def tamperCopy (r : Nat) (d : Dev) : Dev :=
  d.when (d.tamperDue r) fun d =>
    let b := d.tamperRec r
    let d := d.eventData 0x0012 0xFF (byteAt b 7 % 8) b
    (d.setB 0x4DE2 (r + 1) (b.take 12 ++ natLE 1 (setBit (byteAt b 12) 0 true) ++ b.drop 13)).raiseEv 29

def execTamperRecordCopy (r : Fin 64) (s : State) : Out := onDev (fun d => d.when d.running (tamperCopy r)) s

/-- Every waiting record, oldest first. -/
def tamperCopyAll (d : Dev) : Dev :=
  eachN (sortBy (fun a b => decide (leAt (d.tamperRec a) 8 4 ≤ leAt (d.tamperRec b) 8 4)) ((List.range 64).filter d.tamperDue)) tamperCopy d

/-- BATTERY_LOW (08 R283). -/
def batteryLow (d : Dev) : Dev :=
  d.when (d.tamperOn && !d.bitO 0x4DE0 4 1) fun d => (d.setBitO 0x4DE0 4 1 true).when d.ticking fun d => d.raiseEv 30

def execBatteryLow (s : State) : Out := onDev batteryLow s

/-- TAMPER_DOMAIN_STOP (08 R283, R287): below 1.8 V the clock, the records and the configuration are lost; while the main supply is there the
domain runs from it. -/
def tamperStop (d : Dev) : Dev :=
  d.when (d.loom == .unpowered) fun d =>
  let d := { d with tamper := { stopped := true } }
  let d := each 64 (fun r d => d.setB 0x4DE2 (r + 1) (blobDefault 0x4DE2 (r + 1))) d
  let d := each 8 (fun i d => d.set 0x4DE3 (i + 1) 0) d
  ((d.set 0x4DE0 4 0).set 0x4DE0 5 0).set 0x4DE0 6 0

def execTamperDomainStop (s : State) : Out := onDev tamperStop s

/-- TAMPER_DOMAIN_RESTART (08 R283): VBAT has returned, at `mv` mV; the next start of the Loom die writes event 0x0018. -/
def tamperRestart (mv : Nat) (d : Dev) : Dev :=
  d.when d.tamper.stopped fun d =>
    let d := { d with tamper := { d.tamper with stopped := false, restarted := true, restartMv := mv } }
    let d := (d.setBitO 0x4DE0 4 2 true).setBitO 0x4DE0 4 1 (decide (mv < 2100))
    d.when (d.ticking && decide (mv < 2100)) fun d => d.raiseEv 30

def execTamperDomainRestart (battery : Nat) (s : State) : Out := onDev (tamperRestart battery) s

/-- The work of a start: the restart event, every waiting record, the configuration loaded (08 R283, R286, R287). -/
def tamperStart (mv : Nat) (d : Dev) : Dev :=
  let d := d.when d.tamper.restarted fun d =>
    { d.eventData 0x0018 0xFF 0 (natLE 2 d.tamper.restartMv) with tamper := { d.tamper with restarted := false } }
  let d := d.setBitO 0x4DE0 4 2 false
  let d := if d.tamperOn && mv < 2100 then (d.setBitO 0x4DE0 4 1 true).raiseEv 30 else d.setBitO 0x4DE0 4 1 false
  let d := tamperCopyAll d
  { d with tamper := { d.tamper with enabled := d.get 0x4DE0 1, mode := d.get 0x4DE0 2, trim := d.getS 8 0x4DE0 3
                                     debounce := (List.range 8).map fun i => d.get 0x4DE1 (i + 1) } }

/-- The effect of a write to the tamper configuration (08 R287): stored with event 0x0019, loaded at the next start. -/
def effTamper (role : Role) (ix sub v : Nat) (d : Dev) : Dev :=
  let old := d.get ix sub
  (d.eventEff 0x0019 (roleCode role) (if ix = 0x4DE1 then sub - 1 else subjObj ix sub) (natLE 1 old) (natLE 1 v)).set ix sub v

/-- A write to 0x4DE0 or 0x4DE1. -/
def writeTamper (role : Role) (ix sub v : Nat) (d : Dev) : Dev := writeObj role ix sub (.num v) {} (effTamper role ix sub v) d

def execTamperConfigurationWritten (role : Role) (ix : Fin 2) (sub v : Nat) (s : State) : Out :=
  onDev (writeTamper role (0x4DE0 + ix) sub v) s

end Sys2Proof.Machine
end

