-- ==== Sys2Proof/Machine/Motion.lean ====
section
/-! DEFINITION. Motion safety: encoders, monitored limits, STO, referencing, degraded mode, the Whorl pairs and the safety
island (chapter 12). -/
namespace Sys2Proof.Machine

/-- The object of axis `a`. -/
def axisIx (a : Nat) : Nat := 0x6800 + a
/-- The record of axis `a`. -/
def Dev.axis (d : Dev) (a : Nat) : AxisRec := tget {} d.axes a
/-- The part with the record of axis `a` set. -/
def Dev.setAxis (d : Dev) (a : Nat) (r : AxisRec) : Dev := { d with axes := tset d.axes a r }
/-- Bit `i` of the status of axis `a` (12 R399). -/
def Dev.ax (d : Dev) (a i : Nat) : Bool := d.bitO (axisIx a) 0x30 i
/-- Set bit `i` of the status of axis `a`. -/
def Dev.setAx (d : Dev) (a i : Nat) (b : Bool) : Dev := d.setBitO (axisIx a) 0x30 i b
/-- Set part-wide sub-indices, which read the same in all four axis objects (12 R398). -/
def Dev.setWhorl (d : Dev) (sub v : Nat) : Dev := each 4 (fun a d => d.set (axisIx a) sub v) d
/-- Whether pair `p` has failed. -/
def Dev.pairFailed (d : Dev) (p : Nat) : Bool := d.bitO 0x6800 0x40 (2 + p)
/-- Whether a takeover is running. -/
def Dev.takingOver (d : Dev) : Bool := d.whorl.takeover.isSome

/-! ## Trips and STO (12 R380, R381, R383, R388) -/

/-- Ask for the end of the sessions of the outlets that axis `a` serves, in steps `lo` to 6 (12 R383). -/
def axisOutlets (a lo : Nat) (d : Dev) : Dev :=
  eachN ((bitsOf 32 (d.get (axisIx a) 0x16)).filter fun o => d.stepIn o lo 6) (fun o d => d.askEnd o 3) d

/-- The axis holds a trip of cause `c` from tick `n`: EV64, a Skein entry, the outlets it serves; the third within 24 hours is to
be cleared by service; an output fault becomes the cause of a trip that is held (12 R383, R387, R397; log entry 51). -/
def axisTrip (a c n : Nat) (d : Dev) : Dev :=
  if d.ax a 2 then d.when (c == 8) fun d => (d.set (axisIx a) 0x36 8).setAxis a { d.axis a with service := true }
  else
    let ix := axisIx a
    let before := d.get ix 0x30
    let r := d.axis a
    let third := match r.trips with
      | _ :: t :: _ => decide (n ≤ t + 2764800000)
      | _ => false
    let d := ((d.setAx a 2 true).set ix 0x36 c).inc ix 0x38
    let d := (d.set ix 0x39 n).setAxis a { r with trips := push 2 n r.trips, service := third || c == 8 }
    let d := (d.raiseEv 64).skein { kind := 2, ev := some 64, ix := ix, sub := 0x30, before := natLE 2 before, after := natLE 1 c }
    axisOutlets a 2 d

/-- Apply STO on axis `a` at tick `n` with trip cause `c`, 0 for none; in degraded mode it holds a trip of cause 7. -/
def stoApply (a c n : Nat) (d : Dev) : Dev :=
  let c := if d.ax a 4 && c != 8 then 7 else c
  let d := (d.setAx a 0 true).setAx a 1 true
  let d := ((d.setAx a 3 false).setAx a 4 false).setAx a 5 false
  let d := (d.setAxis a { d.axis a with ss1 := none, entry := none, degradedAt := none }).set (axisIx a) 0x35 0
  d.when (c != 0) (axisTrip a c n)

/-- STO by the supervision, the sessions of the outlets in step 6 ended where `ends` says so (12 R383). While a takeover runs it waits for the new
pair, the first cause of a trip kept (12 R391). -/
def react (a c n : Nat) (ends : Bool) (d : Dev) : Dev :=
  if d.takingOver then
    let r := d.axis a
    let o := r.due.getD (0, false)
    d.setAxis a { r with due := some (if o.1 = 0 then c else o.1, o.2 || ends) }
  else stoApply a c n (d.when ends (axisOutlets a 6))

/-! ## Speeds and positions (12 R377) -/

/-- Units of one metre or one turn. -/
def Dev.unitsOf (d : Dev) (a : Nat) : Int := if d.bitO (axisIx a) 1 1 then 360000 else 1000000

/-- Counts of a channel over the speed window. -/
def EncRec.delta (e : EncRec) (w : Nat) : Int := e.p - e.hist.getD w e.p

/-- Resolution of channel X (false) or Y (true). -/
def Dev.res (d : Dev) (a : Nat) (y : Bool) : Nat := d.get (axisIx a) (if y then 3 else 2)

/-- The speed window. -/
def Dev.win (d : Dev) (a : Nat) : Nat := d.get (axisIx a) 4

/-- Whether the speed |counts over the window| exceeds `num / den` units per second. -/
def speedOver (u : Int) (res w : Nat) (delta : Int) (num den : Int) : Bool :=
  decide (num * res * w < (delta.natAbs : Int) * u * 32000 * den)

/-- Whether the speed exceeds the falling envelope of `s`: v0 - d × t + tolerance (12 R380). -/
def envelopeOver (u : Int) (res w : Nat) (delta d0 : Int) (dec tol t : Nat) : Bool :=
  decide ((d0.natAbs : Int) * u * 32000 * 32000 + ((tol : Int) * 32000 - (dec : Int) * t) * res * w
    < (delta.natAbs : Int) * u * 32000 * 32000)

/-- Position in units above `x`: exact comparison of p × u with x × res. -/
def posOver (u : Int) (res : Nat) (e : EncRec) (x : Int) : Bool := decide ((x - e.ref) * res < (e.p - e.origin) * u)

/-- Position in units below `x`. -/
def posUnder (u : Int) (res : Nat) (e : EncRec) (x : Int) : Bool := decide ((e.p - e.origin) * u < (x - e.ref) * res)

/-- The predicted stopping position less (x - ref), scaled by 2 × dec × res² × w² (12 R380). -/
def predicted (u : Int) (res w dec : Nat) (e : EncRec) (x : Int) : Int :=
  let dl := e.delta w
  let v := dl * u * 32000
  let s : Int := if 0 ≤ dl then 1 else -1
  ((e.p - e.origin) * u - (x - e.ref) * res) * (2 * dec * res * w * w) + s * v * v

/-- Position in units, rounded down. -/
def EncRec.units (e : EncRec) (u : Int) (res : Nat) : Int := if res = 0 then 0 else (e.p - e.origin) * u / res + e.ref

/-- Speed in units per second, rounded down. -/
def speedUnits (u : Int) (res w : Nat) (delta : Int) : Int := if res = 0 || w = 0 then 0 else delta * u * 32000 / ((res * w : Nat) : Int)

/-- The signed 32-bit step from one counter value to the next. -/
def countStep (last now : Int) : Int := sval 32 (spat 32 (now - last))

/-- A channel with a new counter value, inverted or not. -/
def EncRec.take (e : EncRec) (first inv : Bool) (c : Int) : EncRec :=
  let s := if first then 0 else countStep e.last c
  let p := e.p + (if inv then -s else s)
  { e with last := c, p := p, hist := push 65 p (if e.hist = [] then List.replicate 65 e.p else e.hist) }

/-! ## Safe stop 1 and degraded mode (12 R380, R388) -/

/-- Start SS1 of axis `a` in tick `n`; with no deceleration it is STO at once. While a takeover runs, what the host has not commanded waits (12
R391). -/
def ss1Start (a n : Nat) (host : Bool) (d : Dev) : Dev :=
  if d.ax a 0 || d.ax a 3 then d
  else if d.takingOver && !host then d.setAxis a { d.axis a with dueSs1 := true }
  else if d.get (axisIx a) 0x10 = 0 then stoApply a 0 n (d.when (!host) (axisOutlets a 6))
  else
    let r := d.axis a
    (d.setAxis a { r with
      ss1 := some { start := n, dx := r.x.delta (d.win a), dy := r.y.delta (d.win a), host := host }, standRun := 0 }).setAx a 3 true

/-- Enter degraded mode in tick `n`; `lostY` where channel Y has failed (12 R388). The counts of the halved speed limit begin anew, those of the
functions that continue go on. -/
def degrade (a n : Nat) (lostY : Bool) (d : Dev) : Dev :=
  let ix := axisIx a
  let r := d.axis a
  let d := (((d.setAx a 4 true).setAx a 5 lostY).setAx a 6 false).raiseEv 65
  let d := (d.setAxis a { r with degradedAt := some n, armed := false, runs := setAt (setAt r.runs 1 0) 7 0 }).set ix 0x35 (1000 * d.get ix 0x13)
  let e := if lostY then r.x else r.y
  let above := speedOver (d.unitsOf a) (d.res a (!lostY)) (d.win a) (e.delta (d.win a)) (d.get ix 9) 2
  if d.get ix 9 = 0 then ss1Start a n false d
  else if above && !d.ax a 0 then
    (if d.get ix 0x10 = 0 then react a 7 n false d
     else d.setAxis a { d.axis a with entry := some { start := n, dx := r.x.delta (d.win a), dy := r.y.delta (d.win a) } })
  else d

/-- Channel faults of mask `m` are confirmed (12 R376, R388): referencing is lost; one channel degrades the axis, both or the
remaining one apply STO. -/
def channelFaults (a m n : Nat) (d : Dev) : Dev :=
  if m = 0 then d
  else
    let ix := axisIx a
    let fx := m % 16 != 0
    let fy := m / 16 != 0
    let hadX := d.get ix 0x37 % 16 != 0 || (d.ax a 4 && !d.ax a 5)
    let hadY := d.get ix 0x37 / 16 != 0 || (d.ax a 4 && d.ax a 5)
    let d := d.set ix 0x37 (Nat.lor (d.get ix 0x37) m)
    let d := (d.setAx a 6 false).setAxis a { d.axis a with clean := 0, armed := false }
    if !d.bitO ix 1 0 || d.ax a 2 then d
    else if (fx || hadX) && (fy || hadY) then react a 7 n false d
    else if d.ax a 4 then d
    else degrade a n fy d

/-! ## H5 (12 R377 to R380) -/

/-- Which limits of channel X (`y` false) or Y its values are outside of: SLS, reference speed, the envelope of SS1 or of entry to degraded mode,
SLP, predicted SLP, SDI (12 R380, R382, R388). -/
def channelBads (a n : Nat) (y : Bool) (d : Dev) : List Bool :=
  let ix := axisIx a
  let r := d.axis a
  let e := if y then r.y else r.x
  let u := d.unitsOf a
  let res := d.res a y
  let w := d.win a
  let fast := speedOver u res w (e.delta w)
  let sls := d.get ix 9
  let tol := d.get ix 0x11
  let fall (s : StopRec) : Bool := envelopeOver u res w (e.delta w) (if y then s.dy else s.dx) (d.get ix 0x10) tol (n - s.start)
  let env := match r.ss1, r.entry with
    | some s, _ => fall s
    | none, some s => fall s && fast (sls + 2 * tol) 2
    | none, none => false
  let lo := d.getS 64 ix 0xB
  let hi := d.getS 64 ix 0xC
  let dec := d.get ix 0xD
  let slp := lo != hi && d.ax a 6
  let sdi := d.get ix 0xE
  let back := if sdi = 1 then e.sdi - e.p else e.p - e.sdi
  [sls != 0 && r.entry.isNone && fast sls (if d.ax a 4 then 2 else 1),
    lo != hi && !d.ax a 6 && d.get ix 0x18 != 0 && fast (d.get ix 0x18) 1,
    env,
    slp && (posOver u res e hi || posUnder u res e lo),
    slp && dec != 0 && (decide (0 < predicted u res w dec e hi) || decide (predicted u res w dec e lo < 0)),
    sdi != 0 && decide ((d.get ix 0xF : Int) * res < back * u)]

/-- Whether channel X or Y of axis `a` is supervised: in degraded mode the remaining one (12 R388). -/
def Dev.chanOn (d : Dev) (a : Nat) (y : Bool) : Bool := !d.ax a 4 || d.ax a 5 != y

/-- Whether the channels differ by more than a tolerance; not evaluated in degraded mode or with a channel fault held (12 R378). -/
def discrepancy (a : Nat) (d : Dev) : Bool :=
  let ix := axisIx a
  let r := d.axis a
  let u := d.unitsOf a
  let w := d.win a
  let rx := d.res a false
  let ry := d.res a true
  let pos := ((r.x.p - r.x.origin) * u * ry + r.x.ref * rx * ry) - ((r.y.p - r.y.origin) * u * rx + r.y.ref * rx * ry)
  let spd := (r.x.delta w * ry - r.y.delta w * rx) * u * 32000
  !d.ax a 4 && d.get ix 0x37 == 0 && (decide (d.get ix 6 * rx * ry < pos.natAbs) || decide (d.get ix 7 * rx * ry * w < spd.natAbs))

/-- The supervision of an enabled axis: each channel is counted against each limit, and C evaluations outside it are a violation (12 R378 to R380,
R388). -/
def superviseAxis (a n : Nat) (d : Dev) : Dev :=
  let ix := axisIx a
  let r := d.axis a
  let c := d.get ix 5
  let bads (y : Bool) : List Bool := if d.chanOn a y then channelBads a n y d else List.replicate 6 false
  let disc := discrepancy a d
  let out := disc :: (bads false ++ bads true)
  let runs := (List.range 13).map fun i => if out.getD i false then r.runs.getD i 0 + 1 else 0
  let hit (i : Nat) : Bool := decide (c ≤ runs.getD i 0) && runs.getD i 0 != 0
  let viol (k : Nat) : Bool := hit (1 + k) || hit (7 + k)
  let fast (y : Bool) : Bool := d.chanOn a y && speedOver (d.unitsOf a) (d.res a y) (d.win a) ((if y then r.y else r.x).delta (d.win a)) (d.get ix 9) 2
  let d := d.setAxis a { r with runs := runs, clean := if disc then 0 else r.clean, viol := (List.range 13).any hit,
                                entry := if fast false || fast true then r.entry else none }
  let on := !d.ax a 0
  let d := d.when (on && (viol 1 || (viol 0 && d.get ix 0xA == 0))) (react a 1 n false)
  let d := d.when (on && viol 0 && d.get ix 0xA != 0) (ss1Start a n false)
  let d := d.when (on && viol 2) (react a 2 n false)
  let d := d.when (on && viol 3) (react a 4 n false)
  let d := d.when (on && viol 4) (ss1Start a n false)
  let d := d.when (on && viol 5) (react a 5 n false)
  d.when (hit 0) (react a 6 n false)

/-- Whether the late channel, of resolution `r`, has travelled more than `tol` units since the index edge of the other, of resolution `q` (12 R382;
log entry 51). -/
def indexLate (u tol : Int) (r q : Nat) (late first : EncRec) : Bool :=
  decide (tol * r * q < ((late.p - late.since) * q - first.ahead * r).natAbs * u)

/-- H5 of axis `a`: counters, faults, supervision, standstill and the displayed values. -/
def axisTick (a : Nat) (enc : Int × Int) (d : Dev) : Dev :=
  let ix := axisIx a
  let n := d.now
  let r := d.axis a
  let was := (r.x, r.y)
  let x := r.x.take (!r.started) (d.bitO ix 1 2) enc.1
  let y := r.y.take (!r.started) (d.bitO ix 1 3) enc.2
  let u := d.unitsOf a
  let w := d.win a
  let rx := d.res a false
  let ry := d.res a true
  let sx := !speedOver u rx w (x.delta w) (d.get ix 8) 1
  let sy := !speedOver u ry w (y.delta w) (d.get ix 8) 1
  let stand := if d.ax a 4 then (if d.ax a 5 then sx else sy) else sx && sy
  let sdi := d.get ix 0xE
  let mark := fun (e : EncRec) (p0 : Int) => if stand || (sdi == 1 && decide (p0 < e.p)) || (sdi == 2 && decide (e.p < p0)) then { e with sdi := e.p } else e
  let x := mark x was.1.p
  let y := mark y was.2.p
  let tol := (d.get ix 0x15 : Int)
  let lateX := r.armed && y.edge && !x.edge && indexLate u tol rx ry x y
  let lateY := r.armed && x.edge && !y.edge && indexLate u tol ry rx y x
  let m := Nat.lor r.pend (8 * b2n lateX + 128 * b2n lateY)
  let d := d.setAxis a { r with started := true, x := x, y := y, pend := 0, standRun := if stand then r.standRun + 1 else 0, clean := r.clean + 1 }
  let d := d.setAx a 7 stand
  let d := channelFaults a m n d
  let d := if d.bitO ix 1 0 then superviseAxis a n d else d.setAxis a { d.axis a with runs := [], viol := false }
  let r := d.axis a
  let d := ((d.setS 64 ix 0x31 (r.x.units u rx)).setS 64 ix 0x32 (r.y.units u ry)).setS 32 ix 0x33 (speedUnits u rx w (r.x.delta w))
  let d := d.setS 32 ix 0x34 (speedUnits u ry w (r.y.delta w))
  match r.degradedAt with
  | some t => d.set ix 0x35 (1000 * d.get ix 0x13 - (n - t) / 32)
  | none => d

/-- MOTION of the active pair, or of the spare in a takeover (12 R389): none where both have failed. -/
def motionTick (f : StatusFrame) (d : Dev) : Dev :=
  if d.pairFailed 0 && d.pairFailed 1 then d
  else each 4 (fun a d => axisTick a (f.enc.getD a (0, 0)) d) d

/-! ## Commands and events of an axis -/

/-- ENCODER_CHANNEL_FAULT (12 R376): reported in the next status frame, confirmed in its H5. -/
def encoderFault (a : Nat) (y : Bool) (k : Nat) (d : Dev) : Dev :=
  d.setAxis a { d.axis a with pend := setBit (d.axis a).pend (k + if y then 4 else 0) true }

def execEncoderChannelFault (a : Fin 4) (y : Bool) (kind : Fin 3) (s : State) : Out :=
  onDev (fun d => d.when (d.loom != .unpowered) (encoderFault a y kind)) s

/-- Whether STO of axis `a` may be released (12 R381, R391). -/
def releasable (d : Dev) (a : Nat) : Bool :=
  !d.ax a 2 && !(d.bitO (axisIx a) 1 0 && (d.axis a).viol) && d.activePair != 3 && !d.takingOver

/-- The refusals of a write to A.20. -/
def stoRules (d : Dev) (a v : Nat) : Rules := { atRange := if v = 2 && !releasable d a then 8 else 0 }

/-- The effect of a write to A.20 (12 R380, R381, R388). -/
def effSto (a v : Nat) (d : Dev) : Dev :=
  if v = 1 then stoApply a 0 d.effTick d
  else if v = 2 then (d.setAx a 0 false).setAx a 1 false
  else ss1Start a d.effTick true d

/-- The refusals of a write to another command or parameter of axis `a`; the resolutions are judged on what `aft` holds (12 R396, R397, R398). -/
def axisRules (d aft : Dev) (role : Role) (a sub v : Nat) : Rules :=
  if sub = 0x20 then stoRules d a v
  else if sub = 0x22 then
    if v = 1 then
      let r := d.axis a
      { atLife := if r.service && d.ax a 2 && !(role == .S && d.inService) then 4 else 0
        atRange := if d.ax a 0 && d.ax a 7 && decide (32 ≤ r.clean) then 0 else 8 }
    else {}
  else if sub ≤ 0x18 then
    let res := aft.bitO (axisIx a) 1 0 && (aft.get (axisIx a) 2 == 0 || aft.get (axisIx a) 3 == 0)
    { atRange := if d.ax a 0 && d.ax a 7 && !res then 0 else 8 }
  else {}

/-- Clear a held trip with its cause and the channel-fault flags (12 R397); what is outside a limit goes on to count, and a reaction that waits for
the end of a takeover stays due (12 R379, R381, R391). -/
def axisClear (a : Nat) (d : Dev) : Dev :=
  let d := ((d.setAx a 2 false).set (axisIx a) 0x36 0).set (axisIx a) 0x37 0
  d.setAxis a { d.axis a with service := false, outLow := false }

/-- The effect of a safety parameter write (12 R396); an outlet named while a trip is held leaves its session (12 R383). -/
def effSafety (role : Role) (a sub v : Nat) (d : Dev) : Dev :=
  let ix := axisIx a
  let before := d.get ix 0x3F
  let d := (d.set ix sub v).when (sub == 0x16 && d.ax a 2) (axisOutlets a 2)
  let crc := crc32 (axisParams a (d.get ix))
  (d.set ix 0x3F crc).skein { kind := 1, role := roleCode role, ix := ix, sub := sub, before := natLE 4 before, after := natLE 4 crc }

/-- Arm referencing (12 R382). -/
def effReference (a v : Nat) (d : Dev) : Dev :=
  if v = 1 then
    let r := d.axis a
    (d.setAxis a { r with armed := true, x := { r.x with edge := false }, y := { r.y with edge := false } }).setAx a 6 false
  else d

/-- The effect of a write to axis `a`. -/
def effAxis (role : Role) (a sub v : Nat) (d : Dev) : Dev :=
  if sub = 0x20 then effSto a v d
  else if sub = 0x21 then effReference a v d
  else if sub = 0x22 then (if v = 1 then axisClear a d else d)
  else effSafety role a sub v d

/-- A write to A.`sub`. -/
def writeAxis (role : Role) (a sub v : Nat) (d : Dev) : Dev :=
  writeObj role (axisIx a) sub (.num v) (axisRules d (d.set (axisIx a) sub v) role a sub v) (effAxis role a sub v) d

def execStoApply (role : Role) (a : Fin 4) (s : State) : Out := onDev (writeAxis role a 0x20 1) s
def execStoRelease (role : Role) (a : Fin 4) (s : State) : Out := onDev (writeAxis role a 0x20 2) s
def execSs1Start (role : Role) (a : Fin 4) (s : State) : Out := onDev (writeAxis role a 0x20 3) s
def execReference (role : Role) (a : Fin 4) (v : Nat) (s : State) : Out := onDev (writeAxis role a 0x21 v) s
def execAxisClearTrip (role : Role) (a : Fin 4) (v : Nat) (s : State) : Out := onDev (writeAxis role a 0x22 v) s
def execSafetyParameterWrite (role : Role) (a : Fin 4) (sub v : Nat) (s : State) : Out := onDev (writeAxis role a sub v) s

/-- SS1_END (12 R380): standstill for 32 ticks, or the longest time, which holds a trip. -/
def ss1End (a : Nat) (d : Dev) : Dev :=
  match (d.axis a).ss1 with
  | some s =>
    let d := if 32 ≤ (d.axis a).standRun then
        react a 0 d.effTick (!s.host) d
      else if s.start + 32 * d.get (axisIx a) 0x12 ≤ d.effTick then react a 3 d.effTick false d
      else d
    d
  | none => d

def execSs1End (a : Fin 4) (s : State) : Out := onDev (fun d => d.when d.running (ss1End a)) s

/-- DEGRADED_TIME_EXPIRY (12 R388): SS1 starts; where STO is applied already, its trip is held. -/
def degradedExpiry (a : Nat) (d : Dev) : Dev :=
  match (d.axis a).degradedAt with
  | some t => if t + 32000 * d.get (axisIx a) 0x13 ≤ d.effTick then
      (if d.ax a 0 then react a 7 d.effTick false d else ss1Start a d.effTick false d)
    else d
  | none => d

def execDegradedTimeExpiry (a : Fin 4) (s : State) : Out := onDev (fun d => d.when d.running (degradedExpiry a)) s

/-- INDEX_EDGE (12 R382): the counter latched at the edge of channel X or Y; past the index tolerance it is an index fault, confirmed in the next
H5. -/
def indexEdge (a : Nat) (y : Bool) (c : Int) (d : Dev) : Dev :=
  let ix := axisIx a
  let r := d.axis a
  let e := if y then r.y else r.x
  d.when (r.armed && !e.edge) fun d =>
    let s := countStep e.last c
    let p := e.p + (if d.bitO ix 1 (if y then 3 else 2) then -s else s)
    let u := d.unitsOf a
    let first := if y then r.x else r.y
    if first.edge && indexLate u (d.get ix 0x15) (d.res a y) (d.res a (!y)) { e with p := p } first then
      d.setAxis a { r with armed := false, pend := setBit r.pend (if y then 7 else 3) true }
    else
    let e := { e with edge := true, origin := p, ref := d.getS 64 ix 0x14, ahead := p - e.p }
    let r := if y then { r with y := e, x := if r.x.edge then r.x else { r.x with since := r.x.p } }
      else { r with x := e, y := if r.y.edge then r.y else { r.y with since := r.y.p } }
    let rx := (d.res a false : Int)
    let ry := (d.res a true : Int)
    let diff := ((r.x.p - r.x.origin) * u * ry + r.x.ref * rx * ry) - ((r.y.p - r.y.origin) * u * rx + r.y.ref * rx * ry)
    let both := r.x.edge && r.y.edge
    let ok := both && decide ((diff.natAbs : Int) ≤ d.get ix 6 * rx * ry)
    (d.setAxis a { r with armed := !both }).setAx a 6 ok

def execIndexEdge (a : Fin 4) (y : Bool) (latched : Int) (s : State) : Out := onDev (fun d => d.when d.running (indexEdge a y latched)) s

/-- Whether the STO output X (`y` false) or Y of axis `a` is high: torque permitted (12 R386, R387, R393). -/
def Dev.stoHigh (d : Dev) (a : Nat) (y : Bool) : Bool := !(d.whorl.sto.testBit (2 * a + b2n y)) && !d.whorl.island && !(d.axis a).outLow

/-- Whether `k` ticks have passed since the pulse of tick `p`. -/
def Dev.pulseOld (d : Dev) (k : Nat) (p : Option Nat) : Bool := p.all fun t => decide (t + k ≤ d.effTick)

/-- STO_TEST_PULSE of output X or Y (12 R387): a high output is pulsed low for 25 µs, 32 000 ticks after its latest pulse and 16 000 after that of
the other output; the receiver ignores it. -/
def stoPulse (a : Nat) (y : Bool) (d : Dev) : Dev :=
  let r := d.axis a
  let t := some d.effTick
  let mine := if y then r.pulseY else r.pulseX
  let other := if y then r.pulseX else r.pulseY
  d.when (d.loom != .unpowered && d.stoHigh a y && d.pulseOld 32000 mine && d.pulseOld 16000 other) fun d =>
    d.setAxis a (if y then { r with pulseY := t } else { r with pulseX := t })

def execStoTestPulse (line : Fin 4 × Bool) (s : State) : Out := onDev (stoPulse line.1 line.2) s

/-- STO_OUTPUT_FAULT (12 R387): the Mill die drives both outputs low; a trip of cause 8 and EV71. -/
def stoOutputFault (a : Nat) (d : Dev) : Dev :=
  d.when (d.loom != .unpowered) fun d =>
    let d := d.setAxis a { d.axis a with outLow := true }
    (stoApply a 8 d.effTick d).raiseEv 71

def execStoOutputFault (a : Fin 4) (s : State) : Out := onDev (stoOutputFault a) s

/-! ## Whorl pairs (12 R389 to R391) -/

/-- Set the active pair, keeping the failed bits. -/
def Dev.setPair (d : Dev) (p : Nat) : Dev := d.setWhorl 0x40 (setField (d.get 0x6800 0x40) 0 2 p)

/-- Mark pair `p` failed. -/
def Dev.failPair (d : Dev) (p : Nat) : Dev := d.setWhorl 0x40 (setBit (d.get 0x6800 0x40) (2 + p) true)

/-- Bit 9 of every axis status. -/
def Dev.setTaking (d : Dev) (b : Bool) : Dev := each 4 (fun a d => d.setAx a 9 b) d

/-- A fault of pair `p` in tick T, the tick of effect (12 R390). -/
def pairFault (p : Nat) (d : Dev) : Dev :=
  if d.pairFailed p then d
  else
    let was := d.activePair
    let other := 1 - p % 2
    let d := d.failPair p
    let e : Skein := { kind := 2, ix := 0x6800, sub := 0x40, before := natLE 1 was, after := natLE 1 (d.get 0x6800 0x40) }
    if was = p then
      if d.pairFailed other then (d.setPair 3).skein { e with after := natLE 1 3 }
      else
        let d := (d.setPair 3).setWhorl 0x41 (satAdd 32 (d.get 0x6800 0x41) 1)
        let d := ((d.setWhorl 0x43 d.effTick).raiseEv 68).skein { e with ev := some 68 }
        { d with whorl := { d.whorl with takeover := some d.effTick, spareOk := false } }.setTaking true
    else
      let d := (d.raiseEv 69).skein { e with ev := some 69 }
      { d with whorl := { d.whorl with takeover := none, spareOk := false } }.setTaking false

def execWhorlPairFault (p : Fin 2) (s : State) : Out := onDev (fun d => d.when d.running (pairFault p)) s

/-- The pair that takes over. -/
def Dev.spare (d : Dev) : Nat := if d.pairFailed 0 then 1 else 0

/-- SPARE_KNOWN_ANSWER_TEST in T+1 to T+7 (12 R390): where it fails no pair takes over. -/
def spareTest (passed : Bool) (d : Dev) : Dev :=
  match d.whorl.takeover with
  | some t =>
    if t + 1 ≤ d.effTick && d.effTick ≤ t + 7 then
      (if passed then { d with whorl := { d.whorl with spareOk := true } } else pairFault d.spare d)
    else d
  | none => d

def execSpareKnownAnswerTest (passed : Bool) (s : State) : Out := onDev (fun d => d.when d.running (spareTest passed)) s

/-- TAKEOVER_COMPLETE at T + 16 (12 R390, R391): the reactions that waited take effect. -/
def takeoverComplete (d : Dev) : Dev :=
  match d.whorl.takeover with
  | some t =>
    if d.whorl.spareOk && t + 16 ≤ d.effTick then
      let d := { d.setPair d.spare with whorl := { d.whorl with takeover := none, spareOk := false } }.setTaking false
      each 4 (fun a d =>
        let r := d.axis a
        let d := d.setAxis a { r with due := none, dueSs1 := false }
        match r.due with
        | some c => stoApply a c.1 d.effTick (d.when c.2 (axisOutlets a 6))
        | none => d.when r.dueSs1 (ss1Start a d.effTick false)) d
    else d
  | none => d

def execTakeoverComplete (s : State) : Out := onDev (fun d => d.when d.running takeoverComplete) s

/-- PAIR_SELF_TEST (12 R390): a failed periodic self-test is a fault of the pair. -/
def execPairSelfTest (p : Fin 2) (passed : Bool) (s : State) : Out := onDev (fun d => d.when (d.running && !passed) (pairFault p)) s

/-! ## The command frame and the safety island (12 R391 to R393) -/

/-- The eight STO commands, X and Y of each axis from bit 0. -/
def Dev.stoCommands (d : Dev) : Nat := maskOf ((List.range 8).map fun i => d.ax (i / 2) 0)

/-- The safety fields of the command frame in H7, and the heartbeat: while no pair is active they are held and move towards
removal only. The island releases its hold at the first valid heartbeat, in whose frame every axis has STO applied (12 R393). -/
def safetyFrame (d : Dev) : Dev :=
  let w := d.whorl
  let en := maskOf ((List.range 8).map fun g => d.bitO (protIx g) 0x23 3)
  if d.activePair = 3 then
    let silent := w.silent + 1
    { d with whorl := { w with permits := Nat.land w.permits en, sto := Nat.lor w.sto d.stoCommands, silent := silent } }
  else
    let dead := d.upd.noIsland || d.pausing 2
    let d := d.when (w.island && !dead) (each 4 fun a d => stoApply a 0 d.now d)
    let sto := d.stoCommands
    let word := w.seq % 256 + 256 * (d.activePair % 2) + 65536 * crc16 (natLE 1 w.seq ++ natLE 1 en ++ natLE 1 sto)
    let d := { d with whorl := { w with permits := en, sto := sto, seq := (w.seq + 1) % 256, word := word, silent := 0, island := dead } }
    each 4 (fun a d => d.setAx a 8 dead) d

/-- The permits (11 R348): enabled by the command frame, the comparator's latch clear, the island not removing them. -/
def permitOut (d : Dev) : Dev :=
  each 8 (fun g d =>
    let en := d.whorl.permits.testBit g
    (d.setBitO (protIx g) 0x23 3 en).setBitO (protIx g) 0x23 2 (en && !d.bitO (protIx g) 0x23 0 && !d.whorl.island)) d

/-- ISLAND_HEARTBEAT_TIMEOUT (12 R393): no valid heartbeat for 32 ticks of the island's clock, or the Loom die without ticks. -/
def islandTimeout (d : Dev) : Dev :=
  d.when (d.loom != .unpowered && !d.whorl.island && (d.loom != .running || decide (32 ≤ d.whorl.silent))) fun d =>
    let d := { d with whorl := { d.whorl with island := true, islandDue := d.loom != .running } }
    let d := each 8 (fun g d => d.setBitO (protIx g) 0x23 2 false) d
    let d := (each 4 (fun a d => d.setAx a 8 true) d).setWhorl 0x42 (satAdd 32 (d.get 0x6800 0x42) 1)
    d.when (d.loom == .running) fun d => d.raiseEv 70

def execIslandHeartbeatTimeout (s : State) : Out := onDev islandTimeout s

end Sys2Proof.Machine
end

