-- ==== Sys2Proof/Machine/Display.lean ====
section
/-! DEFINITION. The emissive panel drive: images, waveforms, regions, bands, the frame check and row drives (chapter 14). -/
namespace Sys2Proof.Machine

/-- The object of port `p`. -/
def dispIx (p : Nat) : Nat := 0x7400 + p
/-- The record of port `p`. -/
def Dev.disp (d : Dev) (p : Nat) : DispRec := tget {} d.disps p
/-- The part with the record of port `p` set. -/
def Dev.setDisp (d : Dev) (p : Nat) (r : DispRec) : Dev := { d with disps := tset d.disps p r }
/-- A table of levels with one set; level 0 is not listed. -/
def setLevel (t : Tab Nat) (k v : Nat) : Tab Nat := if v = 0 then tdel t k else tset t k v

/-! ## Waveforms (14 R422, R423) -/

/-- The table in force for port `p` and band `b`: one written since the latest frame boundary waits for the next (14 R424). -/
def Dev.waveTable (d : Dev) (p b : Nat) : Bytes :=
  match tfind (d.disp p).tables b with
  | some t => t
  | none => d.getB (0x7410 + 8 * p + b) 0

/-- Byte `i` of the record for an old and a new level. -/
def waveByte (t : Bytes) (o n i : Nat) : Nat := byteAt t (49 * (16 * o + n) + i)

/-- Whether a record keeps the rules of R423. -/
def waveRecOk (t : Bytes) (o n : Nat) : Bool :=
  let len := waveByte t o n 0
  (if o = n then len == 0 else decide (1 ≤ len ∧ len ≤ 48) && waveByte t o n len / 16 == n)
    && (List.range 48).all fun i => decide (i < len) || waveByte t o n (i + 1) == 0

/-- Whether a table keeps the rules of R423. -/
def waveTableOk (t : Bytes) : Bool := (List.range 256).all fun i => waveRecOk t (i / 16) (i % 16)

/-- The level a pixel has reached: that of its waveform, or its image level where it is idle (14 R422). -/
def DispRec.level (r : DispRec) (k : Nat) : Nat :=
  match tfind r.pixels k with
  | some x => x.reached
  | none => tget 0 r.image k

/-- Retarget a pixel from `old` to its image level in band `b` (14 R426). -/
def retargetFrom (k old b : Nat) (r : DispRec) : DispRec :=
  if tget 0 r.image k = old then { r with pixels := tdel r.pixels k }
  else { r with pixels := tset r.pixels k { old := old, band := b, index := 0, reached := old } }

/-- Change the image level of a pixel; while the port runs, a pixel whose level changes is retargeted (14 R426). -/
def setPixel (k v b : Nat) (r : DispRec) : DispRec :=
  if tget 0 r.image k = v then r
  else
    let old := r.level k
    let r := { r with image := setLevel r.image k v }
    if r.active then retargetFrom k old b r else r

/-! ## Regions (14 R425, R429, R437) -/

/-- First common, rows, first segment and columns of a region definition. -/
def regionBox (v : Nat) : Nat × Nat × Nat × Nat :=
  (field v 0 6, field v 6 6 + 1 - field v 0 6, field v 12 8, field v 20 8 + 1 - field v 12 8)

/-- Bytes of the data of a region. -/
def regionSize (v : Nat) : Nat := (regionBox v).2.1 * (((regionBox v).2.2.2 + 1) / 2)

/-- Whether two region definitions overlap. -/
def regionsMeet (a b : Nat) : Bool :=
  decide (field a 0 6 ≤ field b 6 6 ∧ field b 0 6 ≤ field a 6 6 ∧ field a 12 8 ≤ field b 20 8 ∧ field b 12 8 ≤ field a 20 8)

/-- The pixels of data in the packing of R425: key and level. -/
def regionPixels (v : Nat) (data : Bytes) : List (Nat × Nat) :=
  let b := regionBox v
  let rowBytes := (b.2.2.2 + 1) / 2
  (List.range b.2.1).flatMap fun y => (List.range b.2.2.2).map fun x =>
    let w := byteAt data (rowBytes * y + x / 2)
    (256 * (b.1 + y) + b.2.2.1 + x, if x % 2 = 0 then w % 16 else w / 16)

/-- Commit data to a region: image and copy (14 R425, R426, R431). -/
def commitRegion (v : Nat) (data : Bytes) (band : Nat) (r : DispRec) : DispRec :=
  (regionPixels v data).foldl (fun r x => setPixel x.1 x.2 band { r with copy := setLevel r.copy x.1 x.2 }) r

/-- Bytes of staging in use. -/
def DispRec.stagedBytes (r : DispRec) : Nat := sumN (r.staged.map fun x => x.data.length)

/-- The definition of region `i` of port `p`. -/
def Dev.region (d : Dev) (p i : Nat) : Nat := d.get (0x7408 + p) (i + 1)
/-- Whether region `i` is enabled and legal. -/
def Dev.legal (d : Dev) (p i : Nat) : Bool := (d.region p i).testBit 31 && (d.region p i).testBit 28

/-! ## Legal regions (14 R429, R430) -/

/-- The value in mWh that a source shows. -/
def Dev.legalValue (d : Dev) (src : Nat) : Nat :=
  let m := src % 64
  if src.testBit 15 then
    match tfind d.bill.sessions m with
    | some x => (d.get (meterIx m + 6) 1 - x.acc1) / quantaPerMWh
    | none => 0
  else d.get (meterIx m + 0x1A) (field src 6 3 + 1)

/-- The number shown, before the region's digits are taken from it. -/
def Dev.legalNumber (d : Dev) (src : Nat) : Nat := d.legalValue src / 10 ^ (6 - field src 13 2)

/-- The glyphs of a number, left to right: 10 the decimal point, 11 blank. Of a number with more digits than the region holds the
lowest are shown, zeros among them. -/
def legalGlyphs (src n : Nat) : List Nat :=
  let digits := field src 9 4
  let dec := field src 13 2
  let cell := fun i => if n < 10 ^ i && dec < i then 11 else n / 10 ^ i % 10
  let ds := ((List.range digits).reverse.map fun i => (i, cell i))
  if dec = 0 then ds.map Prod.snd
  else (ds.filter fun x => decide (dec ≤ x.1)).map Prod.snd ++ [10] ++ (ds.filter fun x => decide (x.1 < dec)).map Prod.snd

/-- Width and height of a font's cell. -/
def fontCell (f : Bytes) : Nat × Nat := (byteAt f 0, byteAt f 1)

/-- Level of pixel (x, y) of glyph `g`. -/
def glyphPixel (f : Bytes) (g x y : Nat) : Nat :=
  let row := (byteAt f 0 + 1) / 2
  let b := byteAt f (4 + (g * byteAt f 1 + y) * row + x / 2)
  if x % 2 = 0 then b % 16 else b / 16

/-- The data of a region that shows `n` from `src`. -/
def legalData (f : Bytes) (src n : Nat) : Bytes :=
  let gs := legalGlyphs src n
  let w := max 1 (byteAt f 0)
  let cols := gs.length * w
  (List.range (byteAt f 1)).flatMap fun y => (List.range ((cols + 1) / 2)).map fun i =>
    let px := fun x => if x < cols then glyphPixel f (gs.getD (x / w) 11) (x % w) y else 0
    BitVec.ofNat 8 (px (2 * i) + 16 * px (2 * i + 1))

/-- Whether a font has the layout of R430. -/
def fontOk (f : Bytes) : Bool :=
  let w := byteAt f 0
  let h := byteAt f 1
  decide (1 ≤ w ∧ w ≤ 32 ∧ 1 ≤ h ∧ h ≤ 64 ∧ leAt f 2 2 = 0) && f.length == 4 + 12 * h * ((w + 1) / 2)

/-- Whether a legal region fits its digits (14 R430). -/
def legalFits (f : Bytes) (v src : Nat) : Bool :=
  let b := regionBox v
  b.2.1 == byteAt f 1 && b.2.2.2 == (field src 9 4 + (if field src 13 2 = 0 then 0 else 1)) * byteAt f 0

/-- Render the legal regions whose number has changed, each no more often than once in 32 frames (14 R429). -/
def renderLegal (p frame : Nat) (d : Dev) : Dev :=
  each 16 (fun i d =>
    if d.legal p i then
      let r := d.disp p
      let src := d.get (0x7408 + p) (i + 0x11)
      let n := d.legalNumber src
      let go := match tfind r.shown i with
        | some x => x.1 != some n && decide (x.2 + 32 ≤ frame)
        | none => true
      if go then
        let r := commitRegion (d.region p i) (legalData (d.getB 0x7428 0) src n) (d.get (dispIx p) 7) r
        d.setDisp p { r with shown := tset r.shown i (some n, frame) }
      else d
    else d) d

/-! ## The frame boundary (14 R424 to R433) -/

/-- CRC-32 of the 8 KiB of an image (14 R421, R431). -/
def imageCrc (t : Tab Nat) : Nat :=
  crc32 ((List.range 8192).map fun i => BitVec.ofNat 8 (tget 0 t (2 * i) + 16 * tget 0 t (2 * i + 1)))

/-- The temperature of the panel, where its source has not failed (14 R427, 06 R200). -/
def Dev.panelTemp (d : Dev) (p : Nat) : Option Int :=
  let s := d.get (dispIx p) 5
  if s < 288 && decide (d.now < (d.cal s).tempAt + 32000) then (d.cal s).temp else none

/-- The band of the frame, exact at the first one and after fallback; a change raises EV90, and entering or leaving fallback EV23 with event 0x0008
(14 R427, 06 R200, R202). A port starts in fallback where it has no temperature, which is no entry. -/
def panelBand (p : Nat) (d : Dev) : Dev :=
  let ix := dispIx p
  let r := d.disp p
  let was := d.bitO ix 8 3
  let now := (d.panelTemp p).isNone
  let d := (d.setDisp p { r with banded := true }).when (r.banded && was != now) fun d =>
    (d.raiseEv 23).eventEff 0x0008 0xFF (d.get ix 5) (natLE 1 (b2n was)) (natLE 1 (b2n now))
  let b := match d.panelTemp p with
    | none => d.get ix 6
    | some t => if was || !r.banded then bandOf t else bandDown 6 (bandUp 6 (d.get ix 7) t) t
  let old := d.get ix 7
  let d := (d.setBitO ix 8 3 now).set ix 7 b
  d.when (old != b) fun d => d.raiseEv 90

/-- A port that has been disabled stops, and one that has been enabled starts every pixel from 0 and is no longer blanked
(14 R432, R433). -/
def panelSwitch (p : Nat) (d : Dev) : Dev :=
  let r := d.disp p
  let on := d.bitO (dispIx p) 1 0
  let r := if r.cut || (r.active && !on) then { r with active := false, pixels := [], drives := [], staged := [] } else r
  let r := { r with cut := false }
  if !r.active && on then
    let b := d.get (dispIx p) 7
    (d.setDisp p (r.image.foldl (fun r x => retargetFrom x.1 0 b r) { r with active := true, pixels := [], drives := [], bad := 0 })).setBitO
      (dispIx p) 8 1 false
  else d.setDisp p r

/-- Rewrite the image from the copy after a first mismatch, blank the port after a second (14 R432). -/
def panelRestore (p : Nat) (d : Dev) : Dev :=
  let r := d.disp p
  let ix := dispIx p
  if r.bad = 2 then
    let d := (d.setBitO ix 8 1 true).raiseEv 89
    let d := d.skein { kind := 2, ev := some 89, ix := ix, sub := 8, after := natLE 2 (d.get ix 8) }
    (d.setDisp p { d.disp p with bad := 3, pixels := [], drives := [] }).setBitO ix 8 2 false
  else if r.bad = 1 then
    let b := d.get ix 7
    let r := (r.copy ++ r.image).foldl (fun r x => setPixel x.1 (tget 0 r.copy x.1) b r) r
    (d.setDisp p r).setBitO ix 8 2 true
  else d.setBitO ix 8 2 false

/-- Waveform tables written since the last boundary come into force: pixels that run in their band are retargeted (14 R424). -/
def panelTables (p : Nat) (d : Dev) : Dev :=
  let r := d.disp p
  let now := d.get (dispIx p) 7
  let r := (r.pixels.filter fun x => thas r.tables x.2.band).foldl (fun r x => retargetFrom x.1 x.2.reached now r) r
  d.setDisp p { r with tables := [] }

/-- Commit the updates that have taken effect by tick `t`, the later one of a region alone (14 R425). -/
def panelCommit (p t : Nat) (d : Dev) : Dev :=
  let r := d.disp p
  let due := r.staged.filter fun x => decide (x.at' ≤ t)
  let b := d.get (dispIx p) 7
  let last := fun (i : Nat) => (due.filter fun x => x.region == i).getLast?
  let r := (List.range 16).foldl (fun r i =>
    match last i with
    | some x => commitRegion x.defn x.data b r
    | none => r) { r with staged := r.staged.filter fun x => decide (t < x.at') }
  d.setDisp p r

/-- The frame check (14 R431, R432). -/
def frameCheck (p : Nat) (d : Dev) : Dev :=
  let r := d.disp p
  let ix := dispIx p
  let a := imageCrc r.image
  let e := imageCrc r.copy
  let d := (d.set ix 0xA a).set ix 0xB e
  if a = e then d.setDisp p { r with bad := if r.bad = 3 then 3 else 0 }
  else if r.bad = 3 then d.inc ix 0xC
  else
    let d := (d.inc ix 0xC).setDisp p { r with bad := min 2 (r.bad + 1) }
    d.when (r.bad == 0) fun d => d.raiseEv 88

/-- Counts and status bits of the port and its regions (14 R435 to R437). -/
def panelStatus (p frame : Nat) (d : Dev) : Dev :=
  let r := d.disp p
  let ix := dispIx p
  let d := (d.incWrap ix 9).setBitO ix 8 4 (frame % 2 == 0)
  let d := d.setBitO ix 8 0 (r.active && !d.bitO ix 8 1)
  let d := (d.set ix 0xD (min r.pixels.length 65535)).set ix 0xE r.stagedBytes
  each 16 (fun i d =>
    let b := regionBox (d.region p i)
    let inside := fun (k : Nat) => decide (b.1 ≤ k / 256 ∧ k / 256 < b.1 + b.2.1 ∧ b.2.2.1 ≤ k % 256 ∧ k % 256 < b.2.2.1 + b.2.2.2)
    d.set (0x7408 + p) (i + 0x21)
      (b2n (r.staged.any fun x => x.region == i) + 2 * b2n ((d.region p i).testBit 31 && r.pixels.any fun x => inside x.1))) d

/-- FRAME_BOUNDARY of port `p` in tick 128F - 1 (14 R425); suspended in the pause of the application, the check also in that of the
metrology image (20 R591). -/
def frameBoundary (p : Nat) (d : Dev) : Dev :=
  d.when (d.running && !d.pausing 1 && d.effTick % 128 == 127) fun d =>
    let frame := (d.effTick + 1) / 128
    let d := panelRestore p (panelSwitch p (panelBand p d))
    let d := renderLegal p frame (panelCommit p d.effTick (panelTables p d))
    panelStatus p frame (if d.pausing 3 then d else frameCheck p d)

def execFrameBoundary (p : Fin 2) (s : State) : Out := onDev (frameBoundary p) s

/-! ## Row drives (14 R418, R420, R422) -/

/-- The drive of pixel `k` in a forward frame, and the port after it. -/
def pixelDrive (t : Nat → Bytes) (k : Nat) (r : DispRec) : DispRec :=
  match tfind r.pixels k with
  | some x =>
    let n := tget 0 r.image k
    let e := waveByte (t x.band) x.old n (x.index + 1)
    let r := { r with drives := setLevel r.drives k (e % 16) }
    if waveByte (t x.band) x.old n 0 ≤ x.index + 1 then { r with pixels := tdel r.pixels k }
    else { r with pixels := tset r.pixels k { x with index := x.index + 1, reached := e / 16 } }
  | none => { r with drives := setLevel r.drives k (tget 0 r.image k) }

/-- ROW_DRIVE of port `p` in the present tick: the forward drives of the row whose slot opens at the next tick edge. -/
def rowDrive (p : Nat) (d : Dev) : Dev :=
  let t := d.now + 1
  let r := d.disp p
  if t % 2 = 0 && t / 128 % 2 = 0 && r.active && !d.bitO (dispIx p) 8 1 then
    let k := t % 128 / 2
    d.setDisp p ((List.range 256).foldl (fun r j => pixelDrive (d.waveTable p) (256 * k + j) r) r)
  else d

/-! ## Writes (14 R423, R425, R430, R433, R437) -/

/-- Whether port `p` holds an enabled legal region. -/
def Dev.holdsLegal (d : Dev) (p : Nat) : Bool := (List.range 16).any fun i => d.legal p i

/-- The refusals of a write to the port object; the type of the temperature source is judged on what `aft` holds (14 R427, R433, R435). -/
def portRules (d aft : Dev) (p sub v : Nat) : Rules :=
  { atRange := if sub = 5 && decide (v < 288) && !aft.chanIs 5 v then 8 else 0
    atLife := if sub = 1 && !v.testBit 0 && d.isSealed && d.holdsLegal p && d.bitO (dispIx p) 1 0 then 4 else 0 }

/-- The effect of such a write: clearing the enable bit cuts the work in flight at the next frame boundary (14 R433). -/
def effPort (p sub v : Nat) (d : Dev) : Dev :=
  (d.set (dispIx p) sub v).when (sub == 1 && !v.testBit 0 && d.bitO (dispIx p) 1 0) fun d => d.setDisp p { d.disp p with cut := true }

/-- A write to 0x7400 + p. -/
def writePort (role : Role) (p sub v : Nat) (d : Dev) : Dev :=
  writeObj role (dispIx p) sub (.num v) (portRules d (d.set (dispIx p) sub v) p sub v) (effPort p sub v) d

def execPortDisable (role : Role) (p : Fin 2) (s : State) : Out := onDev (writePort role p 1 0) s
def execPortEnable (role : Role) (p : Fin 2) (s : State) : Out := onDev (writePort role p 1 1) s

/-- Bytes of the updates of port `p` that `aft` holds of a request. -/
def Dev.updateBytes (aft : Dev) (p : Nat) : Nat := sumN ((List.range 16).map fun i => (aft.getB (0x7420 + p) (i + 1)).length)

/-- The refusals of a region update; `aft` holds every update of the request, which fit together or not at all (14 R425). -/
def updateRules (d aft : Dev) (p i : Nat) (v : Bytes) : Rules :=
  let def' := d.region p i
  { atLen := if v.length != regionSize def' then 7 else 0
    atRange := if def'.testBit 28 || !def'.testBit 31 then 8
      else if 8192 < (d.disp p).stagedBytes + aft.updateBytes p then 0xE else 0 }

/-- The effect of a region update: it waits in staging. -/
def effUpdate (p i : Nat) (v : Bytes) (d : Dev) : Dev :=
  let r := d.disp p
  let r := { r with staged := r.staged ++ [{ region := i, defn := d.region p i, data := v, at' := d.effTick }] }
  ((d.setDisp p r).set (dispIx p) 0xE r.stagedBytes).setBitO (0x7408 + p) (i + 0x21) 0 true

/-- A write to 0x7420 + p. -/
def writeUpdate (role : Role) (p i : Nat) (v : Bytes) (d : Dev) : Dev :=
  writeObj role (0x7420 + p) (i + 1) (.raw v) (updateRules d (d.setB (0x7420 + p) (i + 1) v) p i v) (effUpdate p i v) d

def execRegionUpdate (role : Role) (p : Fin 2) (r : Fin 16) (v : Bytes) (s : State) : Out := onDev (writeUpdate role p r v) s

/-- The refusals of a waveform table. -/
def waveRules (d : Dev) (v : Bytes) (segmented : Bool) : Rules :=
  { atLife := if d.inService then 0 else 4, atLen := if segmented then 0 else 0xF, atRange := if waveTableOk v then 0 else 8 }

/-- The effect of a waveform table write: a Skein entry with the CRCs; the table in force so far stays so until the next frame
boundary (14 R423, R424). -/
def effWave (role : Role) (p b : Nat) (v : Bytes) (d : Dev) : Dev :=
  let ix := 0x7410 + 8 * p + b
  let d := d.skein { kind := 1, role := roleCode role, ix := ix, before := natLE 4 (crc32 (d.getB ix 0)), after := natLE 4 (crc32 v) }
  (d.setDisp p { d.disp p with tables := tset (d.disp p).tables b (d.waveTable p b) }).setB ix 0 v

/-- A write to a waveform table. -/
def writeWave (role : Role) (p b : Nat) (v : Bytes) (segmented : Bool) (d : Dev) : Dev :=
  writeObj role (0x7410 + 8 * p + b) 0 (.raw v) (waveRules d v segmented) (effWave role p b v) d

def execWaveformTableWrite (role : Role) (p : Fin 2) (band : Fin 6) (v : Bytes) (s : State) : Out :=
  onDev (writeWave role p band v true) s

/-- Whether the definition of region `i` of port `p` is a rectangle, meets no other enabled region where it is enabled, and fits its digits
where it is legal, enabled or not. -/
def regionsOk (d : Dev) (p i : Nat) : Bool :=
  let v := d.region p i
  let b := decide (field v 0 6 ≤ field v 6 6 ∧ field v 12 8 ≤ field v 20 8)
  let alone := !v.testBit 31 || (List.range 16).all fun j => j == i || !(d.region p j).testBit 31 || !regionsMeet v (d.region p j)
  b && alone && (!v.testBit 28 || legalFits (d.getB 0x7428 0) v (d.get (0x7408 + p) (i + 0x11)))

/-- The refusals of a write to a region definition or a legal source, judged on what `aft` holds (14 R425, R430, R437). -/
def regionRules (d aft : Dev) (role : Role) (p sub v : Nat) : Rules :=
  let ix := 0x7408 + p
  let i := (sub - 1) % 16
  let legal := (d.region p i).testBit 28 || (aft.region p i).testBit 28
  { atDir := if sub ≤ 0x10 && (d.get ix sub).testBit 28 != v.testBit 28 && !(role == .M || role == .S) then 3 else 0
    atLife := if d.isSealed && legal && d.get ix sub != v then 4 else 0
    atRange := if regionsOk aft p i then 0 else 8 }

/-- The effect of such a write: a legal region is rendered afresh, no sooner than 32 frames after its latest rendering (14 R429). -/
def effRegion (p sub v : Nat) (d : Dev) : Dev :=
  let d := d.set (0x7408 + p) sub v
  d.setDisp p { d.disp p with shown := (d.disp p).shown.map fun x => if x.1 = (sub - 1) % 16 then (x.1, (none, x.2.2)) else x }

/-- A write to 0x7408 + p. -/
def writeRegion (role : Role) (p sub v : Nat) (d : Dev) : Dev :=
  writeObj role (0x7408 + p) sub (.num v) (regionRules d (d.set (0x7408 + p) sub v) role p sub v) (effRegion p sub v) d

def execRegionDefinitionWrite (role : Role) (p : Fin 2) (sub v : Nat) (s : State) : Out := onDev (writeRegion role p sub v) s

/-- The refusals of a font (14 R430). -/
def fontRules (d : Dev) (v : Bytes) : Rules := { atLife := if d.isSealed && d.getB 0x7428 0 != v then 4 else 0, atRange := if fontOk v then 0 else 8 }

/-- A write to the digit font (14 R430, R437). -/
def writeFont (role : Role) (v : Bytes) (d : Dev) : Dev :=
  writeObj role 0x7428 0 (.raw v) (fontRules d v) (fun d => d.setB 0x7428 0 v) d

end Sys2Proof.Machine
end

