-- ==== Sys2Proof/Machine/Twist.lean ====
section
/-! DEFINITION. Twist signalling on the mains: windows, slot decisions, the two frame classes, maps and lanes (chapter 15). -/
namespace Sys2Proof.Machine

/-- The object of lane `l`. -/
def laneIx (l : Nat) : Nat := 0x7801 + l
/-- The record of lane `l`. -/
def Dev.lane (d : Dev) (l : Nat) : LaneRec := tget {} d.lanes l
/-- The part with the record of lane `l` set. -/
def Dev.setLane (d : Dev) (l : Nat) (r : LaneRec) : Dev := { d with lanes := tset d.lanes l r }
/-- The state of lane `l` (15 R445). -/
def Dev.laneState (d : Dev) (l : Nat) : Nat := d.get (laneIx l) 0x10 % 4
/-- The lock group of lane `l`. -/
def Dev.laneGroup (d : Dev) (l : Nat) : Nat := d.get (laneIx l) 2 % 4
/-- Whether the group of lane `l` is locked or in flywheel. -/
def Dev.laneLocked (d : Dev) (l : Nat) : Bool := decide (2 ≤ d.get (0x34C0 + d.laneGroup l) 3)

/-! ## Pulse maps (15 R448, R449) -/

/-- The active map of lane `l` and edge `e`. -/
def Dev.map (d : Dev) (l e : Nat) : Bytes := d.getB (0x7810 + 2 * l + e) 0
/-- Capacity of slot `s`. -/
def slotCap (m : Bytes) (s : Nat) : Nat := byteAt m s % 4
/-- Whether slot `s` is of bulk class. -/
def slotBulk (m : Bytes) (s : Nat) : Bool := (byteAt m s).testBit 2
/-- Bits of a capacity. -/
def capBits (c : Nat) : Nat := if c = 3 then 2 else if c = 0 then 0 else 1
/-- The used slots of a class, ascending. -/
def classSlots (m : Bytes) (bulk : Bool) : List Nat := (List.range 32).filter fun s => slotBulk m s == bulk && slotCap m s != 0
/-- Bits of a class in a window. -/
def classBits (m : Bytes) (bulk : Bool) : Nat := sumN ((classSlots m bulk).map fun s => capBits (slotCap m s))

/-- Whether a map keeps the rules of R449 beside the other map of its lane. -/
def mapOk (m other : Bytes) : Bool :=
  let c := classBits m false
  let b := classBits m true
  byteAt m 0 == 0 && byteAt m 31 == 0 && (m.all fun x => decide (x.toNat < 8)) && c == classBits other false && b == classBits other true
    && decide (8 ≤ c ∧ c ≤ 52 ∧ b % 8 = 0 ∧ 8 ≤ b ∧ b ≤ 52)

/-- Whether pending maps await activation (15 R450). -/
def Dev.mapsPending (d : Dev) : Bool :=
  d.get 0x7820 1 != 0 && (List.range 6).any fun w => d.getB (0x7810 + w) 0 != d.getB (0x7818 + w) 0

/-- Show in every lane whether maps are pending. -/
def showPending (d : Dev) : Dev := each 3 (fun l d => d.setBitO (laneIx l) 0x10 6 d.mapsPending) d

/-! ## Shapes and the receive decision (15 R446, R451) -/

/-- The positive shape at samples 8 to 55 of a slot: sin(π (i + 0.5) / 48) in 2^-40 (log entry 23). -/
def shapeP : List Int :=
  [35975012013, 107770985514, 179105467109, 249672991598, 319171378006, 387303023574, 453776178135, 518306193436] ++
  [580616742045, 640441000626, 697522792521, 751617684732, 802494034627, 849933981865, 893734381308, 933707672921] ++
  [969682684934, 1001505366821, 1029039448974, 1052167026225, 1070789062739, 1084825816095, 1094217178761, 1098922935481] ++
  [1098922935481, 1094217178761, 1084825816095, 1070789062739, 1052167026225, 1029039448974, 1001505366821, 969682684934] ++
  [933707672921, 893734381308, 849933981865, 802494034627, 751617684732, 697522792521, 640441000626, 580616742045] ++
  [518306193436, 453776178135, 387303023574, 319171378006, 249672991598, 179105467109, 107770985514, 35975012013]

/-- The bipolar shape at samples 8 to 55: sin(2π (i + 0.5) / 48) in 2^-40. -/
def shapeB : List Int :=
  [71911501081, 214504077523, 353426429727, 486301557730, 610855931251, 724958390428, 826656610548, 914210506869] ++
  [986122007951, 1041160688071, 1078384820155, 1097157488981, 1097157488981, 1078384820155, 1041160688071, 986122007951] ++
  [914210506869, 826656610548, 724958390428, 610855931251, 486301557730, 353426429727, 214504077523, 71911501081] ++
  [-71911501081, -214504077523, -353426429727, -486301557730, -610855931251, -724958390428, -826656610548, -914210506869] ++
  [-986122007951, -1041160688071, -1078384820155, -1097157488981, -1097157488981, -1078384820155, -1041160688071, -986122007951] ++
  [-914210506869, -826656610548, -724958390428, -610855931251, -486301557730, -353426429727, -214504077523, -71911501081]

/-- 24 V, the sum of squares of either shape, in the scale of a correlation: sample LSB 2^-11 V, shape 2^-40. -/
def ampScale : Nat := 24 * 2 ^ 51

/-- The correlation of a slot's 64 samples with a shape. -/
def correlate (h s : List Int) : Int := sumI (List.zipWith (· * ·) h (s.drop 8))

/-- Whether a sample is at the limit of the range, ±10 V in units of 2^-11 V (15 R440). -/
def clipped (x : Int) : Bool := decide (20480 ≤ x.natAbs)

/-- The samples of a slot after blanking, and how many were blanked. -/
def blankSlot (level : Nat) (s : List Int) : List Int × Nat :=
  let bad := fun (x : Int) => decide (level * 2048 < x.natAbs * 1000) || clipped x
  (s.map fun x => if bad x then 0 else x, (s.filter bad).length)

/-- Whether a correlation reaches the threshold max(d_min, 4 × σ0). -/
def reaches (dmin : Nat) (noise : List Int) (p : Int) : Bool :=
  decide (dmin * ampScale ≤ p.natAbs * 1000) && decide (16 * sumN (noise.map fun x => x.natAbs ^ 2) ≤ p.natAbs ^ 2 * noise.length)

/-- The shape decided in a slot, none where it is erased: 0 none, 1 positive, 2 negative, 3 bipolar. -/
def decideSlot (cap : Nat) (control : Bool) (blank dmin : Nat) (noise s : List Int) : Option Nat :=
  let z := if control then blankSlot blank s else (s, 0)
  if 16 ≤ z.2 then none
  else
    let p := correlate shapeP z.1
    let b := correlate shapeB z.1
    let hit := reaches dmin noise
    if cap = 1 then some (if 0 ≤ p && hit p then 1 else 0)
    else if cap = 2 then some (if 0 ≤ p then 1 else 2)
    else if !hit p && !hit b then some 0
    else if b.natAbs ≤ p.natAbs then some (if 0 < p then 1 else 2)
    else some 3

/-- The bits of a shape in a slot of a capacity. -/
def shapeBits (cap sh : Nat) : List Bool :=
  if cap = 3 then [sh.testBit 0, sh.testBit 1] else if cap = 2 then [sh == 2] else if cap = 1 then [sh == 1] else []

/-- The shape of the bits of a slot. -/
def bitsShape (cap : Nat) (b : List Bool) : Nat :=
  if cap = 3 then b2n (b.getD 0 false) + 2 * b2n (b.getD 1 false)
  else if cap = 2 then 1 + b2n (b.getD 0 false) else if cap = 1 then b2n (b.getD 0 false) else 0

/-- Shapes of a class stream over its slots: slot and shape. -/
def classShapes (m : Bytes) : List Nat → List Bool → List (Nat × Nat)
  | [], _ => []
  | s :: r, b => (s, bitsShape (slotCap m s) b) :: classShapes m r (b.drop (capBits (slotCap m s)))

/-! ## Abandoning and lane states (15 R445) -/

/-- Abandon what lane `l` is sending (15 R445, R460). -/
def abandonSending (l : Nat) (d : Dev) : Dev :=
  let r := d.lane l
  let n := b2n (r.txBits != []) + b2n (r.txBulk != [])
  let d := (d.setLane l { r with
    txBits := [], txBulk := [], txWin := [], txNow := (0, 0), shape := 0, flight := none, txFresh := false, bulkFresh := false }).setBitO
      (laneIx l) 0x10 2 false
  each n (fun _ d => (d.inc (laneIx l) 0x16).raiseEv 99) d

/-- Abandon every frame and block that lane `l` is sending or receiving. -/
def abandonAll (l : Nat) (d : Dev) : Dev :=
  let d := abandonSending l d
  let r := d.lane l
  let n := b2n r.rx.isSome + b2n r.bulkRx.isSome
  let d := d.setLane l { r with rx := none, bulkRx := none, burstOpen := false, opened := none, cands := [], blockSeq := none, part := [] }
  let d := (d.setBitO (laneIx l) 0x10 3 false).setBitO (laneIx l) 0x10 4 false
  each n (fun _ d => (d.inc (laneIx l) 0x16).raiseEv 99) d

/-- Put lane `l` into a state: EV96 at a change; leaving running abandons. -/
def Dev.setLaneState (d : Dev) (l st : Nat) : Dev :=
  let old := d.laneState l
  if old = st then d
  else
    let d := if old = 2 then abandonAll l d else d
    (d.set (laneIx l) 0x10 (setField (d.get (laneIx l) 0x10) 0 2 st)).raiseEv 96

/-- The state that the conditions of R445 give. -/
def Dev.laneTarget (d : Dev) (l : Nat) : Nat :=
  if d.get (laneIx l) 1 = 0 then 0 else if d.laneLocked l && 8 ≤ (d.lane l).sinceLock then 2 else 1

/-- LANE_STATE_CHANGE. -/
def execLaneStateChange (l : Fin 3) (s : State) : Out := onDev (fun d => d.when d.running fun d => d.setLaneState l (d.laneTarget l)) s

/-! ## Windows (15 R443, R444) -/

/-- Opening ticks of the crossings around the group's present cycle: round-half-even(x - 32). -/
def Dev.crossings (d : Dev) (l : Nat) : List (Nat × Nat) :=
  let g := d.laneGroup l
  let r := d.lock g
  let ref := d.get (0x34C0 + g) 1
  let tau := if ref < 288 then d.getS 16 (0x3600 + ref) 3 else 0
  let len : Int := r.len
  let k : Int := d.get (laneIx l) 3
  (List.range 8).filterMap fun i =>
    let c : Int := ((i / 2 : Nat) : Int) - 1
    let e := i % 2
    let x : Int := ((r.p0 : Int) + c * len) * 6000 + k * len * 1000 + e * len * 3000 - (29910 * 6 : Int) * lkOne - tau * 6000 * (lkOne / 1024)
    let t := rdiv (x - 32 * 6000 * lkOne) (6000 * lkOne)
    if 0 ≤ t then some (t.toNat, e) else none

/-- Fix a window 64 ticks before it opens, with the threshold, blank level and amplitude of that moment (15 R443, R463). -/
def fixWindow (l : Nat) (d : Dev) : Dev :=
  let r := d.lane l
  match (d.crossings l).find? fun x => decide (d.now < x.1 ∧ x.1 ≤ d.now + 64 ∧ r.last + 128 ≤ x.1) with
  | some x => d.setLane l { r with wins := r.wins ++ [x], last := x.1, dmin := d.get (laneIx l) 5, blank := d.get (laneIx l) 6, amp := d.get (laneIx l) 4 }
  | none => d

/-- Whether lane `l` is held from sending by a supply warning (15 R460). -/
def Dev.sendingHeld (d : Dev) : Bool := d.supply.hold
/-- Whether no driver sends: also in the pause of the application (20 R591). -/
def Dev.sendingStopped (d : Dev) : Bool := d.sendingHeld || d.pausing 1

/-- Whether R459 permits a control frame at the next window. -/
def LaneRec.controlFree (r : LaneRec) : Bool := r.rx.isNone && !(r.busy.any id)

/-- Whether R459 permits a bulk burst at the next window: `marker` windows have closed since that of the latest marker. -/
def LaneRec.bulkFree (r : LaneRec) : Bool := decide (256 ≤ r.marker) || (r.markedLast && decide (255 ≤ r.marker))

/-- The map and the shapes of a window that opens at `w.1`: the next control bits, the next bulk bits and the marker in slot 31 (15 R453,
R456). A transmission begins at a window that R459 permits; the windows before have closed by then. -/
def openOwn (l : Nat) (w : Nat × Nat) (d : Dev) : Dev :=
  let r := d.lane l
  let m := d.map l w.2
  let c := classBits m false
  let goCtl := r.txBits != [] && (!r.txFresh || r.controlFree)
  let goBulk := r.txBulk != [] && (!r.bulkFresh || r.bulkFree)
  let ctl := if goCtl then classShapes m (classSlots m false) (r.txBits.take c) else []
  let blk := match r.txBulk with
    | x :: _ => if goBulk then (if x.1 then [(31, 3)] else []) ++ classShapes m (classSlots m true) x.2 else []
    | [] => []
  let all := ctl ++ blk
  let sh := if all = [] then [] else (List.range 32).map fun s => (all.find? fun x => x.1 == s).elim 0 Prod.snd
  d.setLane l { r with
    map := m, txWin := sh, txNow := (if goCtl then c else 0, b2n goBulk), decided := [], opened := some w.1
    txFresh := r.txFresh && !goCtl, bulkFresh := r.bulkFresh && !goBulk }

/-- The bits of a class that the decided slots give, none for an erased or own slot. -/
def decidedBits (m : Bytes) (bulk : Bool) (dec : List (Option (Option Nat))) : List (Option Bool) :=
  (classSlots m bulk).flatMap fun s =>
    match dec.getD s none with
    | some (some sh) => (shapeBits (slotCap m s) sh).map some
    | _ => List.replicate (capBits (slotCap m s)) none

/-- The sync 0x5B, 0xE2, bit 0 first. -/
def syncBits : List Bool := (List.range 16).map fun i => Nat.testBit 0xE25B i

/-- Whether the first 16 bits are a sync: no more than 2 differ, an erased bit counting as a difference. -/
def isSync (b : List (Option Bool)) : Bool :=
  decide (((List.zip syncBits b).filter fun x => x.2 != some x.1).length ≤ 2)

/-- The bytes of bits, bit 0 first. -/
def bytesOfBits (b : List Bool) : Bytes := (chunks 8 (b.length / 8) b).map fun x => BitVec.ofNat 8 (maskOf x)

/-- A frame with the control bits of a further window. -/
def RxFrame.more (x : RxFrame) (bits : List (Option Bool)) (caps : List Nat) : RxFrame := { bits := x.bits ++ bits, caps := x.caps ++ caps }

/-- A block with a further window. -/
def BulkRx.more (x : BulkRx) (w : Option Bytes) (caps : List Nat) : BulkRx := { wins := x.wins ++ [w], caps := x.caps ++ [caps] }

/-- Windows of the lane that were not placed between the latest one decided and the one at `tw`, half a cycle apart (log entry 113). -/
def Dev.missedWindows (d : Dev) (l tw : Nat) : Nat :=
  let half := max 1 ((d.lock (d.laneGroup l)).len / (2 * lkOne))
  let c := (d.lane l).closed
  if c = 0 then 0 else min 255 ((tw - c + half / 2) / half - 1)

/-- The block in reception after a decided window `w`, `missed` windows not placed before it: what is in reception, and what is whole
(15 R456). -/
def bulkStep (rx : Option BulkRx) (missed : Nat) (mark : Bool) (w : Option Bytes) (caps : List Nat) : Option BulkRx × List BulkRx :=
  let gap := rx.map fun x => (List.range (min missed (256 - x.wins.length))).foldl (fun x _ => x.more none []) x
  let done := gap.toList.filter fun x => decide (256 ≤ x.wins.length)
  let rx := (gap.filter fun x => decide (x.wins.length < 256)).orElse fun _ => if mark then some {} else none
  let rx := rx.map fun x => x.more w caps
  (rx.filter fun x => decide (x.wins.length < 256), done ++ rx.toList.filter fun x => decide (256 ≤ x.wins.length))

/-- The lane after a window in which its control bits were `bits`: the candidates, the frame in reception and those received whole. A
window in which a frame is in reception begins no candidate (15 R453). -/
def LaneRec.receive (r : LaneRec) (bits : List (Option Bool)) (caps : List Nat) : LaneRec :=
  match r.rx with
  | some x =>
    let x := x.more bits caps
    if x.bits.length < 480 then { r with rx := some x } else { r with rx := none, rxDone := r.rxDone ++ [{ x with bits := x.bits.take 480 }] }
  | none =>
    let cands := (r.cands ++ [({} : RxFrame)]).map fun x => x.more bits caps
    match cands.find? fun x => decide (16 ≤ x.bits.length) && isSync x.bits with
    | some x => { r with rx := some x, cands := [] }
    | none => { r with cands := cands.filter fun x => decide (x.bits.length < 16) }

/-- What every window of the lane counts, decided or not: access, the backoffs where R459 permits sending, and the age of what waits to be
acknowledged (15 R459; 16 R473). -/
def LaneRec.pass (r : LaneRec) (busy : Bool) : LaneRec :=
  { r with
    busy := push 2 busy r.busy, marker := r.marker + 1, passed := r.passed + 1
    await := r.await.map fun x => { x with since := x.since + 1 } }

/-- The backoffs after a window. -/
def LaneRec.backoff (r : LaneRec) : LaneRec :=
  { r with
    ctlQ := if r.controlFree then r.ctlQ.map fun x => { x with wait := x.wait - 1 } else r.ctlQ
    burstWait := if r.bulkFree then r.burstWait - 1 else r.burstWait }

/-- The end of a decided window that opened at `tw`: control reception, candidates, access counts and the bulk block (15 R453, R456,
R459). -/
def closeWindow (l tw : Nat) (d : Dev) : Dev :=
  let missed := d.missedWindows l tw
  let r := d.lane l
  let r := { r with txBits := r.txBits.drop r.txNow.1, txBulk := r.txBulk.drop r.txNow.2 }
  let m := r.map
  let dec := r.decided.reverse
  let caps := fun (bulk : Bool) => (classSlots m bulk).map fun s => capBits (slotCap m s)
  let others := ((classSlots m false).filter fun s => match dec.getD s none with
    | some (some sh) => sh != 0
    | _ => false).length
  let mark := dec.getD 31 none == some (some 3)
  let starts := mark && r.bulkRx.isNone
  let w := if r.txWin == [] then some (bytesOfBits ((decidedBits m true dec).map fun x => x.getD false)) else none
  let blk := bulkStep r.bulkRx missed mark w (caps true)
  let burst := mark || r.bulkRx.isSome
  let z := r.backoff.receive (decidedBits m false dec) (caps false)
  let accepted := r.rx.isNone && z.rx.isSome
  let r := { z.pass (accepted || decide (2 < others)) with
    bulkRx := blk.1, bulkDone := r.bulkDone ++ blk.2, burstOpen := burst
    marker := if starts then 0 else r.marker + 1, markedLast := r.markedLast && !starts
    decided := [], txWin := [], txNow := (0, 0), opened := none, closed := tw }
  let sentCtl := r.flight.isSome && (d.lane l).txNow.1 != 0 && r.txBits == []
  let r := if sentCtl then
      { r with
        flight := none
        await := match r.flight with
          | some x => if (byteAt x.data 7).testBit 7 then r.await ++ [{ x with since := 0 }] else r.await
          | none => r.await }
    else r
  let d := d.setLane l r
  let d := (d.setBitO (laneIx l) 0x10 2 (r.txBits != [] || r.txBulk != [])).setBitO (laneIx l) 0x10 3 r.rx.isSome
  d.setBitO (laneIx l) 0x10 4 r.bulkRx.isSome

/-- The end of a window that was placed and not decided: nothing was heard in it. -/
def passWindow (l : Nat) (d : Dev) : Dev := d.setLane l ((d.lane l).pass false)

/-- One even tick of a window: slot `n - t_w - 2` is decided and the shape of the slot after next is taken (15 R447). -/
def slotTick (l tw : Nat) (d : Dev) : Dev :=
  let r := d.lane l
  let m := r.map
  let out := (d.now + 2 - tw) / 2
  let d := d.setLane l { r with shape := r.txWin.getD out 0 }
  if tw + 2 ≤ d.now then
    let s := (d.now - tw - 2) / 2
    let x := r.s0 ++ r.s1
    let cap := if s = 0 || s = 31 then 3 else slotCap m s
    let own := r.txWin.getD s 0 != 0
    let dec := if own then none
      else some (decideSlot cap (!slotBulk m s && s != 31) r.blank r.dmin r.noise x)
    let z := blankSlot r.blank x
    let noise := if s = 0 && r.txWin == [] && z.2 < 16 then push 64 (correlate shapeP z.1) r.noise else r.noise
    d.setLane l { d.lane l with decided := dec :: r.decided, noise := noise }
  else d

/-- A pulse of lane `l` has reached 3 A (15 R439); the bit stands until the next window opens (15 R464). -/
def driverLimit (l : Nat) (d : Dev) : Dev := ((d.setBitO (laneIx l) 0x10 5 true).inc (laneIx l) 0x1A).raiseEv 98

/-- The 32 samples of a tick, missing ones 0. -/
def padInts (l : List Int) : List Int := (l ++ List.replicate 32 0).take 32

/-- The Twist engine of lane `l` in H9 (15 R443 to R451). -/
def laneTick (f : StatusFrame) (l : Nat) (d : Dev) : Dev :=
  let r := d.lane l
  let s1 := f.twist.getD l []
  let d := d.setLane l { r with s0 := padInts r.s1, s1 := padInts s1, sinceLock := if d.laneLocked l then r.sinceLock else 0 }
  let d := d.setBitO (laneIx l) 0x10 7 d.sendingHeld
  let d := if f.limited.contains l then driverLimit l d else d
  let d := if d.sendingStopped then abandonSending l d else d
  let st := d.laneState l
  if st = 0 then d.setLane l { d.lane l with wins := [] }
  else
    let d := fixWindow l d
    let d := (d.lane l).wins.foldl (fun d (w : Nat × Nat) =>
      let n := d.now
      let tw := w.1
      let d := if n = tw then
          ((d.incWrap (laneIx l) 0x11).setBitO (laneIx l) 0x10 5 false).setLane l { d.lane l with sinceLock := (d.lane l).sinceLock + b2n (d.laneLocked l) }
        else d
      let d := if st = 2 && n + 2 = tw then openOwn l w d else d
      if (d.lane l).opened = some tw then
        let d := if (n + 2 - tw) % 2 = 0 then slotTick l tw d else d
        if n = tw + 64 then closeWindow l tw d else d
      else if n = tw + 64 then passWindow l d
      else d) d
    let r := d.lane l
    let d := d.setLane l { r with wins := r.wins.filter fun w => decide (d.now < w.1 + 64) }
    let q := (d.lane l).noise
    d.set (laneIx l) 0x19 (min 65535 (isqrt (sumN (q.map fun x => x.natAbs ^ 2) * 10 ^ 6 / max 1 q.length) / ampScale))

/-- TWIST_SLOT_BOUNDARY: H9 of a tick. -/
def twistTick (f : StatusFrame) (d : Dev) : Dev := each 3 (laneTick f) d

/-! ## Sending (15 R453, R456 to R459) -/

/-- The bits of bytes, bit 0 first. -/
def bitsLE (b : Bytes) : List Bool := b.flatMap fun x => (List.range 8).map fun i => x.toNat.testBit i

/-- The 480 bits of a control frame of bytes 0 to 39 (15 R453, R454). -/
def controlBits (data : Bytes) : List Bool :=
  let b := padTo 40 data
  bitsLE ([0x5B#8, 0xE2#8] ++ rsEncode 16 (b ++ natLE 2 (crc16 b)))

/-- The windows that a control frame of lane `l` takes. -/
def Dev.controlWindows (d : Dev) (l : Nat) : Nat := (479 + max 1 (classBits (d.map l 0) false)) / max 1 (classBits (d.map l 0) false)

/-- Blocks of a burst: the stream of frames from `b`, `first` the offset at which a frame starts, the sequence (15 R457). -/
def burstBlocks : Nat → Nat → Nat → Bytes → List Nat → List Bytes
  | 0, _, _, _, _ => []
  | f + 1, size, seq, b, starts =>
    let room := size - 4
    let off := match starts.find? fun x => decide (x < room) with
      | some x => x + 4
      | none => 0xFFFF
    let isLast := decide (b.length ≤ room)
    (natLE 2 off ++ natLE 1 seq ++ natLE 1 (b2n isLast) ++ padTo room b) ::
      (if isLast then [] else burstBlocks f size (seq + 1) (b.drop room) ((starts.filter fun x => decide (room ≤ x)).map fun x => x - room))

/-- Offsets of the frames in their stream. -/
def frameStarts : Nat → List Bytes → List Nat
  | _, [] => []
  | o, b :: r => o :: frameStarts (o + b.length) r

/-- The windows of a block: byte j of every row (15 R456). -/
def blockWindows (rows : Nat) (data : Bytes) : List (Bool × List Bool) :=
  let cw := (chunks 223 rows data).map fun x => rsEncode 32 (padTo 223 x)
  (List.range 256).map fun j => (j == 0, bitsLE (cw.map fun r => r.getD j 0))

/-! ## Reception (15 R452, R454 to R458) -/

/-- Slot errors of a stream: per slot the bits it holds, whether any differs or is erased. -/
def slotErrors : Nat → List Nat → List Nat → List Bool → Nat × Nat
  | 0, _, _, _ => (0, 0)
  | f + 1, all, caps, diff =>
    if diff = [] || all = [] then (0, 0)
    else
      match caps with
      | [] => slotErrors f all all diff
      | c :: r =>
        let z := slotErrors f all r (diff.drop c)
        (z.1 + b2n ((diff.take c).any id), z.2 + 1)

/-- Where two byte strings differ, bit by bit. -/
def bitDiff (a b : Bytes) : List Bool := List.zipWith (fun x y => x != y) (bitsLE a) (bitsLE b)

/-- The codeword of a received frame, an erased bit read as 0, and its bits that lie in erased slots. -/
def RxFrame.code (x : RxFrame) : Bytes := bytesOfBits ((x.bits.drop 16).map fun b => b.getD false)
def RxFrame.erased (x : RxFrame) : List Nat := (List.range 464).filter fun k => ((x.bits.drop 16).getD k none).isNone

/-- The 42 bytes of a received frame, where its codeword decodes, with its slot errors and slots; a byte that holds a bit of an erased slot is
an erasure. In the sync, which the codeword does not imply, only an erased slot is an error (15 R452, R454). -/
def decodeControl (x : RxFrame) : Option (Bytes × Nat × Nat) :=
  (rsBytes 16 x.code ((List.range 58).filter fun i => x.erased.any fun k => k / 8 == i)).map fun w =>
    let implied := (x.bits.take 16).map (fun b => b.getD false) ++ bitsLE w
    let z := slotErrors 600 x.caps x.caps (List.zipWith (fun r e => r != some e) x.bits implied)
    (w.take 42, z.1, z.2)

/-- Count the slot errors of a frame or block that decodes (15 R452). -/
def Dev.countSlots (d : Dev) (l errs slots : Nat) : Dev := (d.satInc 32 (laneIx l) 0x17 errs).satInc 32 (laneIx l) 0x18 slots

/-- Take the frames of a block's bytes from offset `o` (15 R457): whole frames and the open rest. -/
def takeFrames : Nat → Bytes → List Bytes × Bytes
  | 0, _ => ([], [])
  | f + 1, b =>
    let n := leAt b 0 2
    if b.length < 2 then ([], b)
    else if n = 0 then ([], [])
    else if b.length < n then ([], b)
    else if n < 2 then ([], [])
    else ((b.take n) :: (takeFrames f (b.drop n)).1, (takeFrames f (b.drop n)).2)

/-- Rows of a received block. -/
def BulkRx.height (x : BulkRx) : Nat := sumN (x.caps.headD []) / 8
/-- The received rows, byte j from window j, a byte that was not decided read as 0. -/
def BulkRx.rows (x : BulkRx) : List Bytes := (List.range x.height).map fun r => (List.range 255).map fun j => ((x.wins.getD j none).getD []).getD r 0
/-- The windows that were not decided, one erasure in every row. -/
def BulkRx.erased (x : BulkRx) : List Nat := (List.range 255).filter fun j => (x.wins.getD j none).isNone

/-- Slot errors and slots of a block whose corrected rows are `cw`: a window that was not decided and the pad window have slots alone
(15 R452). -/
def BulkRx.slots (x : BulkRx) (cw : List Bytes) : Nat × Nat :=
  (List.range 256).foldl (fun z j =>
    let caps := x.caps.getD j []
    match x.wins.getD j none with
    | some b => if j = 255 then (z.1, z.2 + caps.length)
        else (z.1 + (slotErrors 64 caps caps (bitDiff b (cw.map fun r => r.getD j 0))).1, z.2 + caps.length)
    | none => (z.1, z.2 + caps.length)) (0, 0)

/-- A block received whole (15 R456, R457): every row decodes, or it is discarded whole. -/
def bulkBlock (l : Nat) (x : BulkRx) (d : Dev) : Dev :=
  let r := d.lane l
  let dec := x.rows.map fun w => rsBytes 32 w x.erased
  if dec = [] || dec.any Option.isNone then (d.inc (laneIx l) 0x15).setLane l { r with blockSeq := none, part := [] }
  else
    let cw := dec.map fun w => w.getD []
    let data := cw.flatMap fun w => w.take 223
    let off := leAt data 0 2
    let seq := byteAt data 2
    let joined := r.blockSeq == some ((seq + 255) % 256)
    let body := data.drop 4
    let open' := if joined && r.part != [] then r.part ++ (if off = 0xFFFF then body else body.take (off - 4)) else []
    let z0 := takeFrames 32 open'
    let z1 := if off = 0xFFFF then ([], if joined && r.part != [] then z0.2 else []) else takeFrames 256 (data.drop off)
    let e := x.slots cw
    let last := (byteAt data 3).testBit 0
    let latest := decide (255 ≤ r.marker)
    let d := (d.inc (laneIx l) 0x14).countSlots l e.1 e.2
    d.setLane l { d.lane l with
      blockSeq := if last then none else some seq, part := if last then [] else z1.2
      ready := r.ready ++ z0.1 ++ z1.1, blockErrs := r.blockErrs ++ [e]
      markedLast := if latest then last else r.markedLast, burstOpen := r.burstOpen && !(last && latest) }

/-- BULK_BLOCK: the oldest block received whole, with these rows and erasures; where none such has been received, nothing happens. -/
def receivedBlock (l : Nat) (rows : List Bytes) (erasures : List (List Nat)) (d : Dev) : Dev :=
  match (d.lane l).bulkDone with
  | [] => d
  | x :: rest => d.when (x.rows == rows && List.replicate x.height x.erased == erasures) fun d =>
      bulkBlock l x (d.setLane l { d.lane l with bulkDone := rest })

def execBulkBlock (l : Fin 3) (rows : List Bytes) (erasures : List (List Nat)) (s : State) : Out :=
  onRun (receivedBlock l rows erasures) s

/-! ## Writes (15 R449, R450, R463, R465) -/

/-- The effect of a write to a lane object (15 R463). -/
def effLane (l sub v : Nat) (d : Dev) : Dev :=
  let d := d.set (laneIx l) sub v
  if sub = 1 then (if v = 0 then d.setLaneState l 0 else if d.laneState l = 0 then d.setLaneState l 1 else d)
  else if (sub = 2 || sub = 3) && d.laneState l != 0 then
    (d.setLaneState l 1).setLane l { (d.setLaneState l 1).lane l with sinceLock := 0, wins := [] }
  else d

/-- A write to 0x7801 + l. -/
def writeLane (role : Role) (l sub v : Nat) (d : Dev) : Dev := writeObj role (laneIx l) sub (.num v) {} (effLane l sub v) d

def execLaneWrite (role : Role) (l : Fin 3) (sub v : Nat) (s : State) : Out := onDev (writeLane role l sub v) s

/-- The refusals of a write to a pending map, judged beside what `aft` holds as the other map of its lane (15 R449). -/
def mapRules (aft : Dev) (w : Nat) (v : Bytes) : Rules :=
  { atRange := if mapOk v (aft.getB (0x7818 + (if w % 2 = 0 then w + 1 else w - 1)) 0) then 0 else 8 }

/-- The effect of a write to a pending map: a Skein entry (15 R465). -/
def effMap (role : Role) (w : Nat) (v : Bytes) (d : Dev) : Dev :=
  let ix := 0x7818 + w
  let d := d.skein { kind := 1, role := roleCode role, ix := ix, before := natLE 4 (crc32 (d.getB ix 0)), after := natLE 4 (crc32 v) }
  showPending (d.setB ix 0 v)

/-- A write to a pending map. -/
def writeMap (role : Role) (w : Nat) (v : Bytes) (d : Dev) : Dev := writeObj role (0x7818 + w) 0 (.raw v) (mapRules d w v) (effMap role w v) d

def execPendingMapWrite (role : Role) (w : Fin 6) (v : Bytes) (s : State) : Out := onDev (writeMap role w v) s

/-- A write to the map activation time (15 R465). -/
def effMapTime (role : Role) (v : Nat) (d : Dev) : Dev :=
  let d := d.skein { kind := 1, role := roleCode role, ix := 0x7820, sub := 1, before := natLE 8 (d.get 0x7820 1), after := natLE 8 v }
  showPending (d.set 0x7820 1 v)

/-- Whether a frame or block of lane `l` is in flight at the part, a received burst up to the window after a block that is not its
last; a transmission that has not begun is not (15 R450). -/
def LaneRec.inFlight (r : LaneRec) : Bool :=
  r.rx.isSome || r.bulkRx.isSome || (r.txBits != [] && !r.txFresh) || (r.txBulk != [] && !r.bulkFresh) || r.burstOpen

/-- Whether a window of lane `l`, with nothing of the lane in flight, opens 3 ticks from now, at or after the activation time: its map is
read in H9 two ticks before it opens (15 R447, R450). -/
def Dev.activates (d : Dev) (l : Nat) : Bool :=
  d.laneState l != 0 && !(d.lane l).inFlight && decide (d.get 0x7820 1 ≤ (d.civilAt (d.now + 3)).1)
    && (d.lane l).wins.any fun w => w.1 == d.now + 3

/-- MAP_ACTIVATION (15 R450): all three lanes together with the first that meets the conditions. -/
def mapActivation (d : Dev) : Dev :=
  d.when (d.running && d.mapsPending && d.civil.valid && (List.range 3).any d.activates) fun d =>
    let d := each 6 (fun w d => d.setB (0x7810 + w) 0 (d.getB (0x7818 + w) 0)) d
    showPending ((d.inc 0x7820 2).raiseEv 97)

def execMapActivation (s : State) : Out := onRun mapActivation s

end Sys2Proof.Machine
end

