-- ==== Sys2Proof/Machine/Mesh.lean ====
section
/-! DEFINITION. The mesh on the mains: frames, the tree, routes, access to the lanes, the endpoint table of the collector and
its queue (chapter 16). -/
namespace Sys2Proof.Machine

/-! ## Frames (16 R467 to R469) -/

/-- Every neighbour. -/
def meshAll : Nat := 0x3FFFF
/-- A node that has not yet joined. -/
def meshNew : Nat := 0x3FFFE

/-- The 7 bytes of a mesh header. -/
def meshHeader (f : MeshFrame) : Bytes :=
  natLE 7 (f.hopSrc % 2 ^ 18 + f.hopDst % 2 ^ 18 * 2 ^ 18 + f.far % 2 ^ 18 * 2 ^ 36 + b2n f.up * 2 ^ 54 + b2n f.ack * 2 ^ 55)

/-- The frame that a type, a header and a payload spell. -/
def meshParse (ty : Nat) (hdr payload : Bytes) : MeshFrame :=
  let h := leAt hdr 0 7
  { ty := ty, hopSrc := field h 0 18, hopDst := field h 18 18, far := field h 36 18, up := h.testBit 54, ack := h.testBit 55, payload := payload }

/-- Bytes 0 to 39 of a control frame. -/
def controlData (f : MeshFrame) : Bytes := natLE 1 f.ty ++ meshHeader f ++ padTo 32 f.payload

/-- A bulk frame (15 R458). -/
def bulkData (f : MeshFrame) : Bytes :=
  let b := natLE 2 (14 + f.payload.length) ++ natLE 1 f.ty ++ meshHeader f ++ f.payload
  b ++ natLE 4 (crc32 b)

/-- The relay addresses of a packed path. -/
def pathList (p : Nat) : List Nat := ((List.range 7).map fun i => field p (18 * i) 18).filter fun a => a != 0

/-- A packed path with an address after its last. -/
def pathAdd (p a : Nat) : Nat := setField p (18 * (pathList p).length) 18 a

/-- The role of the part. -/
def Dev.meshRole (d : Dev) : Nat := d.get 0x7A00 1
/-- The own address; 0 at the collector. -/
def Dev.meshAddr (d : Dev) : Nat := d.get 0x7A00 0x10
/-- The long identity of the part (16 R467). -/
def Dev.longIdent (d : Dev) : Nat := d.get 0x1018 2 * 2 ^ 32 + d.get 0x1018 4
/-- The beacon period in ticks. -/
def Dev.beaconTicks (d : Dev) : Nat := 32000 * d.get 0x7A00 3
/-- The keep-alive period in ticks. -/
def Dev.keepTicks (d : Dev) : Nat := 32000 * 60 * d.get 0x7A00 4
/-- The nominal frequency of a lane's lock group. -/
def Dev.laneHz (d : Dev) (l : Nat) : Nat := if d.get (0x34C0 + d.laneGroup l) 2 = 0 then 50 else 60

/-! ## Links (16 R474) -/

/-- The key of a neighbour. -/
def nbrKey (l a : Nat) : Nat := l * 2 ^ 18 + a
/-- The cost of a link. -/
def NbrRec.cost (n : NbrRec) : Nat := 16 + n.err / 64
/-- Whether a link is usable. -/
def Dev.linkUsable (d : Dev) (n : NbrRec) : Bool := decide (n.err ≤ 4096 ∧ d.now ≤ n.heardAt + 3 * d.beaconTicks)

/-- A neighbour from which a first beacon of the own domain comes (16 R470, R474). -/
def meetNeighbour (l : Nat) (f : MeshFrame) (d : Dev) : Dev :=
  d.when (d.meshRole != 0 && f.ty == 0x10 && leAt f.payload 0 2 == d.get 0x7A00 2 && !thas d.mesh.nbrs (nbrKey l f.hopSrc)) fun d =>
    { d with mesh := { d.mesh with nbrs := tset d.mesh.nbrs (nbrKey l f.hopSrc) {} } }

/-- The update of a link's error estimate by a frame or block that decodes. -/
def noteLink (l src errs slots : Nat) (d : Dev) : Dev :=
  match tfind d.mesh.nbrs (nbrKey l src) with
  | none => d
  | some n =>
    let x : Int := errs * 65536 / max 1 slots
    let e := (n.err : Int) + (x - n.err) / 8
    { d with mesh := { d.mesh with nbrs := tset d.mesh.nbrs (nbrKey l src) { n with err := e.toNat, heardAt := d.now } } }

/-- Neighbours that qualify as parents: key, record and the sum of its path cost and its link's cost. -/
def Dev.parents (d : Dev) : List (Nat × NbrRec × Nat) :=
  (d.mesh.nbrs.filter fun x => d.linkUsable x.2 && x.2.relays && decide (x.2.hop ≤ 7)).map fun x => (x.1, x.2, x.2.pathCost + x.2.cost)

/-- The one of least cost. -/
def bestParent : List (Nat × NbrRec × Nat) → Option (Nat × NbrRec × Nat)
  | [] => none
  | x :: r =>
    match bestParent r with
    | some y => if y.2.2 < x.2.2 then some y else some x
    | none => some x

/-- Cost of the link to the parent. -/
def Dev.parentCost (d : Dev) : Nat :=
  match d.mesh.parent with
  | some (l, a) => (tget {} d.mesh.nbrs (nbrKey l a)).cost
  | none => 0

/-- Show the state of the mesh in 0x7A00 (16 R486, R487). -/
def meshShow (d : Dev) : Dev :=
  let m := d.mesh
  let role := d.meshRole
  let listed := m.table.length
  let subs := (m.queue.filter fun x => x.job.isNone).length
  let search := role == 1 && (match m.parent with
    | some (l, a) => !(d.linkUsable (tget {} m.nbrs (nbrKey l a)))
    | none => true)
  let st := role + 4 * b2n (role == 1 && m.joined) + 8 * b2n search + 16 * b2n m.rebuild.isSome
    + 32 * b2n (decide (250000 ≤ listed)) + 64 * b2n m.queueFull + 128 * b2n d.sendingHeld
  let par := match m.parent with
    | some (_, a) => a
    | none => 0
  let d := ((d.set 0x7A00 0x14 st).set 0x7A00 0x11 par).set 0x7A00 0x15 (m.nbrs.filter fun x => d.linkUsable x.2).length
  let d := (d.set 0x7A00 0x18 listed).set 0x7A00 0x19 (m.table.filter fun x => x.2.state == 1).length
  (d.set 0x7A00 0x1A (m.table.filter fun x => x.2.state == 2).length).set 0x7A00 0x1E (min 512 subs)

/-- A mesh command: its effect, then what 0x7A00 shows. -/
def onMesh (f : Dev → Dev) (s : State) : Out := onDev (fun d => meshShow (f d)) s

/-- The part with the mesh record changed. -/
def Dev.withMesh (f : MeshRec → MeshRec) (d : Dev) : Dev := { d with mesh := f d.mesh }

/-! ## Queueing frames (16 R473, R475) -/

/-- Queue a control frame behind a backoff below `n` windows. -/
def queueCtl (l n prio : Nat) (own : Bool) (tag : Option Nat) (f : MeshFrame) (d : Dev) : Dev :=
  let z := d.fresh n
  let r := z.2.lane l
  z.2.setLane l { r with ctlQ := r.ctlQ ++ [{ data := controlData f, prio := prio, wait := z.1, own := own, tag := tag }] }

/-- The backoff of a first attempt: 4 windows, none for priority 0 at the collector. -/
def Dev.firstBackoff (d : Dev) (prio : Nat) : Nat := if d.meshRole = 2 && prio = 0 then 1 else 4

/-- Queue a bulk frame. -/
def queueBulk (l prio : Nat) (own : Bool) (tag : Option Nat) (f : MeshFrame) (d : Dev) : Dev :=
  let r := d.lane l
  d.setLane l { r with bulkQ := r.bulkQ ++ [{ at' := d.now, frame := bulkData f, prio := prio, own := own, tag := tag }] }

/-- Queue a frame of either class. -/
def queueFrame (l : Nat) (bulk : Bool) (prio : Nat) (own : Bool) (tag : Option Nat) (f : MeshFrame) (d : Dev) : Dev :=
  if bulk then queueBulk l prio own tag f d else queueCtl l (d.firstBackoff prio) prio own tag f d

/-- The running lanes. -/
def Dev.runningLanes (d : Dev) : List Nat := (List.range 3).filter fun l => d.laneState l == 2

/-- Send a frame towards the collector: to the parent, on lane `l`. -/
def sendUp (l : Nat) (bulk own : Bool) (f : MeshFrame) (d : Dev) : Dev :=
  match d.mesh.parent with
  | some (_, a) => queueFrame l bulk 2 own none { f with hopSrc := d.meshAddr, hopDst := a, up := true, ack := !bulk } d
  | none => d

/-- Send a frame away from the collector to the next hop. -/
def sendDown (l : Nat) (bulk : Bool) (next : Nat) (f : MeshFrame) (d : Dev) : Dev :=
  queueFrame l bulk 2 false none { f with hopSrc := d.meshAddr, hopDst := next, up := false, ack := !bulk } d

/-! ## The role (16 R466) -/

/-- Drop everything queued and in flight on the mesh, the neighbours and the downward entries; endpoints return to state 0. -/
def meshClear (d : Dev) : Dev :=
  let d := each 3 (fun l d =>
    let d := abandonAll l d
    d.setLane l { d.lane l with ctlQ := [], await := [], bulkQ := [], burst := [], burstWait := 0, ready := [] }) d
  let d := d.withMesh fun m => { m with
    nbrs := [], down := [], parent := none, joined := false, joinAt := none, keepDue := false, mapsBad := false
    queue := [], jobLeft := [], listen := d.effTick, path := 0
    table := m.table.map fun x => (x.1, { x.2 with state := 0 }) }
  let d := d.set 0x7A00 0x10 (if d.meshRole = 2 then 0 else meshNew)
  (d.set 0x7A00 0x12 0).set 0x7A00 0x13 0

/-- A write to the role or the domain. -/
def writeMeshRole (role : Role) (sub v : Nat) (d : Dev) : Dev :=
  writeObj role 0x7A00 sub (.num v) {} (fun d => meshShow (meshClear (d.set 0x7A00 sub v))) d

def execMeshRoleWrite (role : Role) (sub : Fin 2) (v : Nat) (s : State) : Out := onDev (writeMeshRole role (sub + 1) v) s

/-! ## Beacons and joining (16 R470, R471) -/

/-- CRC-32 of the six active maps. -/
def Dev.mapsCrc (d : Dev) : Nat := crc32 ((List.range 6).flatMap fun w => padTo 32 (d.getB (0x7810 + w) 0))

/-- The payload of a beacon of the part. -/
def Dev.beaconPayload (d : Dev) : Bytes :=
  let c := d.meshRole == 2
  natLE 2 (d.get 0x7A00 2) ++ natLE 1 (d.get 0x7A00 0x12)
    ++ natLE 1 (b2n (if c then d.get 0x7A00 6 == 1 else true) + 2 * b2n (c || d.get 0x7A00 5 != 0) + 4 * b2n d.mesh.rebuild.isSome)
    ++ natLE 2 (d.get 0x7A00 0x13) ++ natLE 2 d.mesh.beaconSeq ++ natLE 2 (d.get 0x7A00 3) ++ natLE 2 (d.get 0x7A00 4)
    ++ natLE 4 d.mapsCrc ++ natLE 8 (if c then d.longIdent else d.mesh.collector) ++ zeros 8

/-- Queue a flooded frame under the next own sequence number. -/
def floodNew (bulk : Bool) (prio : Nat) (tag : Option Nat) (ty : Nat) (payload : Bytes) (d : Dev) : Dev :=
  let n := d.mesh.flood
  let d := d.withMesh fun m => { m with flood := (n + 1) % 2 ^ 18, floods := push 1024 n m.floods }
  eachN d.runningLanes (fun l => queueFrame l bulk prio false tag
    { ty := ty, hopSrc := d.meshAddr, hopDst := meshAll, far := n, up := false, ack := false, payload := payload }) d

/-- BEACON_TRANSMIT: once in each beacon period, on each running lane; the collector floods pending maps with it (16 R484). -/
def beaconTransmit (d : Dev) : Dev :=
  let node := d.meshRole == 1 && d.mesh.joined && decide (d.get 0x7A00 0x12 < 8) && !d.mesh.mapsBad
  let per := d.now / max 1 d.beaconTicks + 1
  d.when (d.running && (node || d.meshRole == 2) && per != d.mesh.beaconAt) fun d =>
    let f : MeshFrame := { ty := 0x10, hopSrc := d.meshAddr, hopDst := meshAll, far := d.meshAddr, up := false, ack := false, payload := d.beaconPayload }
    let d := eachN d.runningLanes (fun l => queueFrame l false 2 true none f) d
    let d := d.withMesh fun m => { m with beaconSeq := (m.beaconSeq + 1) % 65536, beaconAt := per }
    d.when (d.meshRole == 2 && d.mapsPending) fun d =>
      floodNew true 4 none 0x17 (natLE 8 (d.get 0x7820 1) ++ (List.range 6).flatMap fun w => padTo 32 (d.getB (0x7818 + w) 0)) d

def execBeaconTransmit (s : State) : Out := onMesh beaconTransmit s

/-- Steps 2 and 3 of joining: choose the parent and send the request. -/
def tryJoin (d : Dev) : Dev :=
  d.when (d.meshRole == 1 && !d.mesh.joined && d.mesh.joinAt.isNone && decide (d.mesh.listen + 2 * d.beaconTicks ≤ d.now)) fun d =>
    match bestParent d.parents with
    | none => d
    | some (k, n, _) =>
      let l := k / 2 ^ 18
      let a := k % 2 ^ 18
      let d := d.withMesh fun m => { m with parent := some (l, a), joinAt := some d.now }
      let p := natLE 8 d.longIdent ++ natLE 1 (d.get 0x7A00 5 / 64) ++ natLE 2 n.cost ++ natLE 1 1 ++ zeros 20
      queueCtl l 4 2 true none { ty := 0x11, hopSrc := meshNew, hopDst := a, far := meshNew, up := true, ack := true, payload := p } d

/-- A beacon of the own domain. -/
def onBeacon (l : Nat) (f : MeshFrame) (d : Dev) : Dev :=
  let p := f.payload
  if leAt p 0 2 != d.get 0x7A00 2 then d
  else
    let k := nbrKey l f.hopSrc
    let old := tget {} d.mesh.nbrs k
    let fl := byteAt p 3
    let n : NbrRec := { old with pathCost := leAt p 4 2, hop := byteAt p 2, relays := fl.testBit 1, joins := fl.testBit 0, heardAt := d.now }
    let mine := d.get 0x7A00 0x13
    let par := d.mesh.parent == some (l, f.hopSrc)
    let n := { n with better := if !par && n.relays && decide (n.hop ≤ 7 ∧ 4 * (n.pathCost + n.cost) ≤ 3 * mine) then n.better + 1 else 0 }
    let bad := d.meshRole == 1 && leAt p 12 4 != d.mapsCrc && !d.mapsPending
    let good := leAt p 12 4 == d.mapsCrc
    let d := d.withMesh fun m => { m with
      nbrs := tset m.nbrs k n, collector := leAt p 16 8
      keepDue := m.keepDue || (m.joined && fl.testBit 2) }
    let d := if d.mesh.mapsBad && good then
        d.withMesh fun m => { m with mapsBad := false, joined := false, joinAt := none, listen := d.now }
      else d.withMesh fun m => { m with mapsBad := m.mapsBad || bad }
    let d := if par && d.mesh.joined then (d.set 0x7A00 0x13 (min 65535 (n.pathCost + n.cost))).set 0x7A00 0x12 (min 8 (n.hop + 1)) else d
    tryJoin d

/-- JOIN_TIMEOUT: no accept within three beacon periods. -/
def joinTimeout (d : Dev) : Dev :=
  d.when (match d.mesh.joinAt with
    | some t => !d.mesh.joined && decide (t + 3 * d.beaconTicks ≤ d.now)
    | none => false) (Dev.withMesh fun m => { m with joinAt := none, parent := none, listen := d.now })

def execJoinTimeout (s : State) : Out := onMesh joinTimeout s

/-- Joined endpoints whose path holds a relay, but one. -/
def Dev.descendants (d : Dev) (relay but : Nat) : Nat :=
  (d.mesh.table.filter fun x => x.1 != but && x.2.state == 1 && (pathList x.2.path).contains relay).length

/-- Whether the collector accepts a join request of the listed endpoint at `a`. -/
def Dev.joinOk (d : Dev) (a : Nat) (p : Bytes) : Bool :=
  d.get 0x7A00 6 == 1 && decide (byteAt p 11 ≤ 8)
    && (pathList (leAt p 12 16)).all fun r => decide (d.descendants r a < 64 * (tget {} d.mesh.table r).capacity)

/-- Send a join accept from the collector. -/
def sendAccept (l next a : Nat) (e : EndRec) (d : Dev) : Dev :=
  queueCtl l (d.firstBackoff 2) 2 false none
    { ty := 0x12, hopSrc := 0, hopDst := next, far := meshNew, up := false, ack := true
      payload := natLE 8 e.ident ++ natLE 3 a ++ natLE 1 e.hops ++ natLE 16 e.path ++ zeros 4 } d

/-- A join request at the collector. -/
def judgeJoin (l : Nat) (f : MeshFrame) (d : Dev) : Dev :=
  let p := f.payload
  match d.mesh.table.find? fun x => x.2.ident == leAt p 0 8 with
  | none => d
  | some (a, e) =>
    d.when (d.joinOk a p) fun d =>
      let e := { e with
        state := 1, hops := byteAt p 11, lane := l, first := if f.hopSrc = meshNew then a else f.hopSrc, cost := leAt p 9 2, failed := 0, path := leAt p 12 16
        heard := d.now, capacity := byteAt p 8 }
      sendAccept l f.hopSrc a e (d.withMesh fun m => { m with table := tset m.table a e })

/-- A join accept: taken by the node whose identity matches, else handed back along the path. -/
def onAccept (l : Nat) (f : MeshFrame) (d : Dev) : Dev :=
  let p := f.payload
  if d.meshRole != 1 then d
  else if leAt p 0 8 = d.longIdent then
    let n := tget {} d.mesh.nbrs (nbrKey l f.hopSrc)
    let d := d.withMesh fun m => { m with
      joined := true, joinAt := none, path := leAt p 12 16, parent := some (l, f.hopSrc) }
    ((d.set 0x7A00 0x10 (leAt p 8 3 % 2 ^ 18)).set 0x7A00 0x12 (min 8 (byteAt p 11))).set 0x7A00 0x13 (min 65535 (n.pathCost + n.cost))
  else if f.hopDst != d.meshAddr || !d.mesh.joined then d
  else
    let path := pathList (leAt p 12 16)
    match findIx (fun a => a == d.meshAddr) path 0 with
    | none => d
    | some i =>
      let next := if i = 0 then meshNew else path.getD (i - 1) meshNew
      (sendDown l false next f d).satInc 32 0x7A00 0x16 1

/-! ## Routes (16 R472) -/

/-- Record a downward entry. An entry that is new needs room (log entry 24). -/
def noteDown (l dst next : Nat) (d : Dev) : Dev :=
  if thas d.mesh.down dst || decide (d.mesh.down.length < d.get 0x7A00 5) then
    d.withMesh fun m => { m with down := tset m.down dst { next := next, lane := l, at' := d.now } }
  else d

/-- The payload of a frame as a relay passes it up: a join request gains the relay (16 R471). -/
def Dev.relayed (d : Dev) (f : MeshFrame) : MeshFrame :=
  if f.ty = 0x11 then
    let p := f.payload
    { f with payload := sliceB p 0 9 ++ natLE 2 (min 65535 (leAt p 9 2 + d.parentCost)) ++ natLE 1 (min 255 (byteAt p 11 + 1))
        ++ natLE 16 (pathAdd (leAt p 12 16) d.meshAddr) ++ zeros 4 }
  else f

/-- The addresses of a subtree refresh. -/
def subtreeList (p : Bytes) : List Nat := (List.range (min 13 (byteAt p 0))).map fun i => field (leAt p 1 31) (18 * i) 18

/-- An upward frame at a relay. -/
def relayUp (l : Nat) (bulk : Bool) (f : MeshFrame) (d : Dev) : Dev :=
  d.when (d.mesh.joined && d.mesh.parent.isSome && !d.mesh.mapsBad) fun d =>
    let d := noteDown l f.far f.hopSrc d
    let d := if f.ty = 0x14 then (subtreeList f.payload).foldl (fun d a => noteDown l a f.hopSrc d) d else d
    let d := if f.ty = 0x16 then d.satInc 32 0x7A00 0x17 1 else d
    (sendUp l bulk false (d.relayed f) d).satInc 32 0x7A00 0x16 1

/-- A route error from the part. -/
def routeError (l far : Nat) (d : Dev) : Dev :=
  (sendUp l false true { ty := 0x16, hopSrc := 0, hopDst := 0, far := d.meshAddr, up := true, ack := true
                         payload := natLE 3 far ++ natLE 3 d.meshAddr ++ zeros 26 } d).satInc 32 0x7A00 0x17 1

/-- A downward unicast frame at a node: own, passed on, or a route error. -/
def relayDown (deliver : Dev → Dev) (l : Nat) (bulk : Bool) (f : MeshFrame) (d : Dev) : Dev :=
  if f.far = d.meshAddr then deliver d
  else
    match tfind d.mesh.down f.far with
    | some e => (sendDown l bulk e.next f d).satInc 32 0x7A00 0x16 1
    | none => routeError l f.far d

/-- An upward frame heard from an endpoint: it is joined, over this hop and lane (16 R477). -/
def heardFrom (l : Nat) (f : MeshFrame) (d : Dev) : Dev :=
  match tfind d.mesh.table f.far with
  | none => d
  | some e =>
    let e' := { e with state := 1, lane := l, first := f.hopSrc, heard := d.now, failed := 0 }
    let e' := if f.ty = 0x13 then
        { e' with cost := leAt f.payload 0 2, hops := byteAt f.payload 2, path := leAt f.payload 3 16 }
      else e'
    let d := d.withMesh fun m => { m with table := tset m.table f.far e' }
    if f.ty = 0x13 && d.mesh.rebuild.isSome && e.state = 0 then sendAccept l f.hopSrc f.far e' d else d

/-! ## Results of the queue (16 R480, R481) -/

/-- The transaction number of a compact or a full frame. -/
def transOf (b : Bytes) : Nat := if b.length ≠ 32 && leAt b 0 2 = 0x4A58 then leAt b 8 4 else leAt b 0 4

/-- The key of a submission or scheduled read in the lanes. -/
def SubmRec.key (x : SubmRec) : Nat :=
  match x.job with
  | some j => 2 ^ 32 + j * 2 ^ 18 + x.target
  | none => x.tag

/-- A result: a stream record, and for a job its counts (16 R480). -/
def giveResult (x : SubmRec) (res addr : Nat) (answer : Bytes) (d : Dev) : Dev :=
  match x.job with
  | none => d.stream 5 ⟨0x51, x.tag, natLE 1 res ++ natLE 3 addr ++ zeros 4 ++ answer⟩
  | some j =>
    let d := d.stream 5 ⟨0x52, j, natLE 1 res ++ natLE 3 addr ++ natLE 4 x.tag ++ padTo 32 answer⟩
    let d := d.incWrap (0x7A30 + j) (if res = 0 then 3 else 4)
    let left := tget 0 d.mesh.jobLeft j - 1
    let d := d.withMesh fun m => { m with jobLeft := tset m.jobLeft j left }
    if left = 0 then d.satInc 32 (0x7A30 + j) 2 1 else d

/-- Take an entry out of the queue. -/
def dropSubm (k : Nat) (d : Dev) : Dev := d.withMesh fun m => { m with queue := m.queue.filter fun x => x.key != k }

/-- Take the frames of an entry off the lanes' queues. -/
def dropQueued (k : Nat) (d : Dev) : Dev :=
  each 3 (fun l d => d.setLane l { d.lane l with
    ctlQ := (d.lane l).ctlQ.filter fun x => x.tag != some k, bulkQ := (d.lane l).bulkQ.filter fun x => x.tag != some k
    burst := (d.lane l).burst.filter fun x => x.tag != some k }) d

/-- A failed exchange of an endpoint, in a row with those before it (16 R477). -/
def noteFailed (a : Nat) (d : Dev) : Dev :=
  match tfind d.mesh.table a with
  | some e => d.withMesh fun m => { m with table := tset m.table a { e with failed := min 255 (e.failed + 1) } }
  | none => d

/-- An exchange of one endpoint without an answer, be its first hop lost or its end silent: again while retries are left, else result 3
(16 R480, R481). -/
def exchangeFailed (k : Nat) (d : Dev) : Dev :=
  match d.mesh.queue.find? fun x => x.key == k && x.kind == 0 with
  | none => d
  | some x =>
    let d := dropQueued k (noteFailed x.target d)
    if x.retries = 0 then dropSubm k (giveResult x 3 x.target [] d)
    else
      d.withMesh fun m => { m with
        queue := m.queue.map fun y => if y.key == k then { y with retries := y.retries - 1, placed := false, sent := false } else y }

/-- Whether a sent exchange has stayed without an answer for the windows that the collector waits (log entry 114). -/
def Dev.silent (d : Dev) (x : SubmRec) : Bool :=
  x.sent && x.kind == 0 && !x.piece && decide (x.since + 2000 + Config.answerExtra ≤ (d.lane x.lane).passed)

/-- The mesh layer in a tick: exchanges that have stayed without an answer fail, and 0x7A00 shows what time has changed (16 R480, R481,
R486, R487). -/
def meshTick (d : Dev) : Dev := meshShow ((d.mesh.queue.filter d.silent).foldl (fun d x => exchangeFailed x.key d) d)

/-- A response from an endpoint: the submission or scheduled read it answers, where there is one. -/
def Dev.answered (d : Dev) (f : MeshFrame) : Option SubmRec :=
  d.mesh.queue.find? fun x => x.sent && x.kind == 0 && x.target == f.far && transOf x.frame == transOf f.payload

/-! ## Reception (16 R466 to R474, R482, R484) -/

/-- Whether the part takes notice of a frame: a beacon, whose domain is judged in it; a frame of a neighbour heard beaconing in the own domain;
and of a node that is joining, which does not beacon, its request and its acknowledgements (16 R470, R471, R473). -/
def Dev.meshKnows (d : Dev) (l : Nat) (f : MeshFrame) : Bool :=
  f.ty == 0x10 || (f.hopSrc == meshNew && (f.ty == 0x11 || f.ty == 0x15)) || thas d.mesh.nbrs (nbrKey l f.hopSrc)

/-- Whether a dictionary frame or image pieces that `f` brings are for the part: of far address 0 without a role, to its own address at a
node, and of an endpoint flagged as a gateway at the collector (16 R466, R482). -/
def Dev.forPart (d : Dev) (f : MeshFrame) : Bool :=
  if d.meshRole = 2 then f.up && (tget {} d.mesh.table f.far).gateway
  else if d.meshRole = 1 then !f.up && d.mesh.joined && f.far == d.meshAddr else f.far == 0

/-- Flooded frames: each sequence number once, sent on by a joined node after a backoff of 0 to 3 permitted windows (16 R481). A map distribution is
taken by every node that hears it (16 R484), a broadcast by a joined one. -/
def relayFlood (own : Dev → Dev) (bulk : Bool) (f : MeshFrame) (d : Dev) : Dev :=
  d.when (d.meshRole == 1 && (d.mesh.joined || f.ty == 0x17) && !d.mesh.floods.contains f.far) fun d =>
    let d := d.withMesh fun m => { m with floods := push 1024 f.far m.floods }
    let d := d.when d.mesh.joined fun d =>
      (eachN d.runningLanes (fun l => queueFrame l bulk 2 false none { f with hopSrc := d.meshAddr }) d).satInc 32 0x7A00 0x16 1
    own d

/-- Set the pending maps from a map distribution (16 R484): six maps that keep the rules of 15 R449 and the activation time. -/
def takeMaps (p : Bytes) (d : Dev) : Dev :=
  let map := fun (w : Nat) => sliceB p (8 + 32 * w) 32
  if p.length = 200 && (List.range 6).all fun w => mapOk (map w) (map (if w % 2 = 0 then w + 1 else w - 1)) then
    let d := each 6 (fun w d =>
      (d.skein { kind := 1, ix := 0x7818 + w, before := natLE 4 (crc32 (d.getB (0x7818 + w) 0)), after := natLE 4 (crc32 (map w)) }).setB (0x7818 + w) 0 (map w)) d
    let d := d.skein { kind := 1, ix := 0x7820, sub := 1, before := natLE 8 (d.get 0x7820 1), after := natLE 8 (leAt p 0 8) }
    showPending (d.set 0x7820 1 (leAt p 0 8))
  else d

/-- An acknowledgement takes its frame off the list that waits. -/
def onAck (l : Nat) (f : MeshFrame) (d : Dev) : Dev :=
  let r := d.lane l
  d.setLane l { r with await := r.await.filter fun x => crc16 x.data != leAt f.payload 0 2 }

/-- A unicast frame that has reached a hop on its way; `deliver` takes a dictionary frame or image piece for the part. -/
def onUnicast (deliver : Dev → Dev) (l : Nat) (bulk : Bool) (f : MeshFrame) (d : Dev) : Dev :=
  if d.meshRole = 2 then
    if !f.up then d
    else
      let d := if f.ty = 0x11 then judgeJoin l f d else heardFrom l f d
      if f.ty = 0x14 then
        (subtreeList f.payload).foldl (fun d a => match tfind d.mesh.table a with
          | some e => d.withMesh fun m => { m with table := tset m.table a { e with first := f.hopSrc, lane := l } }
          | none => d) d
      else if f.ty = 0x16 then d.satInc 32 0x7A00 0x17 1
      else if f.ty = 0x01 || f.ty = 0x02 then
        match d.answered f with
        | some x => dropSubm x.key (giveResult x 0 f.far f.payload d)
        | none => d.when (d.forPart f) deliver
      else d
  else if f.up then relayUp l bulk f d
  else d.when d.mesh.joined (relayDown deliver l bulk f)

/-- A mesh frame received on lane `l`. -/
def meshReceive (deliver : Dev → Dev) (l : Nat) (bulk : Bool) (f : MeshFrame) (d : Dev) : Dev :=
  if d.meshRole = 0 then d.when ((f.ty == 0x01 || f.ty == 0x02) && d.forPart f) deliver
  else if !d.meshKnows l f then d
  else
    let toMe := f.hopDst == d.meshAddr
    let d := if f.ack && toMe && !bulk then
        queueCtl l 1 0 false none { ty := 0x15, hopSrc := d.meshAddr, hopDst := f.hopSrc, far := f.far, up := !f.up, ack := false
                                    payload := natLE 2 (crc16 (controlData f)) } d
      else d
    if f.ty = 0x10 then onBeacon l f d
    else if f.ty = 0x12 then (if toMe || f.hopDst = meshNew then onAccept l f d else d)
    else if f.ty = 0x15 then (if toMe then onAck l f d else d)
    else if f.ty = 0x17 then relayFlood (takeMaps f.payload) bulk f d
    else if f.ty = 0x18 then relayFlood deliver bulk f d
    else if !toMe then d
    else if f.ty = 0x01 || f.ty = 0x02 || f.ty = 0x11 || f.ty = 0x13 || f.ty = 0x14 || f.ty = 0x16 then onUnicast deliver l bulk f d
    else d

/-- A frame of one mesh type by its own command. -/
def meshEvent (ty l : Nat) (bulk : Bool) (f : MeshFrame) (s : State) : Out :=
  onMesh (fun d => d.when (d.running && f.ty == ty && d.meshRole != 0) (meshReceive id l bulk f)) s

def execBeacon (l : Fin 3) (f : MeshFrame) (s : State) : Out := meshEvent 0x10 l false f s
def execJoinRequest (l : Fin 3) (f : MeshFrame) (s : State) : Out := meshEvent 0x11 l false f s
def execJoinAccept (l : Fin 3) (f : MeshFrame) (s : State) : Out := meshEvent 0x12 l false f s
def execKeepAlive (l : Fin 3) (f : MeshFrame) (s : State) : Out := meshEvent 0x13 l false f s
def execSubtreeRefresh (l : Fin 3) (f : MeshFrame) (s : State) : Out := meshEvent 0x14 l false f s
def execAcknowledgement (l : Fin 3) (f : MeshFrame) (s : State) : Out := meshEvent 0x15 l false f s
def execRouteError (l : Fin 3) (f : MeshFrame) (s : State) : Out := meshEvent 0x16 l false f s
def execMapDistribution (l : Fin 3) (f : MeshFrame) (s : State) : Out := meshEvent 0x17 l true f s

/-! ## Times of the tree (16 R472 to R474, R477, R478, R485) -/

/-- DOWNWARD_ENTRY_EXPIRY: four keep-alive periods without an upward frame. -/
def downExpiry (dst : Nat) (d : Dev) : Dev :=
  match tfind d.mesh.down dst with
  | some e => d.when (decide (e.at' + 4 * d.keepTicks ≤ d.now)) (Dev.withMesh fun m => { m with down := tdel m.down dst })
  | none => d

def execDownwardEntryExpiry (dst : Nat) (s : State) : Out := onMesh (downExpiry dst) s

/-- Subtree refresh frames over the downward table, 13 addresses each. -/
def sendSubtree : Nat → Nat → List Nat → Dev → Dev
  | 0, _, _, d => d
  | k + 1, l, as, d =>
    if as = [] then d
    else
      let p := as.take 13
      let packed := (List.range p.length).foldl (fun n i => n + p.getD i 0 * 2 ^ (18 * i)) 0
      sendSubtree k l (as.drop 13) (sendUp l false true
        { ty := 0x14, hopSrc := 0, hopDst := 0, far := d.meshAddr, up := true, ack := true, payload := natLE 1 p.length ++ natLE 31 packed } d)

/-- PARENT_CHANGE (16 R474). -/
def parentChange (d : Dev) : Dev :=
  let lost := match d.mesh.parent with
    | some (l, a) => !(d.linkUsable (tget {} d.mesh.nbrs (nbrKey l a)))
    | none => true
  let cheaper := d.parents.filter fun x => decide (5 ≤ x.2.1.better)
  d.when (d.running && d.meshRole == 1 && d.mesh.joined && (lost || cheaper != [])) fun d =>
    match bestParent (if lost then d.parents else cheaper) with
    | none => d.withMesh fun m => { m with parent := none }
    | some (k, n, c) =>
      let l := k / 2 ^ 18
      let d := d.withMesh fun m => { m with
        parent := some (l, k % 2 ^ 18), nbrs := m.nbrs.map fun x => (x.1, { x.2 with better := 0 }) }
      let d := (d.set 0x7A00 0x13 (min 65535 c)).set 0x7A00 0x12 (min 8 (n.hop + 1))
      let as := d.mesh.down.map Prod.fst
      sendSubtree (as.length / 13 + 1) l as d

def execParentChange (s : State) : Out := onMesh parentChange s

/-- KEEP_ALIVE_TRANSMIT: once in each keep-alive period, and for the rebuild bit (16 R478, R485). -/
def keepAliveTransmit (d : Dev) : Dev :=
  let per := d.now / max 1 d.keepTicks + 1
  match d.mesh.parent with
  | none => d
  | some (l, _) =>
    d.when (d.running && d.meshRole == 1 && d.mesh.joined && (d.mesh.keepDue || per != d.mesh.keepAt)) fun d =>
      let p := natLE 2 (d.get 0x7A00 0x13) ++ natLE 1 (d.get 0x7A00 0x12) ++ natLE 16 d.mesh.path ++ zeros 13
      (sendUp l false true { ty := 0x13, hopSrc := 0, hopDst := 0, far := d.meshAddr, up := true, ack := true, payload := p } d).withMesh
        fun m => { m with keepDue := false, keepAt := per }

def execKeepAliveTransmit (s : State) : Out := onMesh keepAliveTransmit s

/-- ENDPOINT_UNREACHABLE (16 R477). -/
def endpointUnreachable (a : Nat) (d : Dev) : Dev :=
  match tfind d.mesh.table a with
  | some e =>
    d.when (d.meshRole == 2 && e.state == 1 && decide (e.heard + 4 * d.keepTicks ≤ d.now ∨ 3 ≤ e.failed))
      (Dev.withMesh fun m => { m with table := tset m.table a { e with state := 2 } })
  | none => d

def execEndpointUnreachable (addr : Nat) (s : State) : Out := onMesh (endpointUnreachable addr) s

/-- REBUILD_END: 600 s after the loss of the table. -/
def rebuildEnd (d : Dev) : Dev :=
  d.when (match d.mesh.rebuild with
    | some t => decide (t + 600 * 32000 ≤ d.now)
    | none => false) (Dev.withMesh fun m => { m with rebuild := none })

def execRebuildEnd (s : State) : Out := onMesh rebuildEnd s

/-! ## The endpoint table (16 R477) -/

/-- The refusals of a listing entry; its reserved bytes are 0 (00 R3). -/
def listRules (d : Dev) (v : Bytes) : Rules :=
  let id := leAt v 0 8
  let a := leAt v 8 4 % 2 ^ 18
  let t := d.mesh.table
  let clash := t.any fun x => (x.1 == a) != (x.2.ident == id)
  let rm := (byteAt v 13).testBit 1
  { atRange := if leAt v 14 2 != 0 || clash then 8 else if rm then 0 else if a = 0 || meshNew ≤ a then 8
      else if !thas t a && 250000 ≤ t.length then 0x0E else 0 }

/-- List, change or remove an endpoint. -/
def effListing (v : Bytes) (d : Dev) : Dev :=
  let id := leAt v 0 8
  let a := leAt v 8 4 % 2 ^ 18
  let fl := byteAt v 13
  if fl.testBit 1 then d.withMesh fun m => { m with table := m.table.filter fun x => !(x.1 == a && x.2.ident == id) }
  else
    let e := tget {} d.mesh.table a
    d.withMesh fun m => { m with table := tset m.table a { e with ident := id, groups := byteAt v 12, gateway := fl.testBit 0 } }

/-- A write to 0x7A20.01. -/
def writeListing (role : Role) (v : Bytes) (d : Dev) : Dev :=
  writeObj role 0x7A20 1 (.raw v) (listRules d v) (fun d => meshShow (effListing v d)) d

def execListingEntry (role : Role) (v : Bytes) (s : State) : Out := onDev (writeListing role v) s

/-- The 48-byte record of the selected address (0x7A20.03). -/
def Dev.endRecord (d : Dev) : Bytes :=
  let a := d.get 0x7A20 2 % 2 ^ 18
  match tfind d.mesh.table a with
  | some e =>
    natLE 8 e.ident ++ natLE 4 a ++ natLE 1 e.state ++ natLE 1 e.hops ++ natLE 1 e.lane ++ natLE 1 e.groups ++ natLE 4 e.first
      ++ natLE 2 e.cost ++ natLE 1 (b2n e.gateway) ++ natLE 1 e.failed ++ natLE 16 e.path ++ natLE 8 e.heard
  | none => zeros 48

/-! ## Read jobs (16 R480) -/

/-- A fraction added to another. -/
def fracAdd (x y : Nat × Nat) : Nat × Nat := (x.1 * y.2 + y.1 * x.2, x.2 * y.2)

/-- Joined endpoints of a group mask on a lane, 0 for every endpoint. -/
def Dev.inGroups (d : Dev) (mask : Nat) : List (Nat × EndRec) :=
  d.mesh.table.filter fun x => x.2.state == 1 && (mask == 0 || Nat.land x.2.groups mask != 0)

/-- The load of a job on lane `l` in windows per second. -/
def Dev.jobLoad (d : Dev) (l : Nat) (b : Bytes) : Nat × Nat :=
  let hops := sumN (((d.inGroups (byteAt b 4)).filter fun x => x.2.lane == l).map fun x => x.2.hops)
  let per := leAt b 8 4
  if per = 0 then (0, 1) else if byteAt b 3 = 0 then (2 * hops * 42, per) else (2 * hops * 11776, 1334 * per)

/-- The load of the jobs of a class on a lane, with job `j` as `b` gives it. -/
def Dev.laneLoad (d : Dev) (l cls j : Nat) (b : Bytes) : Nat × Nat :=
  (((List.range 16).map fun i => if i = j then b else d.getB (0x7A30 + i) 1).filter fun x => byteAt x 3 == cls).foldl
    (fun a x => fracAdd a (d.jobLoad l x)) (0, 1)

/-- The refusals of a job write; the jobs are admitted together as `d` holds them after the request (16 R480). -/
def jobRules (d : Dev) (j : Nat) (b : Bytes) : Rules :=
  let per := leAt b 8 4
  let fields := decide (byteAt b 3 ≤ 1 ∧ byteAt b 5 ≤ 7 ∧ leAt b 6 2 = 0 ∧ (per = 0 ∨ (60 ≤ per ∧ per ≤ 2592000)))
  let above := (List.range 3).any fun l => (List.range 2).any fun c =>
    let x := d.laneLoad l c j b
    decide (16 * d.laneHz l * x.2 < 10 * x.1)
  { atRange := if fields && !above then 0 else 8 }

/-- Show the load admitted for each lane, in permille and rounded up. -/
def showLoads (d : Dev) : Dev :=
  each 3 (fun l d =>
    let pm := fun (c : Nat) => let x := d.laneLoad l c 16 []
      (1000 * x.1 + 2 * d.laneHz l * x.2 - 1) / (2 * d.laneHz l * x.2)
    d.set 0x7A00 (0x1B + l) (min 65535 (pm 0) + 65536 * min 65535 (pm 1))) d

/-- The effect of such a write: the cycles of the job it defines start afresh. -/
def effJob (j : Nat) (v : Bytes) (d : Dev) : Dev :=
  showLoads ((d.setB (0x7A30 + j) 1 v).withMesh fun m => { m with cycles := tdel m.cycles j })

/-- A write of read job `j`. -/
def writeJob (role : Role) (j : Nat) (v : Bytes) (d : Dev) : Dev :=
  writeObj role (0x7A30 + j) 1 (.raw v) (jobRules (d.setB (0x7A30 + j) 1 v) j v) (effJob j v) d

def execReadJobWrite (role : Role) (j : Fin 16) (v : Bytes) (s : State) : Out := onDev (writeJob role j v) s

/-- READ_JOB_CYCLE: one compact read to each joined endpoint of the job's groups; what the cycle before left unanswered fails. -/
def readJobCycle (j : Nat) (d : Dev) : Dev :=
  let b := d.getB (0x7A30 + j) 1
  let per := leAt b 8 4
  let start := leAt b 12 8
  let k := (d.utc - start) / max 1 per
  d.when (d.running && d.meshRole == 2 && per != 0 && d.civil.valid && decide (start ≤ d.utc) && tget 0 d.mesh.cycles j != k + 1) fun d =>
    let d := (d.mesh.queue.filter fun x => x.job == some j).foldl (fun d x =>
      dropQueued x.key (dropSubm x.key (giveResult x 3 x.target [] (d.when x.sent (noteFailed x.target))))) d
    let es := d.inGroups (byteAt b 4)
    let d := ((d.set (0x7A30 + j) 3 0).set (0x7A30 + j) 4 0).withMesh fun m => { m with
      cycles := tset m.cycles j (k + 1), jobLeft := tset m.jobLeft j es.length }
    let d := es.foldl (fun d x =>
      let fr := natLE 4 d.mesh.trans ++ sliceB b 0 3 ++ natLE 1 0x4F ++ zeros 24
      d.withMesh fun m => { m with
        trans := (m.trans + 1) % 2 ^ 32
        queue := m.queue ++ [{ tag := k % 2 ^ 32, job := some j, target := x.1, prio := 3, bulk := byteAt b 3 == 1, frame := fr, retries := byteAt b 5 }] }) d
    showLoads (if es = [] then d.satInc 32 (0x7A30 + j) 2 1 else d)

def execReadJobCycle (j : Fin 16) (s : State) : Out := onMesh (readJobCycle j) s

/-! ## Submissions of the host (16 R481) -/

/-- Whether the frame of a bulk submission holds 1 to 16 records of image pieces: 80 bytes each (20 R587), and no full frame, which begins
with its magic (02 R70; log entry 115). -/
def holdsPieces (b : Bytes) : Bool := decide (b.length % 80 = 0 ∧ 1 ≤ b.length / 80 ∧ b.length / 80 ≤ 16) && leAt b 0 2 != 0x4A58

/-- A record of type 0x50: queued, or answered with result 2 or 5. One that names no kind, priority or class of the table is
dropped (log entry 25). Image pieces travel at priority 4 (16 R484). -/
def meshSubmission (tag : Nat) (p : Bytes) (d : Dev) : Dev :=
  let kind := byteAt p 0
  let target := if kind = 1 then byteAt p 1 else if kind = 2 then meshAll else leAt p 1 3 % 2 ^ 18
  let bulk := byteAt p 5 == 1
  let piece := bulk && holdsPieces (p.drop 16)
  let x : SubmRec := {
    tag := tag, kind := kind, target := target, prio := if piece then 4 else byteAt p 4, bulk := bulk, deadline := leAt p 8 8
    frame := p.drop 16, piece := piece, retries := Config.submissionRetries }
  d.when (decide (kind ≤ 2 ∧ byteAt p 4 ≤ 2 ∧ byteAt p 5 ≤ 1)) fun d =>
    if d.meshRole != 2 || (kind = 0 && (tget {} d.mesh.table target).state != 1) then giveResult x 2 target [] d
    else if 512 ≤ (d.mesh.queue.filter fun y => y.job.isNone).length then
      (giveResult x 5 target [] d).withMesh fun m => { m with queueFull := true }
    else d.withMesh fun m => { m with queue := m.queue ++ [x] }

def execMeshSubmission (tag : Nat) (payload : Bytes) (s : State) : Out :=
  onMesh (fun d => d.when d.running (meshSubmission tag payload)) s

/-- SUBMISSION_DEADLINE: not sent by its deadline, result 4. -/
def submissionDeadline (tag : Nat) (d : Dev) : Dev :=
  match d.mesh.queue.find? fun x => x.job.isNone && x.tag == tag && !x.sent && decide (x.deadline < d.now) with
  | some x => dropQueued x.key (dropSubm x.key (giveResult x 4 x.target [] d))
  | none => d

def execSubmissionDeadline (tag : Nat) (s : State) : Out := onMesh (submissionDeadline tag) s

/-! ## Serving the queue and sending (16 R475, R476, R479) -/

/-- Change an entry of the queue. -/
def Dev.entry (k : Nat) (f : SubmRec → SubmRec) (d : Dev) : Dev :=
  d.withMesh fun m => { m with queue := m.queue.map fun y => if y.key == k then f y else y }

/-- Mark an entry as handed to the lanes. -/
def markPlaced (k : Nat) (d : Dev) : Dev := d.entry k fun y => { y with placed := true }

/-- One unicast frame of an entry to an endpoint. -/
def placeTo (x : SubmRec) (a : Nat) (e : EndRec) (d : Dev) : Dev :=
  let ty := if x.piece then 0x02 else 0x01
  queueFrame e.lane x.bulk x.prio false (some x.key)
    { ty := ty, hopSrc := 0, hopDst := e.first, far := a, up := false, ack := !x.bulk, payload := x.frame } d

/-- Whether a queued frame of an entry is still to be sent on any lane. -/
def Dev.stillQueued (d : Dev) (k : Nat) : Bool :=
  (List.range 3).any fun l => ((d.lane l).ctlQ.any fun x => x.tag == some k) || ((d.lane l).bulkQ ++ (d.lane l).burst).any fun x => x.tag == some k

/-- Hand an entry to the lanes. -/
def placeSubm (x : SubmRec) (d : Dev) : Dev :=
  if x.kind = 0 then
    match tfind d.mesh.table x.target with
    | some e => if e.state = 1 then markPlaced x.key (placeTo x x.target e d) else dropSubm x.key (giveResult x 2 x.target [] d)
    | none => dropSubm x.key (giveResult x 2 x.target [] d)
  else
    let d := if x.kind = 2 && x.prio = 0 && !x.bulk then floodNew false 0 (some x.key) 0x18 x.frame d
      else (d.inGroups (if x.kind = 2 then 0 else x.target)).foldl (fun d y => placeTo x y.1 y.2 d) d
    if d.stillQueued x.key then markPlaced x.key d else dropSubm x.key (giveResult x 1 x.target [] d)

/-- Entries of a class that the lane may serve, in the order of their priorities; a submission only up to its deadline (16 R481). -/
def Dev.servable (d : Dev) (l : Nat) (bulk : Bool) : List SubmRec :=
  sortBy (fun a b => decide (a.prio ≤ b.prio)) (d.mesh.queue.filter fun x =>
    !x.placed && x.bulk == bulk && (x.job.isSome || decide (d.now ≤ x.deadline)) && (x.kind != 0 || (tget {} d.mesh.table x.target).lane == l || (tget {} d.mesh.table x.target).state != 1))

/-- Sendings of the last 600 s. -/
def Dev.recent (d : Dev) (r : LaneRec) : List (Nat × Nat × Nat) := r.sent.filter fun x => decide (d.now < x.1 + 600 * 32000)

/-- Whether `w` more windows of originated traffic stay within 10 % of the windows of 600 s (16 R476). -/
def Dev.ownRoom (d : Dev) (l w : Nat) : Bool :=
  d.meshRole != 1 || decide (sumN ((d.recent (d.lane l)).map fun x => x.2.1) + w ≤ 120 * d.laneHz l)

/-- Whether `w` more windows of priority 4 stay within 20 % of the windows of 600 s at the collector (16 R479, log entry 26). -/
def Dev.lowRoom (d : Dev) (l w : Nat) : Bool :=
  d.meshRole != 2 || decide (sumN ((d.recent (d.lane l)).map fun x => x.2.2) + w ≤ 240 * d.laneHz l)

/-- Whether lane `l` may send at all. -/
def Dev.mayTransmit (d : Dev) (l : Nat) : Bool :=
  d.running && d.laneState l == 2 && !d.sendingStopped && !(d.meshRole == 1 && d.mesh.mapsBad)

/-- The first entry of least priority that may go. -/
def pickCtl (ok : CtlTx → Bool) : List CtlTx → Option CtlTx
  | [] => none
  | x :: r =>
    match pickCtl ok r with
    | some y => if ok x && decide (x.prio ≤ y.prio) then some x else some y
    | none => if ok x then some x else none

/-- The control frame that a lane sends next: at the collector of the least priority that waits, in strict order, so that one in backoff
holds back those of less urgency (16 R479); at a node any whose backoff has run out. -/
def Dev.nextCtl (d : Dev) (l : Nat) : Option CtlTx :=
  let may := fun (x : CtlTx) => !x.own || d.ownRoom l (d.controlWindows l)
  let q := (d.lane l).ctlQ.filter may
  let top := (q.map CtlTx.prio).foldl min 4
  pickCtl (fun x => x.wait == 0 && (d.meshRole != 2 || x.prio == top)) q

/-- What a transmission on lane `l` of an entry's frame means for it: a group's, a broadcast's and image pieces' last one gives result 1. -/
def noteSent (l k : Nat) (d : Dev) : Dev :=
  match d.mesh.queue.find? fun x => x.key == k with
  | some x =>
    if (x.kind != 0 || x.piece) && !d.stillQueued k then dropSubm k (giveResult x 1 x.target [] d)
    else d.entry k fun y => { y with sent := true, lane := l, since := (d.lane l).passed }
  | none => d

/-- CONTROL_FRAME_TRANSMIT on lane `l`: the entry of least priority whose backoff has run out. -/
def controlTransmit (l : Nat) (d : Dev) : Dev :=
  d.when (d.mayTransmit l && (d.lane l).txBits == [] && (d.lane l).flight.isNone && (d.lane l).controlFree) fun d =>
    let d := match d.servable l false with
      | x :: _ => placeSubm x d
      | [] => d
    let w := d.controlWindows l
    let r := d.lane l
    match d.nextCtl l with
    | none => d
    | some x =>
      let d := d.setLane l { r with
        ctlQ := r.ctlQ.erase x, flight := some { x with tries := x.tries + 1 }, txBits := controlBits x.data, txFresh := true
        sent := (d.now, if x.own then w else 0, 0) :: d.recent r }
      let d := d.setBitO (laneIx l) 0x10 2 true
      match x.tag with
      | some k => noteSent l k d
      | none => d

def execControlFrameTransmit (l : Fin 3) (s : State) : Out := onMesh (controlTransmit l) s

/-- BULK_QUEUE_FLUSH on lane `l`: 8 frames, or 30 s. -/
def bulkFlush (l : Nat) (d : Dev) : Dev :=
  d.when d.running fun d =>
    let d := (d.servable l true).foldl (fun d x => placeSubm x d) d
    let r := d.lane l
    let old := match r.bulkQ with
      | x :: _ => decide (x.at' + 30 * 32000 ≤ d.now)
      | [] => false
    d.when (r.burst == [] && (decide (8 ≤ r.bulkQ.length) || old)) fun d =>
      let z := d.fresh 16
      z.2.setLane l { z.2.lane l with burst := sortBy (fun a b => decide (a.prio ≤ b.prio)) r.bulkQ, bulkQ := [], burstWait := z.1 }

def execBulkQueueFlush (l : Fin 3) (s : State) : Out := onMesh (bulkFlush l) s

/-- The windows of a burst of frames over `rows` rows, and of them those of the frames that `f` names, by their share of the bytes
(16 R480). -/
def burstWindows (rows : Nat) (f : BulkTx → Bool) (b : List BulkTx) : Nat × Nat :=
  let len := fun (b : List BulkTx) => sumN (b.map fun x => x.frame.length)
  let room := 223 * rows - 4
  let w := 256 * ((len b + room - 1) / max 1 room)
  (w, (w * len (b.filter f) + len b - 1) / max 1 (len b))

/-- The frames of a burst that lane `l` may send, in their order: none beyond the share of what the node originates, and none beyond that of
priority 4 (16 R476, R479). -/
def Dev.goBurst (d : Dev) (l rows : Nat) (b : List BulkTx) : List BulkTx :=
  b.foldl (fun go x =>
    let c := go ++ [x]
    if (!x.own || d.ownRoom l (burstWindows rows BulkTx.own c).2) && (x.prio != 4 || d.lowRoom l (burstWindows rows (fun x => x.prio == 4) c).2) then c
    else go) []

/-- BULK_BURST_TRANSMIT on lane `l`: the frames of the burst in blocks back to back; frames past their share wait. -/
def bulkTransmit (l : Nat) (d : Dev) : Dev :=
  let r := d.lane l
  d.when (d.mayTransmit l && r.burst != [] && r.burstWait == 0 && r.txBulk == [] && r.bulkFree) fun d =>
    let rows := classBits (d.map l 0) true / 8
    let go := d.goBurst l rows r.burst
    let fs := go.map fun x => x.frame
    let stream := fs.flatten
    if go = [] || rows = 0 then d
    else
      let blocks := burstBlocks (stream.length + 1) (223 * rows) 0 stream (frameStarts 0 fs)
      let d := d.setLane l { r with
        burst := [], bulkQ := go.foldl (fun b x => b.erase x) r.burst ++ r.bulkQ, txBulk := blocks.flatMap (blockWindows rows)
        bulkFresh := true
        sent := (d.now, (burstWindows rows BulkTx.own go).2, (burstWindows rows (fun x => x.prio == 4) go).2) :: d.recent r }
      (go.filterMap fun x => x.tag).foldl (fun d k => noteSent l k d) (d.setBitO (laneIx l) 0x10 2 true)

def execBulkBurstTransmit (l : Fin 3) (s : State) : Out := onMesh (bulkTransmit l) s

/-- A control frame whose acknowledgement has not come in 100 windows: again after a fresh backoff, three times in all. -/
def ackLate (l : Nat) (x : CtlTx) (d : Dev) : Dev :=
  let r := d.lane l
  let d := d.setLane l { r with await := r.await.erase x }
  if x.tries < 3 then
    let z := d.fresh (if d.meshRole = 2 && x.prio = 0 then 1 else 2 ^ min 6 (2 + x.tries))
    z.2.setLane l { z.2.lane l with ctlQ := (z.2.lane l).ctlQ ++ [{ x with wait := z.1, since := 0 }] }
  else
    match x.tag with
    | some k => exchangeFailed k d
    | none => d

/-- ACKNOWLEDGEMENT_TIMEOUT (16 R473, R475). -/
def ackTimeout (d : Dev) : Dev :=
  each 3 (fun l d => ((d.lane l).await.filter fun x => decide (100 ≤ x.since)).foldl (fun d x => ackLate l x d) d) d

def execAcknowledgementTimeout (s : State) : Out := onMesh ackTimeout s

end Sys2Proof.Machine
end

