-- ==== Sys2Proof/Machine/Tags.lean ====
section
/-! DEFINITION. The tag reader: channels and antennas, cards of ISO/IEC 14443, and the Blucheand protocol (chapter 17). -/
namespace Sys2Proof.Machine

/-- The object of reader channel `c`. -/
def readerIx (c : Nat) : Nat := 0x7C01 + c
/-- The record of reader channel `c`. -/
def Dev.reader (d : Dev) (c : Nat) : ReaderRec := tget {} d.readers c
/-- The part with the record of reader channel `c` set. -/
def Dev.setReader (d : Dev) (c : Nat) (r : ReaderRec) : Dev := { d with readers := tset d.readers c r }

/-- Show a channel in its status (17 R512). -/
def readerShow (c : Nat) (d : Dev) : Dev :=
  let r := d.reader c
  let sec := match r.sess with
    | some x => x.stage == 3 || x.stage == 4
    | none => false
  d.set (readerIx c) 0x10 (r.antenna % 8 + 8 * b2n (r.phase != 0) + 16 * b2n (r.phase == 2) + 32 * b2n r.wr.isSome + 64 * b2n sec
    + 128 * b2n d.supply.hold)

/-- A command of reader channel `c`: its effect where ticks run, then what its status shows. -/
def onReader (c : Nat) (f : Dev → Dev) (s : State) : Out := onDev (fun d => d.when d.running fun d => readerShow c (f d)) s

/-! ## Frames of a reader (17 R496) -/

/-- One step of the CRC-16 over bits in the order sent. -/
def tagCrcBit (c : Nat) (b : Bool) : Nat := if c.testBit 15 != b then (c * 2 % 65536) ^^^ 0x1021 else c * 2 % 65536
/-- The CRC-16 of bits in the order sent. -/
def tagCrc (b : List Bool) : Nat := b.foldl tagCrcBit 0xFFFF
/-- The bits of a reader frame between SOF and EOF: command, fields and CRC. -/
def tagFrame (b : List Bool) : List Bool := b ++ bitsLE (natLE 2 (tagCrc b))
/-- Put frames out on channel `c`, in their order. -/
def airSend (c : Nat) (fs : List (List Bool)) (d : Dev) : Dev :=
  d.setReader c { d.reader c with tx := fs.foldl (fun t f => push 256 f t) (d.reader c).tx }
/-- Send a frame of bytes to the tags of channel `c`. -/
def tagSend (c : Nat) (b : Bytes) (d : Dev) : Dev := airSend c [tagFrame (bitsLE b)] d

/-! ## Anticollision (17 R501, R502) -/

/-- The bits of an identifier in the order sent. -/
def identBits (i : Nat) : List Bool := (List.range 64).map i.testBit
/-- The identifier of bits in the order sent. -/
def bitsIdent (b : List Bool) : Nat := b.foldr (fun x n => b2n x + 2 * n) 0

/-- The first position at which identifiers of a list differ. -/
def firstClash (l : List (List Bool)) : Nat → Nat → Option Nat
  | 0, _ => none
  | f + 1, k =>
    let xs := l.map fun b => b.getD k false
    if xs.any id && !(xs.all id) then some k else firstClash l f (k + 1)

/-- The MASK frame of a prefix: the code, its length and its bits (17 R500). -/
def maskFrame (pfx : List Bool) : List Bool := tagFrame (bitsLE [0x02#8, BitVec.ofNat 8 pfx.length] ++ pfx)

/-- The answer of a Ready tag to a MASK of `n` bits: bits `n` to 63 of I, the flags byte, and the CRC over all of I and the flags (17 R501). -/
def maskAnswer (n : Nat) (t : TagSeen) : List Bool :=
  let b := identBits t.ident ++ bitsLE (natLE 1 t.flags)
  b.drop n ++ bitsLE (natLE 2 (tagCrc b))

/-- Whether answers to MASK that show no collision in I are received as one whose CRC holds for the prefix: a collision in the flags or
the CRC leaves neither (17 R502). -/
def crcHolds (pfx : List Bool) (answers : List (List Bool)) : Bool :=
  let x := answers.headD []
  let n := x.length - 16
  answers.all (fun y => y == x) && x.drop n == bitsLE (natLE 2 (tagCrc (pfx ++ x.take n)))

/-- The loop of R502 over the tags in Ready, at most `f` rounds: the frames sent and the tags recorded, in their order. -/
def resolveTags : Nat → List TagSeen → List (List Bool) → List (List Bool) × List TagSeen
  | 0, _, _ => ([], [])
  | _ + 1, _, [] => ([], [])
  | f + 1, ts, pfx :: stack =>
    let hit := ts.filter fun t => (identBits t.ident).take pfx.length == pfx
    match hit with
    | [] => let z := resolveTags f ts stack
            (maskFrame pfx :: z.1, z.2)
    | t :: _ =>
      match firstClash (hit.map fun t => identBits t.ident) (64 - pfx.length) pfx.length with
      | none =>
        let z := resolveTags f ts stack
        if crcHolds pfx (hit.map fun t => maskAnswer pfx.length t) then (maskFrame pfx :: z.1, t :: z.2)
        else (maskFrame pfx :: maskFrame pfx :: z.1, z.2)
      | some k =>
        let x := (identBits t.ident).take k
        let z := resolveTags f ts ((x ++ [false]) :: (x ++ [true]) :: stack)
        (maskFrame pfx :: z.1, z.2)

/-! ## Cards of ISO/IEC 14443-3 (17 R494) -/

/-- One step of the CRC of ISO/IEC 14443-3 over a bit. -/
def cardCrcBit (c : Nat) (b : Bool) : Nat := if c.testBit 0 != b then (c / 2) ^^^ 0x8408 else c / 2
/-- CRC_A of bytes, and CRC_B. -/
def crcA (b : Bytes) : Nat := (bitsLE b).foldl cardCrcBit 0x6363
def crcB (b : Bytes) : Nat := 0xFFFF - (bitsLE b).foldl cardCrcBit 0xFFFF

/-- The bits of a byte with its odd parity. -/
def oddByte (x : Byte) : List Bool :=
  let b := bitsLE [x]
  b ++ [(b.filter id).length % 2 == 0]
/-- A Type A frame of bytes, each with its parity, without and with CRC_A. -/
def frameA (b : Bytes) : List Bool := b.flatMap oddByte
def frameCrcA (b : Bytes) : List Bool := frameA (b ++ natLE 2 (crcA b))
/-- A Type B frame with CRC_B. -/
def frameCrcB (b : Bytes) : List Bool := bitsLE (b ++ natLE 2 (crcB b))
/-- A frame with the CRC and the parity that the part adds for the type of a card (17 R495). -/
def cardBits (ty : Nat) (b : Bytes) : List Bool := if ty = 2 then frameCrcB b else frameCrcA b

/-- REQA and WUPA, of 7 bits. -/
def reqA : List Bool := (bitsLE [0x26#8]).take 7
/-- HLTA and HLTB. -/
def hltA : List Bool := frameCrcA [0x50#8, 0#8]
def hltB (pupi : Bytes) : List Bool := frameCrcB ([0x50#8] ++ padTo 4 pupi)
/-- REQB with AFI 0x00 and 2^k slots. -/
def reqB (k : Nat) : List Bool := frameCrcB [0x05#8, 0#8, BitVec.ofNat 8 k]
/-- Slot-MARKER of slot `s`, from 2 on. -/
def slotMarker (s : Nat) : List Bool := frameCrcB [BitVec.ofNat 8 (16 * (s - 1) + 5)]

/-- Cascade levels of a UID of 4, 7 or 10 bytes. -/
def uidLevels (u : Bytes) : Nat := if u.length ≤ 4 then 1 else if u.length ≤ 7 then 2 else 3
/-- The 5 bytes of a cascade level: 4 of the UID, or the cascade tag and 3, then their exclusive or. -/
def uidPart (u : Bytes) (lvl : Nat) : Bytes :=
  let b := if lvl + 1 < uidLevels u then [0x88#8] ++ sliceB u (3 * lvl) 3 else sliceB u (3 * lvl) 4
  b ++ [b.foldl (fun x y => x ^^^ y) 0#8]
/-- The select code of a cascade level. -/
def selCode (lvl : Nat) : Byte := BitVec.ofNat 8 (0x93 + 2 * lvl)

/-- An anticollision frame: the select code, NVB, and the bits known; whole bytes carry their parity. -/
def anticollision (lvl : Nat) (known : List Bool) : List Bool :=
  let n := known.length
  let whole := (List.range (n / 8)).map fun i => BitVec.ofNat 8 (maskOf ((known.drop (8 * i)).take 8))
  frameA ([selCode lvl, BitVec.ofNat 8 (16 * (2 + n / 8) + n % 8)] ++ whole) ++ known.drop (8 * (n / 8))

/-- The bit-oriented loop of a level over the cards that answer: at a collision the branch 1 is tried (log entry 116). The frames, the cards
left, and whether any collision was seen. -/
def levelLoop (lvl : Nat) : Nat → List Bool → List CardSeen → List (List Bool) × List CardSeen × Bool
  | 0, _, cs => ([], cs, false)
  | f + 1, known, cs =>
    let part := fun (c : CardSeen) => bitsLE (uidPart c.ident lvl)
    match firstClash (cs.map part) (40 - known.length) known.length with
    | none => ([anticollision lvl known], cs, false)
    | some k =>
      let known' := ((part (cs.headD ⟨[], [], []⟩)).take k) ++ [true]
      let z := levelLoop lvl f known' (cs.filter fun c => (part c).take (k + 1) == known')
      (anticollision lvl known :: z.1, z.2.1, true)

/-- Anticollision and SELECT over the cascade levels: the frames, the card selected, and whether a collision was seen. -/
def selectA : Nat → Nat → List CardSeen → List (List Bool) × Option CardSeen × Bool
  | 0, _, cs => ([], cs.head?, false)
  | f + 1, lvl, cs =>
    match cs with
    | [] => ([], none, false)
    | _ =>
      let z := levelLoop lvl 41 [] cs
      match z.2.1 with
      | [] => (z.1, none, z.2.2)
      | c :: _ =>
        let p := uidPart c.ident lvl
        let fs := z.1 ++ [frameCrcA ([selCode lvl, 0x70#8] ++ p)]
        if lvl + 1 < uidLevels c.ident then
          let y := selectA f (lvl + 1) z.2.1
          (fs ++ y.1, y.2.1, z.2.2 || y.2.2)
        else (fs, some c, z.2.2)

/-- The Type A poll: REQA, a card selected, and where collisions have shown that it is not alone, HLTA and the poll again (log entry 116).
The frames and the cards, in the order in which they are selected. -/
def pollA : Nat → List CardSeen → List (List Bool) × List CardSeen
  | 0, _ => ([reqA], [])
  | f + 1, cs =>
    match selectA 3 0 cs with
    | (_, none, _) => ([reqA], [])
    | (fs, some c, shared) =>
      if shared then
        let z := pollA f (cs.filter fun y => y.ident != c.ident)
        (reqA :: fs ++ hltA :: z.1, c :: z.2)
      else (reqA :: fs, [c])

/-- The Type B poll from a round of 2^k slots: REQB, the Slot-MARKERs, and after a round with a collision HLTB to what was found and a round of
twice the slots, up to 16; the rest is found at the next visit (log entry 116). -/
def pollB : Nat → Nat → List CardSeen → List (List Bool) × List CardSeen
  | 0, _, _ => ([], [])
  | f + 1, k, cs =>
    let n := 2 ^ k
    let inSlot := fun (s : Nat) => cs.filter fun c => c.slots.getD k 0 % n == s
    let found := (List.range n).flatMap fun s => if (inSlot s).length = 1 then inSlot s else []
    let clash := (List.range n).any fun s => decide (2 ≤ (inSlot s).length)
    let fs := reqB k :: (List.range (n - 1)).map fun s => slotMarker (s + 2)
    if clash && k < 4 then
      let z := pollB f (k + 1) (cs.filter fun c => !found.contains c)
      (fs ++ (found.map fun c => hltB c.ident) ++ z.1, found ++ z.2)
    else (fs, found)

/-! ## Reports to the host (19 R553) -/

/-- A type 0x63 record: an event of a tag. -/
def tagReport (c ev profile ident : Nat) (fleet : Bytes) (d : Dev) : Dev :=
  d.stream 6 ⟨0x63, c + 4 * ((d.reader c).antenna % 8), natLE 1 ev ++ natLE 1 profile ++ natLE 8 ident ++ fleet⟩

/-- Show the latest identifier (17 R511) and count a detection. -/
def noteIdent (c kind : Nat) (b : Bytes) (d : Dev) : Dev :=
  (d.setB (readerIx c) 0x16 (natLE 1 kind ++ natLE 1 (min 16 b.length) ++ b.take 16)).satInc 32 (readerIx c) 0x11 1

/-- A type 0x65 record: the outcome of a write; a refusal by the tag carries its status after it (log entry 27). -/
def writeReport (x : TagWrite) (outcome : Nat) (more : Bytes) (d : Dev) : Dev :=
  d.stream 6 ⟨0x65, x.tag, natLE 8 x.ident ++ natLE 2 x.w ++ natLE 1 outcome ++ more⟩

/-- The number of writes awaiting their confirm. -/
def showUnresolved (d : Dev) : Dev := d.set 0x7C00 2 (min 64 d.unresolved.length)

/-- The field collapses during a write (17 R508). -/
def collapseWrite (c : Nat) (d : Dev) : Dev :=
  let r := d.reader c
  match r.wr with
  | none => d
  | some x =>
    let d := d.setReader c { r with wr := none }
    if x.step < 3 then writeReport x 1 [] d
    else
      let d := ((writeReport x (if x.step = 3 then 2 else 3) [] d).raiseEv 106).satInc 32 (readerIx c) 0x15 1
      showUnresolved { d with unresolved := (d.unresolved ++ [{ x with until' := d.now + 32000 * d.get 0x7C00 1 }]).take 64 }

/-- Switch the field of channel `c` off: a write collapses, cards and tags are gone. -/
def fieldOff (c : Nat) (d : Dev) : Dev :=
  let d := collapseWrite c d
  let r := d.reader c
  d.setReader c { r with phase := 0, since := d.now, cards := [], queue := [], sess := none, ignored := [], drain := none, tx := [] }

/-- Whether channel `c` holds a card or a tag, or works with tags. -/
def ReaderRec.holds (r : ReaderRec) : Bool := r.cards != [] || r.sess.isSome || r.queue != [] || r.wr.isSome

/-- The field goes off where the channel holds nothing any more. -/
def offIfIdle (c : Nat) (d : Dev) : Dev := d.when (!(d.reader c).holds) (fieldOff c)

/-- Select the next tag recorded: SELECT, flags, EV104, the report (17 R502). -/
def selectNext (c : Nat) (d : Dev) : Dev :=
  let r := d.reader c
  match r.queue with
  | [] => d.setReader c { r with sess := none }
  | (i, fl, top) :: rest =>
    let d := d.setReader c { r with queue := rest, sess := some { ident := i, flags := fl, top := top } }
    let d := (noteIdent c 2 (natLE 8 i) (tagSend c (natLE 1 0x03 ++ natLE 8 i) d)).raiseEv 104
    tagReport c 0 (fl % 4) i [] d

/-! ## AES-128-CCM (17 R506) -/

/-- The nonce: direction, message counter, Rr. -/
def ccmNonce (dir ctr : Nat) (rr : Bytes) : Bytes := natLE 1 dir ++ natLE 4 ctr ++ padTo 8 rr

/-- The CBC-MAC chain over blocks. -/
def ccmChain (k : Bytes) : Nat → Bytes → Bytes → Bytes
  | 0, t, _ => t
  | n + 1, t, b => ccmChain k n (aesBlock k (xorB t (padTo 16 b))) (b.drop 16)

/-- Key stream block `i`. -/
def ccmStream (k nonce : Bytes) (i : Nat) : Bytes := aesBlock k ([0x01#8] ++ nonce ++ natBE 2 i)

/-- The message under the key stream from block 1 on. -/
def ccmCrypt (k nonce m : Bytes) : Bytes :=
  xorB m ((List.range (m.length / 16 + 1)).flatMap fun i => ccmStream k nonce (i + 1))

/-- The 8-byte MIC of associated data of one byte and a clear message. -/
def ccmMic (k nonce : Bytes) (ad : Byte) (m : Bytes) : Bytes :=
  let b0 := [0x59#8] ++ nonce ++ natBE 2 m.length
  let t := ccmChain k (2 + (m.length + 15) / 16) (zeros 16) (b0 ++ padTo 16 ([0#8, 1#8, ad]) ++ m)
  xorB (t.take 8) (ccmStream k nonce 0)

/-- A command and its fields as a Secured tag of the session is sent them. -/
def secure (x : TagSess) (cmd : Nat) (fields : Bytes) : Bytes :=
  if x.flags % 4 = 1 then
    let n := ccmNonce 0 x.sentNo x.rr
    natLE 1 cmd ++ ccmCrypt x.ks n fields ++ ccmMic x.ks n (BitVec.ofNat 8 cmd) fields
  else natLE 1 cmd ++ fields

/-- The fields of an answer of a Secured tag, none where its MIC fails. -/
def unsecure (x : TagSess) (st : Nat) (b : Bytes) : Option Bytes :=
  if x.flags % 4 = 1 then
    let n := ccmNonce 1 x.gotNo x.rr
    let m := ccmCrypt x.ks n (b.take (b.length - 8))
    if 8 ≤ b.length && ccmMic x.ks n (BitVec.ofNat 8 st) m == b.drop (b.length - 8) then some m else none
  else some b

/-! ## Ends of a session -/

/-- HALT to the Selected tag, protected where it is Secured (17 R506), and the next one. -/
def tagHalt (c : Nat) (d : Dev) : Dev :=
  selectNext c (tagSend c (match (d.reader c).sess with
    | some x => if x.stage = 3 || x.stage = 4 then secure x 0x04 [] else [0x04#8]
    | none => [0x04#8]) d)

/-- A failed unlock, authentication or MIC: EV107 and the count. -/
def authFailed (c : Nat) (d : Dev) : Dev :=
  let d := (d.raiseEv 107).satInc 32 (readerIx c) 0x14 1
  match (d.reader c).sess with
  | some x => tagReport c 2 (x.flags % 4) x.ident [] d
  | none => d

/-- Poll the Blucheand tags: BEGIN, the loop over those in Ready, then the first of them selected; an ignored I is passed over (17 R503). -/
def pollTags (c : Nat) (tags : List TagSeen) (d : Dev) : Dev :=
  let z := resolveTags 128 tags [[]]
  let d := airSend c (tagFrame (bitsLE [0x01#8]) :: z.1) d
  let r := d.reader c
  selectNext c (d.setReader c { r with queue := (z.2.filter fun t => !r.ignored.contains t.ident).map fun t => (t.ident, t.flags, t.top) })

/-! ## Antennas (17 R491, R492) -/

/-- Whether antenna `a` of channel `c` is enabled and has no fault. -/
def Dev.antennaOn (d : Dev) (c a : Nat) : Bool := d.bitO (readerIx c) 2 a && !d.bitO (readerIx c) 0x12 a

/-- The next antenna in ascending order after the latest. -/
def Dev.nextAntenna (d : Dev) (c : Nat) : Option Nat :=
  ((List.range 8).map fun i => ((d.reader c).next + i) % 8).find? fun a => d.antennaOn c a

/-- Whether a drive current is an antenna fault. -/
def antennaBad (learnt i : Nat) : Bool := decide (100 * i < 20 * learnt ∨ 150 * learnt < 100 * i)

/-- A detection record of a card (17 R495). -/
def cardFound (c ty : Nat) (x : CardSeen) (d : Dev) : Dev :=
  let r := d.reader c
  let d := noteIdent c 1 x.ident (d.setReader c { r with cards := r.cards ++ [{ ty := ty, ident := x.ident }] })
  d.stream 6 ⟨0x60, c + 4 * (r.antenna % 8), natLE 1 ty ++ natLE 1 x.ident.length ++ x.ident ++ x.info⟩

/-- Antenna `a` of channel `c` shows a drive current out of band: it is switched off and skipped (17 R492). -/
def antennaFault (c a : Nat) (d : Dev) : Dev := (d.setBitO (readerIx c) 0x12 a true).raiseEv 109

/-- Poll one card technology: its frames, and what it finds. -/
def pollCards (c ty : Nat) (z : List (List Bool) × List CardSeen) (d : Dev) : Dev := z.2.foldl (fun d y => cardFound c ty y d) (airSend c z.1 d)

/-- ANTENNA_VISIT: the next antenna's field comes on, and after 5 ms each enabled technology is polled. -/
def antennaVisit (c : Nat) (x : VisitSeen) (d : Dev) : Dev :=
  let r := d.reader c
  d.when (d.drives && d.get (readerIx c) 1 == 1 && r.phase == 0 && !d.supply.hold && !d.pausing 1 && r.drain.isNone && decide (r.since + 32 ≤ d.now)) fun d =>
    match d.nextAntenna c with
    | none => d
    | some a =>
      let learnt := match tfind r.learnt a with
        | some v => v
        | none => x.current
      let r := { r with
        antenna := a, next := (a + 1) % 8, since := d.now, learnt := tset r.learnt a learnt, ignored := []
        power := d.get (readerIx c) 4, dwell := d.get (readerIx c) 5
        groupS := d.get (readerIx c) 6, groupL := d.get (readerIx c) 7 }
      if antennaBad learnt x.current then antennaFault c a (d.setReader c r)
      else
        let tech := d.get (readerIx c) 3
        let d := d.setReader c { r with phase := 1, checkAt := d.now }
        let d := d.when (tech.testBit 0) (pollCards c 1 (pollA (x.cardsA.length + 1) x.cardsA))
        let d := d.when (tech.testBit 1) (pollCards c 2 (pollB 5 0 x.cardsB))
        let d := if tech.testBit 2 then pollTags c x.tags d else d
        let r := d.reader c
        d.setReader c { r with phase := if r.cards != [] || r.sess.isSome then 2 else 1 }

def execAntennaVisit (c : Fin 4) (x : VisitSeen) (s : State) : Out := onReader c (antennaVisit c x) s

/-- DWELL_EXPIRY: with nothing found the field goes off. -/
def execDwellExpiry (c : Fin 4) (s : State) : Out :=
  onReader c (fun d => d.when ((d.reader c).phase == 1 && decide ((d.reader c).since + 32 * (d.reader c).dwell ≤ d.now)) (fieldOff c)) s

/-- A held card is gone: EV105 and its record, which also ends an exchange that waits for it. -/
def cardLost (c : Nat) (x : HeldCard) (d : Dev) : Dev :=
  let r := d.reader c
  let d := d.setReader c { r with cards := r.cards.erase x, exch := if r.cards.getLast? = some x then none else r.exch }
  (d.stream 6 ⟨0x62, c, [4#8]⟩).raiseEv 105

/-- PRESENCE_CHECK every 100 ms: a REQ to the cards held, and to the tag the MASK of its whole identifier; `answered` says for each card held, and
then for the tag, whether it answers. What does not is gone, and with nothing left the channel moves on (17 R491). -/
def presenceCheck (c : Nat) (answered : List Bool) (d : Dev) : Dev :=
  let r := d.reader c
  d.when (r.phase == 2 && r.wr.isNone && decide (r.checkAt + 3200 ≤ d.now)) fun d =>
    let req := (if r.cards.any fun x => x.ty == 1 then [reqA] else []) ++ (if r.cards.any fun x => x.ty == 2 then [reqB 0] else [])
      ++ (match r.sess with
        | some x => [maskFrame (identBits x.ident)]
        | none => [])
    let d := (airSend c req d).setReader c { (airSend c req d).reader c with checkAt := d.now }
    let gone := ((List.range r.cards.length).filter fun i => !answered.getD i false).map fun i => r.cards.getD i {}
    let d := gone.foldl (fun d x => cardLost c x d) d
    let d := d.when (r.sess.isSome && !answered.getD r.cards.length false) fun d => selectNext c (d.raiseEv 105)
    let d := d.when (!r.holds) fun d => d.raiseEv 105
    offIfIdle c d

def execPresenceCheck (c : Fin 4) (answered : List Bool) (s : State) : Out := onReader c (presenceCheck c answered) s

/-! ## Cards (17 R495) -/

/-- A type 0x62 record. -/
def cardRecord62 (c : Nat) (res : Bytes) (d : Dev) : Dev := d.stream 6 ⟨0x62, c, res⟩

/-- Hand a frame of the host to the card held, with the CRC and parity of its type, and wait for its answer. -/
def cardSend (c wait : Nat) (frame : Bytes) (d : Dev) : Dev :=
  let r := d.reader c
  match r.cards.getLast? with
  | none => cardRecord62 c [4#8] d
  | some x => airSend c [cardBits x.ty frame] (d.setReader c { r with exch := some (frame, d.now + 32 * wait) })

/-- The result of an answer; a timeout has none before its time. -/
def cardResult : CardAnswer → Option Bytes
  | .frame b => some (0#8 :: b)
  | .timeout => none
  | .crcError => some [2#8]
  | .parityError => some [3#8]

/-- The answer of the card to the frame that waits. -/
def cardAnswer (c : Nat) (a : CardAnswer) (d : Dev) : Dev :=
  let r := d.reader c
  match r.exch, cardResult a with
  | some x, some b => d.when (decide (d.now ≤ x.2)) fun d => cardRecord62 c b (d.setReader c { r with exch := none })
  | _, _ => d

/-- The waiting time of a frame has run out: a timeout (17 R495). -/
def exchTimeout (c : Nat) (d : Dev) : Dev :=
  let r := d.reader c
  match r.exch with
  | some x => d.when (decide (x.2 < d.now)) fun d => cardRecord62 c [1#8] (d.setReader c { r with exch := none })
  | none => d

/-- The host releases the cards: the channel moves on once it works with nothing else (17 R495, R507). -/
def cardRelease (c : Nat) (d : Dev) : Dev :=
  let r := d.reader c
  d.when (r.cards != []) fun d => offIfIdle c (d.setReader c { r with cards := [], exch := none })

def execCardRelease (c : Fin 4) (s : State) : Out := onReader c (cardRelease c) s

/-! ## Link states (17 R499, R503) -/

/-- REDRAW for the identifier of two profile S tags, and the loop again from BEGIN over the tags that are Ready then. -/
def redraw (c : Nat) (tags : List TagSeen) (d : Dev) : Dev :=
  match (d.reader c).sess with
  | some x => d.when (x.stage == 5) fun d => pollTags c tags (tagSend c (natLE 1 0x05 ++ natLE 8 x.ident) d)
  | none => d

def execRedraw (c : Fin 4) (tags : List TagSeen) (s : State) : Out := onReader c (redraw c tags) s

/-- An answer of the Selected tag that shows a collision: two tags of one identifier. A write in flight ends as in a collapse of the field. -/
def tagClash (c : Nat) (x : TagSess) (d : Dev) : Dev :=
  let d := collapseWrite c d
  let r := d.reader c
  if x.flags % 4 = 0 then d.setReader c { r with sess := some { x with stage := 5 } }
  else
    let d := (d.raiseEv 108).satInc 32 (readerIx c) 0x13 1
    let d := tagReport c 3 1 x.ident [] (tagReport c 3 1 x.ident [] d)
    tagHalt c (d.setReader c { d.reader c with ignored := x.ident :: r.ignored })

/-- What a command to the Selected tag does with its answer, where its session is in stage `st`; a silent tag changes nothing. -/
def withAnswer (c : Nat) (ok : TagSess → Bool) (send : TagSess → Dev → Dev) (got : TagSess → Nat → Bytes → Dev → Dev)
    (a : TagAnswer) (d : Dev) : Dev :=
  match (d.reader c).sess with
  | none => d
  | some x =>
    d.when (ok x) fun d =>
      let d := send x d
      match a with
      | .silent => d
      | .collision => tagClash c x d
      | .reply st b => got x st b d

/-- Put the session of channel `c`. -/
def Dev.setSess (d : Dev) (c : Nat) (x : TagSess) : Dev := d.setReader c { d.reader c with sess := some x }

/-! ## Profile S (17 R504) -/

/-- GET_RANDOM: r. -/
def getRandom (c : Nat) (a : TagAnswer) (d : Dev) : Dev :=
  withAnswer c (fun x => x.stage == 0 && x.flags % 4 == 0 && (d.reader c).groupS != 0xFF)
    (fun _ d => tagSend c [0x10#8] d)
    (fun x st b d => if st = 0 && b.length = 4 then d.setSess c { x with stage := 1, r := b } else tagHalt c (authFailed c d)) a d

def execGetRandom (c : Fin 4) (a : TagAnswer) (s : State) : Out := onReader c (getRandom c a) s

/-- The active key of a Bobbin slot whose usage holds bit `u`. -/
def Dev.slotKey (d : Dev) (slot u : Nat) : Option Bytes :=
  if (d.get (0x2280 + slot) 1).testBit u then d.key slot else none

/-- UNLOCK with P XOR r, once per entry of a tag and once per r: no answer is a failure as well (17 R504). -/
def unlock (c : Nat) (a : TagAnswer) (d : Dev) : Dev :=
  match d.slotKey (40 + (d.reader c).groupS % 8) 1 with
  | none => d
  | some p =>
    withAnswer c (fun x => x.stage == 1) (fun x d => tagSend c (natLE 1 0x11 ++ xorB (padTo 4 p) x.r) d)
      (fun x st _ d => if st = 0 then d.setSess c { x with stage := 3, r := [] } else tagHalt c (authFailed c d))
      (match a with
        | .silent => .reply 0x05 []
        | y => y) d

def execUnlock (c : Fin 4) (a : TagAnswer) (s : State) : Out := onReader c (unlock c a) s

/-! ## Profile L (17 R505) -/

/-- The key of a profile L tag under a master key. -/
def tagKey (km : Bytes) (ident : Nat) : Bytes :=
  aesBlock km (natLE 8 ident ++ xorB (natLE 8 ident) (List.replicate 8 0xFF#8))

/-- AUTH1: Rr out, C1 back. -/
def auth1 (c : Nat) (a : TagAnswer) (d : Dev) : Dev :=
  match d.slotKey (48 + (d.reader c).groupL % 8) 4 with
  | none => d
  | some km =>
    let z := d.freshBytes 8
    let go := (d.reader c).groupL != 0xFF
    withAnswer c (fun x => x.stage == 0 && x.flags % 4 == 1 && go) (fun _ d => tagSend c (natLE 1 0x12 ++ z.1) d)
      (fun x st b d =>
        let kt := tagKey km x.ident
        let m := aesUnblock kt b
        if st = 0 && b.length = 16 && m.drop 8 == z.1 then d.setSess c { x with stage := 2, rr := z.1, rt := m.take 8, kt := kt }
        else tagHalt c (authFailed c d)) a z.2

def execAuth1 (c : Fin 4) (a : TagAnswer) (s : State) : Out := onReader c (auth1 c a) s

/-- AUTH2: C2 out; both sides then hold the session key. -/
def auth2 (c : Nat) (a : TagAnswer) (d : Dev) : Dev :=
  withAnswer c (fun x => x.stage == 2) (fun x d => tagSend c (natLE 1 0x13 ++ aesBlock x.kt (x.rr ++ x.rt)) d)
    (fun x st _ d =>
      if st = 0 then d.setSess c { x with stage := 3, ks := aesBlock x.kt (x.rr ++ x.rt), sentNo := 0, gotNo := 0 }
      else tagHalt c (authFailed c d)) a d

def execAuth2 (c : Fin 4) (a : TagAnswer) (s : State) : Out := onReader c (auth2 c a) s

/-- A command to a Secured tag and its answer: a failed MIC ends the session, and with it a write as a collapse does. -/
def secured (c : Nat) (ok : TagSess → Bool) (cmd : Nat) (fields : Bytes) (got : TagSess → Nat → Bytes → Dev → Dev)
    (a : TagAnswer) (d : Dev) : Dev :=
  withAnswer c (fun x => (x.stage == 3 || x.stage == 4) && ok x)
    (fun x d => tagSend c (secure x cmd fields) (d.setSess c { x with sentNo := x.sentNo + 1 }))
    (fun x st b d =>
      match unsecure x st b with
      | none => selectNext c (collapseWrite c (authFailed c d))
      | some m => got { x with sentNo := x.sentNo + 1, gotNo := x.gotNo + 1 } st m (d.setSess c { x with sentNo := x.sentNo + 1, gotNo := x.gotNo + 1 }))
    a d

/-- Whether a kept write is of the tag of a session. -/
def TagWrite.sameTag (w : TagWrite) (x : TagSess) : Bool :=
  w.profile == x.flags % 4 && (if w.profile = 1 then w.ident == x.ident else x.stage == 4 && w.fleet == x.fleet)

/-- The kept write that a session resolves first, within its re-entry window. -/
def Dev.keptFor (d : Dev) (x : TagSess) : Option TagWrite := d.unresolved.find? fun w => w.sameTag x && decide (d.now < w.until')

/-- HALT to the Selected tag, but not in a write, nor before a kept write of it is resolved (17 R507, R508). -/
def execHalt (c : Fin 4) (s : State) : Out :=
  onReader c (fun d => d.when ((d.reader c).wr.isNone && (match (d.reader c).sess with
    | some x => (d.keptFor x).isNone
    | none => false)) (tagHalt c)) s

/-- READ of 1 to 4 blocks, once a kept write of the tag is resolved (17 R508); the first read of block 0 completes the report that the tag is
Secured. -/
def tagRead (c block count : Nat) (a : TagAnswer) (d : Dev) : Dev :=
  secured c (fun x => (d.reader c).wr.isNone && (d.keptFor x).isNone && decide (1 ≤ count ∧ count ≤ 4)) 0x20 (natLE 1 block ++ natLE 1 count)
    (fun x st b d =>
      if st = 0 && b.length = 16 * count then
        let x := { x with blocks := b }
        if block = 0 && x.stage = 3 then
          tagReport c 1 (x.flags % 4) x.ident (b.take 16) (d.setSess c { x with stage := 4, fleet := b.take 16 })
        else d.setSess c x
      else d) a d

def execTagRead (c : Fin 4) (block count : Nat) (a : TagAnswer) (s : State) : Out := onReader c (tagRead c block count a) s

/-! ## The four-step write (17 R507, R508) -/

/-- The channel that holds an identifier Secured with nothing before a write. -/
def Dev.writable (d : Dev) (ident : Nat) : Option (Nat × TagSess) :=
  (List.range 4).findSome? fun c =>
    match (d.reader c).sess with
    | some x => if x.ident = ident && (x.stage = 4 || (x.stage = 3 && x.flags % 4 = 1)) && (d.reader c).wr.isNone && (d.reader c).drain.isNone && (d.keptFor x).isNone then some (c, x) else none
    | none => none

/-- TAG_WRITE: a type 0x64 record starts a write under a fresh write number; where the tag is not held Secured, nothing is written. -/
def tagWrite (tag : Nat) (p : Bytes) (d : Dev) : Dev :=
  let ident := leAt p 0 8
  let n := byteAt p 9
  let x : TagWrite := { tag := tag, ident := ident, first := byteAt p 8, data := p.drop 10 }
  match d.writable ident with
  | some (c, s) =>
    if 1 ≤ n && n ≤ 4 && p.length = 10 + 16 * n then
      let z := d.fresh 65535
      z.2.setReader c { z.2.reader c with wr := some { x with profile := s.flags % 4, fleet := s.fleet, w := z.1 + 1 } }
    else writeReport x 1 [] d
  | none => writeReport x 1 [] d

def execTagWrite (tag : Nat) (payload : Bytes) (s : State) : Out :=
  onDev (fun d => d.when d.running fun d => each 4 readerShow (tagWrite tag payload d)) s

/-- End a write with its outcome; a channel that drains goes off. -/
def writeEnd (c : Nat) (x : TagWrite) (outcome : Nat) (more : Bytes) (d : Dev) : Dev :=
  let d := writeReport x outcome more (d.setReader c { d.reader c with wr := none })
  if (d.reader c).drain.isSome then fieldOff c d else d

/-- One step of the write in flight: its command and fields, what the frame sent whole leads to, and what answer 0x00 does. -/
def writeStep (c step cmd : Nat) (fields : TagWrite → Bytes) (onOk onSilent : TagWrite → TagWrite) (a : TagAnswer) (d : Dev) : Dev :=
  match (d.reader c).wr with
  | none => d
  | some w =>
    let live := match (d.reader c).sess with
      | some x => (x.stage == 3 || x.stage == 4) && x.ident == w.ident
      | none => false
    if w.step != step || !live then d
    else
      let d := d.setReader c { d.reader c with wr := some (onSilent w) }
      secured c (fun _ => true) cmd (fields w)
        (fun _ st _ d =>
          if st = 0 then d.setReader c { d.reader c with wr := some (onOk w) }
          else writeEnd c w 4 (natLE 1 st) d) a d

/-- WRITE_CMD (step 1). -/
def execWriteCmd (c : Fin 4) (a : TagAnswer) (s : State) : Out :=
  onReader c (writeStep c 0 0x30 (fun w => natLE 2 w.w ++ natLE 1 w.first ++ natLE 1 (w.data.length / 16)) (fun w => { w with step := 1 }) id a) s

/-- WRITE_DATA (step 2), one block. -/
def execWriteData (c : Fin 4) (a : TagAnswer) (s : State) : Out :=
  onReader c (writeStep c 1 0x31 (fun w => natLE 2 w.w ++ natLE 1 w.sent ++ sliceB w.data (16 * w.sent) 16)
    (fun w => { w with sent := w.sent + 1, step := if 16 * (w.sent + 1) = w.data.length then 2 else 1 }) id a) s

/-- COMMIT (step 3). -/
def execCommit (c : Fin 4) (a : TagAnswer) (s : State) : Out :=
  onReader c (writeStep c 2 0x32 (fun w => natLE 2 w.w ++ natLE 4 (crc32 w.data)) (fun w => { w with step := 4 }) (fun w => { w with step := 3 }) a) s

/-- The outcome that a CONFIRM answer gives: 0 confirmed, 5 mismatch; `none'` where no record shows the write committed, 5 in the
write itself and 1 at a re-entry (17 R508, log entry 27). -/
def confirmOutcome (none' : Nat) (w : TagWrite) (st : Nat) (b : Bytes) : Nat :=
  if st = 0 ∧ byteAt b 0 = 0 then (if leAt b 1 4 = crc32 w.data then 0 else 5) else none'

/-- CONFIRM (step 4), or the CONFIRM that resolves a kept write. -/
def confirm (c : Nat) (a : TagAnswer) (d : Dev) : Dev :=
  match (d.reader c).wr, (d.reader c).sess with
  | some w, _ =>
    if w.step = 4 then
      secured c (fun _ => true) 0x33 (natLE 2 w.w) (fun _ st b d => writeEnd c w (confirmOutcome 5 w st b) [] d) a d
    else d
  | none, some x =>
    match d.keptFor x with
    | some w =>
      secured c (fun _ => true) 0x33 (natLE 2 w.w)
        (fun _ st b d => showUnresolved (writeReport w (confirmOutcome 1 w st b) [] { d with unresolved := d.unresolved.erase w })) a d
    | none => d
  | none, none => d

def execConfirm (c : Fin 4) (a : TagAnswer) (s : State) : Out := onReader c (confirm c a) s

/-- FIELD_COLLAPSE: the field goes off, or the drive current measured while it is on shows a fault of its antenna; a current in band is none
(17 R492, R508). -/
def fieldCollapse (c : Nat) (current : Option Nat) (d : Dev) : Dev :=
  let r := d.reader c
  d.when (r.phase != 0) fun d =>
    match current with
    | none => fieldOff c d
    | some i => d.when (antennaBad (tget 0 r.learnt r.antenna) i) fun d => fieldOff c (antennaFault c (r.antenna % 8) d)

def execFieldCollapse (x : Fin 4 × Option Nat) (s : State) : Out := onReader x.1 (fieldCollapse x.1 x.2) s

/-- RE_ENTRY_WINDOW_EXPIRY of kept write `i`: outcome 2, final. -/
def reEntryExpiry (i : Nat) (d : Dev) : Dev :=
  match d.unresolved[i]? with
  | some w => d.when (decide (w.until' ≤ d.now)) fun d => showUnresolved (writeReport w 2 [] { d with unresolved := d.unresolved.erase w })
  | none => d

def execReEntryWindowExpiry (i : Nat) (s : State) : Out := onDev (reEntryExpiry i) s

/-! ## Enabling and disabling (17 R492, R493, R509) -/

/-- Card exchanges of channel `c` that wait: the one in progress is reported as a timeout, those behind it find no card (17 R509). -/
def cardsTimeout (c : Nat) (d : Dev) : Dev :=
  let r := d.reader c
  let d := d.when r.exch.isSome fun d => cardRecord62 c [1#8] (d.setReader c { r with exch := none })
  let v : VcRec := tget {} d.vcs 6
  let wait := v.taken.filter fun x => x.2.word % 4 == c
  let d := if wait = [] then d else { d with vcs := tset d.vcs 6 { v with taken := v.taken.filter fun x => x.2.word % 4 != c } }
  wait.foldl (fun d x => if x.2.word.testBit 24 then d else cardRecord62 c [4#8] d) d

/-- The channel is disabled (17 R509): a write in flight drains from the first such write on, anything else is abandoned at once. -/
def readerDisable (c : Nat) (d : Dev) : Dev :=
  let d := cardsTimeout c d
  let r := d.reader c
  if r.wr.isSome then
    d.setReader c { r with cards := [], queue := [], drain := match r.drain with
      | some t => some t
      | none => some (d.effTick + 6400) }
  else d.when (r.phase != 0) (fieldOff c)

/-- The effect of a write to a channel's configuration. -/
def effReader (c sub v : Nat) (d : Dev) : Dev :=
  let was := d.get (readerIx c) 1
  let d := d.set (readerIx c) sub v
  if sub != 1 then d
  else if v = 0 then readerShow c (readerDisable c d)
  else if was = 0 then readerShow c ((d.set (readerIx c) 0x12 0).setReader c { d.reader c with learnt := [], drain := none })
  else d

/-- A write to 0x7C01 + c. -/
def writeReader (role : Role) (c sub v : Nat) (d : Dev) : Dev := writeObj role (readerIx c) sub (.num v) {} (effReader c sub v) d

def execReaderChannelDisable (role : Role) (c : Fin 4) (s : State) : Out := onDev (writeReader role c 1 0) s

/-- The reader in a tick: fields are off under a supply warning and in the pause of the application (20 R591), and a drain ends at its last tick. -/
def readerTick (d : Dev) : Dev :=
  each 4 (fun c d =>
    let r := d.reader c
    let late := match r.drain with
      | some t => decide (t ≤ d.now)
      | none => false
    let d := if r.phase != 0 && (d.supply.hold || d.pausing 1 || late) then fieldOff c d else d
    readerShow c (exchTimeout c d)) d

end Sys2Proof.Machine
end

