-- ==== Sys2Proof/Machine/Hank.lean ====
section
/-! DEFINITION. The Hank stream port: cells, sequence numbers, credits, streams of records and waveform capture (19 R545 to
R555). -/
namespace Sys2Proof.Machine

/-- Virtual channel `v`. -/
def Dev.vc (d : Dev) (v : Nat) : VcRec := tget {} d.vcs v
/-- The part with virtual channel `v` set. -/
def Dev.setVc (d : Dev) (v : Nat) (c : VcRec) : Dev := { d with vcs := tset d.vcs v c }

/-- The part's initial buffer of a channel in blocks, none where the host may send nothing on it (19 R551). -/
def vcBuffer (v : Nat) : Option Nat :=
  if v = 0 then some 16 else if v = 4 then some 512 else if v = 5 then some 256 else if v = 6 || v = 8 then some 64 else none

/-- A cell of the part (19 R546). -/
def hankCell (seq ack v ty : Nat) (payload : Bytes) (aborted : Bool) : Bytes :=
  let h := seq % 256 + ack % 256 * 2 ^ 8 + v % 16 * 2 ^ 16 + ty % 16 * 2 ^ 20
  let b := natLE 4 h ++ padTo 256 payload
  [0x4B#8, 0xD2#8] ++ b ++ natLE 2 (if aborted then 0xFFFF - crc16 b else crc16 b)

/-- The acknowledge that a cell carries. -/
def Dev.hankAck (d : Dev) : Nat := d.hank.ack.getD 0xFF

/-- Put a cell on the wire. -/
def hankPut (cell : Bytes) (d : Dev) : Dev := { d with hank := { d.hank with wire := push 64 cell d.hank.wire } }

/-- Send a data cell, kept until it is acknowledged. -/
def hankData (v : Nat) (payload : Bytes) (aborted : Bool) (d : Dev) : Dev :=
  let d := hankPut (hankCell d.hank.seq d.hankAck v 1 payload aborted) d
  let d := { d with hank := { d.hank with seq := (d.hank.seq + 1) % 256, unacked := d.hank.unacked ++ [(v, payload, aborted)] } }
  d.setVc v { d.vc v with sent := (d.vc v).sent + 1 }

/-- The bytes of a record with its header (19 R552). -/
def recordBytes (r : StreamRec) (no : Nat) : Bytes :=
  natLE 2 (12 + r.payload.length) ++ natLE 1 r.ty ++ [0#8] ++ natLE 4 no ++ natLE 4 r.word ++ r.payload

/-- Fill a block of 256 bytes from the tail and the records of channel `v`: the block and the channel afterwards. A record needs
its header's 12 bytes in the cell it begins in; the rest of a cell is filler. -/
def fillBlock : Nat → Bytes → VcRec → Bytes × VcRec
  | 0, b, c => (b, c)
  | f + 1, b, c =>
    if 256 ≤ b.length then (b, c)
    else if c.tail != [] then
      let n := 256 - b.length
      fillBlock f (b ++ c.tail.take n) { c with tail := c.tail.drop n }
    else
      match c.out with
      | [] => (b, c)
      | r :: rest =>
        if 256 < b.length + 12 then (b, c)
        else fillBlock f b { c with out := rest, outNo := c.outNo + 1, tail := recordBytes r (c.outNo + 1) }

/-- Send one block of channel `v` where it has content, credit and room for an unacknowledged cell; a block kept over a loss of the
link goes first (19 R552). -/
def sendBlock (v : Nat) (d : Dev) : Dev :=
  let c := d.vc v
  d.when (d.hank.rxRun && d.hank.txRun && decide (c.sent < c.credit ∧ d.hank.unacked.length < 64)) fun d =>
    match d.hank.again.find? fun x => x.1 == v with
    | some x => hankData v x.2.1 x.2.2 { d with hank := { d.hank with again := d.hank.again.erase x } }
    | none =>
      d.when (c.tail != [] || c.out != []) fun d =>
        let z := fillBlock 64 [] c
        let d := (d.setVc v z.2).satInc 32 (0x2618 + v) 3 (z.2.outNo - c.outNo)
        hankData v z.1 false d

/-- Show the credits of each channel. -/
def showCredits (d : Dev) : Dev := each 9 (fun v d => d.set (0x2618 + v) 2 (min 65535 ((d.vc v).credit - (d.vc v).sent))) d

/-- An idle cell, which carries the next sequence number and the acknowledge (19 R547, R548). -/
def hankIdle (d : Dev) : Dev := hankPut (hankCell d.hank.seq d.hankAck 0 0 [] false) d

/-- The sending of a tick on the channels of no requester of the arbiter: fence markers, captures, the reader and image blocks, in ascending
order in turn, as many as a tick has room for; the other channels send in the transfers that the arbiter grants (18 R513). Of the idle cells that
fill the tick, all of it where the link is not in RUN, one is put down (log entry 28). -/
def hankTick (d : Dev) : Dev := showCredits (hankIdle (each 7 (fun _ d => eachN [0, 1, 6, 8] sendBlock d) d))

/-- The channel of a requester of the Hank port (18 R514; 19 R551): vehicle frames, session records, readings, mesh results, log entries. -/
def hankOf (q : Nat) : Nat := if q < 32 then 4 else if q = 32 then 2 else if q = 33 then 3 else if q = 34 then 5 else 7

/-- The block in flight that the arbiter takes away is completed as an aborted cell of its channel (18 R520, 19 R549), which needs credit and room
as every data cell does (19 R548, R550). -/
def hankAbort (q : Nat) (d : Dev) : Dev :=
  let c := d.vc (hankOf q)
  d.when (d.hank.rxRun && d.hank.txRun && decide (c.sent < c.credit ∧ d.hank.unacked.length < 64)) fun d =>
    (hankData (hankOf q) [] true d).satInc 32 0x2610 5 1

/-! ## The link (19 R547) -/

/-- A change of the link's state. -/
def hankState (run : Bool) (d : Dev) : Dev :=
  if (d.get 0x2610 1 == 1) == run then d
  else ((d.set 0x2610 1 (b2n run)).raiseEv 10).satInc 32 0x2610 4 1

/-- HANK_LINK_RUN, and the eighth good cell in a row: the part's receiver enters RUN. Counts restart at 0; what is unacknowledged is kept to be
sent again as credit comes. -/
def hankRun (d : Dev) : Dev :=
  d.when (d.ticking && !d.hank.rxRun) fun d =>
    let d := { d with hank := { d.hank with
      rxRun := true, txRun := false, good := 0, bad := 0, seq := 0, expect := 0, ack := none, unacked := [], again := d.hank.unacked ++ d.hank.again } }
    each 9 (fun v d => d.setVc v { d.vc v with sent := 0, credit := 0, released := (vcBuffer v).getD 0 }) d

def execHankLinkRun (s : State) : Out := onDev hankRun s

/-- The host's receiver is in RUN, which a data or credit cell of it shows: until then it sends idle cells. With both directions in RUN the link is
(log entry 117). -/
def hankSeen (d : Dev) : Dev := d.when (d.hank.rxRun && !d.hank.txRun) fun d => hankState true { d with hank := { d.hank with txRun := true } }

/-- HANK_LINK_DOWN, and the eighth bad cell in a row: the part's receiver leaves RUN. -/
def hankDown (d : Dev) : Dev := hankState false { d with hank := { d.hank with rxRun := false, txRun := false, good := 0, bad := 0 } }

def execHankLinkDown (s : State) : Out := onDev hankDown s

/-- HANK_RESEND_TIMEOUT: the unacknowledged cells again, unchanged and from the oldest (19 R548). -/
def hankResend (d : Dev) : Dev :=
  d.when (d.get 0x2610 1 == 1 && d.hank.unacked != []) fun d =>
    let n := d.hank.unacked.length
    let d := each n (fun i d =>
      match d.hank.unacked[i]? with
      | some (v, p, a) => hankPut (hankCell (d.hank.seq + 256 - n + i) d.hankAck v 1 p a) d
      | none => d) d
    d.satInc 32 0x2610 3 n

def execHankResendTimeout (s : State) : Out := onDev hankResend s

/-- CREDIT_CELL_TRANSMIT by a receiver in RUN: the blocks released on every channel since then. -/
def creditTransmit (d : Dev) : Dev :=
  d.when (d.ticking && d.hank.rxRun) fun d =>
    let p := (List.range 16).flatMap fun v => natLE 4 (d.vc v).released
    let d := hankPut (hankCell d.hank.seq d.hankAck 0 2 p false) d
    { d with hank := { d.hank with creditAt := d.now } }

def execCreditCellTransmit (s : State) : Out := onDev creditTransmit s

/-! ## Reception (19 R546, R548 to R551) -/

/-- Whether a cell's sync and length are right, and its CRC is correct or complemented. -/
def cellGood (cell : Bytes) : Bool :=
  let b := sliceB cell 2 260
  let c := leAt cell 262 2
  cell.length == 264 && byteAt cell 0 == 0x4B && byteAt cell 1 == 0xD2 && (c == crc16 b || c == 0xFFFF - crc16 b)
/-- Whether it is an aborted cell. -/
def cellAborted (cell : Bytes) : Bool := leAt cell 262 2 != crc16 (sliceB cell 2 260)

/-- Count a received cell: 8 good ones in a row put the receiver in RUN, 8 bad ones out of it; a bad one in RUN counts at 0x2610.02. -/
def countCell (good : Bool) (d : Dev) : Dev :=
  let h := d.hank
  if good then
    let d := { d with hank := { h with good := min 8 (h.good + 1), bad := 0 } }
    d.when (!h.rxRun && decide (7 ≤ h.good)) hankRun
  else
    let d := { d with hank := { h with good := 0, bad := min 8 (h.bad + 1) } }
    d.when h.rxRun fun d => (d.satInc 32 0x2610 2 1).when (decide (7 ≤ h.bad)) hankDown

/-- An acknowledge takes every cell up to it off the list. -/
def hankAcked (a : Nat) (d : Dev) : Dev :=
  let n := d.hank.unacked.length
  let first := (d.hank.seq + 256 - n) % 256
  let k := (a + 256 - first) % 256
  if k < n then { d with hank := { d.hank with unacked := d.hank.unacked.drop (k + 1) } } else d

/-- The latest counts of the other side's credits. -/
def takeCredits (cell : Bytes) (d : Dev) : Dev :=
  showCredits (each 9 (fun v d => d.setVc v { d.vc v with credit := max (d.vc v).credit (leAt cell (6 + 4 * v) 4) }) d)

/-- A cell comes in: counted, and where it is good and the receiver was in RUN before it, its acknowledge is taken and `take` acts on its type. -/
def cellIn (take : Nat → Dev → Dev) (cell : Bytes) (d : Dev) : Dev :=
  d.when d.ticking fun d =>
    let ty := byteAt cell 4 / 16
    let good := cellGood cell
    (countCell good d).when (d.hank.rxRun && good) fun d => take ty (hankAcked (byteAt cell 3) (d.when (ty == 1 || ty == 2) hankSeen))

/-- CREDIT_CELL. -/
def creditCell (cell : Bytes) (d : Dev) : Dev := cellIn (fun ty d => if ty = 2 && !cellAborted cell then takeCredits cell d else d) cell d

def execCreditCell (cell : Bytes) (s : State) : Out := onDev (creditCell cell) s

/-- Whole records at the front of a channel's bytes, with their numbers: the records and the rest. A length of 0 is filler. -/
def splitRecords : Nat → Bytes → List (Nat × StreamRec) × Bytes
  | 0, b => ([], b)
  | f + 1, b =>
    let n := leAt b 0 2
    if b.length < 2 then ([], if n = 0 then [] else b)
    else if n < 12 then ([], [])
    else if b.length < n then ([], b)
    else
      let z := splitRecords f (b.drop n)
      ((leAt b 4 4, ⟨byteAt b 2, leAt b 8 4, sliceB b 12 (n - 12)⟩) :: z.1, z.2)

/-- Take the payload of an accepted data cell: the new records of its channel, by `act` in their order. -/
def takeBlock (act : Nat → StreamRec → Dev → Dev) (v : Nat) (payload : Bytes) (d : Dev) : Dev :=
  let c := d.vc v
  let z := splitRecords 64 (c.part ++ payload)
  let d := d.setVc v { c with part := z.2, released := c.released + 1 }
  z.1.foldl (fun d x =>
    let c := d.vc v
    if x.1 = 1 || c.inNo < x.1 then act v x.2 (d.setVc v { c with inNo := x.1 }) else d) d

/-- HANK_CELL: checked, accepted in sequence or discarded. -/
def hankReceive (act : Nat → StreamRec → Dev → Dev) (cell : Bytes) (d : Dev) : Dev :=
  cellIn (fun ty d =>
    let v := byteAt cell 4 % 16
    let seq := byteAt cell 2
    if ty = 2 then (if cellAborted cell then d else takeCredits cell d)
    else if ty != 1 || seq != d.hank.expect then d
    else
      let d := { d with hank := { d.hank with expect := (seq + 1) % 256, ack := some seq } }
      if (vcBuffer v).isNone then d.satInc 32 0x2610 2 1
      else if cellAborted cell then d.setVc v { d.vc v with released := (d.vc v).released + 1 }
      else takeBlock act v (sliceB cell 6 256) d) cell d

/-! ## Waveform capture (19 R555, 04 R155) -/

/-- The 64-bit word of a sample. -/
def wordBits (w : HWord) (locked conv : Bool) : Nat :=
  spat 32 w.data + 2 ^ 32 * maskOf [w.invalid, w.saturated, w.settling, locked, w.unlocked, w.flywheel, conv]
    + 2 ^ 40 * (w.index % 256) + 2 ^ 48 * (w.number % 65536)

/-- The words of a channel in this tick. -/
def Dev.tickWords (d : Dev) (c : Nat) : Bytes :=
  let r := tget {} d.chans c
  let ws := (match r.main with
    | x :: _ => [wordBits x false false]
    | [] => []) ++ (match r.conv with
    | some x => [wordBits x false true]
    | none => []) ++ (match r.locked with
    | some x => [wordBits x true false]
    | none => [])
  ws.flatMap (natLE 8)

/-- The refusals of a capture request. -/
def hankCapRules (d : Dev) (v : Bytes) : Rules :=
  let n := byteAt v 14
  { atRange := if byteAt v 15 != 0 || n = 0 || 8 < n || 2097152 < n * leAt v 8 4 * 8 || (List.range n).any (fun i => decide (287 < leAt v (16 + 2 * i) 2)) then 8
      else if d.capt.isSome then 0x0E else 0 }

/-- The effect of a capture request. -/
def effHankCap (v : Bytes) (d : Dev) : Dev :=
  let st := leAt v 0 8
  { d with capt := some { start := max d.effTick st, len := leAt v 8 4, number := leAt v 12 2,
                             chans := (List.range (byteAt v 14)).map fun i => leAt v (16 + 2 * i) 2 } }.set 0x2630 2 1

/-- A write to 0x2630.01. -/
def writeHankCap (role : Role) (v : Bytes) (d : Dev) : Dev := writeObj role 0x2630 1 (.raw v) (hankCapRules d v) (effHankCap v) d

def execCaptureRequest (role : Role) (v : Bytes) (s : State) : Out := onDev (writeHankCap role v) s

/-- The capture in a tick: a record of the tick's words of each channel, until its length is done. -/
def hankCapTick (d : Dev) : Dev :=
  match d.capt with
  | none => d
  | some c =>
    if d.now < c.start then d
    else if c.start + c.len ≤ d.now then { d with capt := none }.set 0x2630 2 0
    else
      c.chans.foldl (fun d ch => d.when (d.tickWords ch != []) fun d => d.stream 1 ⟨0x10, ch + 65536 * c.number, natLE 8 d.now ++ d.tickWords ch⟩)
        (d.set 0x2630 2 2)

end Sys2Proof.Machine
end

