-- ==== Sys2Proof/Machine/Arbiter.lean ====
section
/-! DEFINITION. The Spindle arbiter: credits, contests, pre-emption, locked runs, withdrawal and statistics (chapter 18, R513 to
R528, R535, R536). -/
namespace Sys2Proof.Machine

/-- The object of requester `q`. -/
def reqIx (q : Nat) : Nat := 0x2510 + q
/-- The object of service `v`. -/
def svcIx (v : Nat) : Nat := 0x2540 + v
/-- The record of service `v`. -/
def Dev.svc (d : Dev) (v : Nat) : SvcRec := tget {} d.arb.svcs v
/-- The part with the record of service `v` set. -/
def Dev.setSvc (d : Dev) (v : Nat) (x : SvcRec) : Dev := { d with arb := { d.arb with svcs := tset d.arb.svcs v x } }

/-- The services of a requester (18 R514). -/
def servicesOf (q : Nat) : List Nat :=
  if q < 32 then [4]
  else if q = 32 then [0, 3, 4]
  else if q = 33 then [1, 2, 3, 4]
  else if q = 34 then [4, 5]
  else if q = 35 then [3, 4]
  else if q = 36 then [0, 3, 5]
  else [3, 5]

/-- The rank in force: 7 for the billing engine while the part raises it (18 R515). -/
def Dev.rankOf (d : Dev) (q : Nat) : Nat := if q = 32 && d.arb.top then 7 else d.get (reqIx q) 1

/-- The first cycle in which a grant of `q` counts. -/
def Dev.grantFrom (d : Dev) (q : Nat) : Option Nat :=
  (List.range 6).foldl (fun m v =>
    let x := d.svc v
    match x.grant with
    | some g => if g.q = q then some (match m with
        | some k => min k (x.decided + 1)
        | none => x.decided + 1) else m
    | none => m) none

/-- The cycles before `c`, not yet counted, in which `q` holds a grant: those of a grant that it has, and the last one of a grant that has ended. -/
def Dev.owed (d : Dev) (c q : Nat) : Nat :=
  let p := tget 0 d.arb.paid q
  let m := (d.grantFrom q).getD c
  (c - max p m) + b2n (match tfind d.arb.held q with
    | some k => decide (p ≤ k ∧ k < min c m)
    | none => false)

/-- Reduce the counter of `q` by 1 for each cycle before `c` in which it holds a grant (18 R517 step 3). -/
def settleReq (c q : Nat) (d : Dev) : Dev :=
  let n := d.owed c q
  if n = 0 then d
  else
    let d := d.set (reqIx q) 3 (d.get (reqIx q) 3 - n)
    { d with arb := { d.arb with paid := tset d.arb.paid q (max (tget 0 d.arb.paid q) c) } }

/-- Count the use of service `v` for the cycles before `c` (18 R526). -/
def settleSvc (c v : Nat) (d : Dev) : Dev :=
  let x := d.svc v
  match x.grant with
  | none => d
  | some g =>
    let p := max x.paid (x.decided + 1)
    let r := d.rankOf g.q % 8
    let d := d.satInc 64 (svcIx v) 2 (c - p)
    d.setSvc v { x with paid := max p c, occ := setAt x.occ r (x.occ.getD r 0 + (c - p)) }

/-- Reduce and count for every cycle before `c`. -/
def settle (c : Nat) (d : Dev) : Dev :=
  let d := each 38 (settleReq c) (each 6 (settleSvc c) d)
  { d with arb := { d.arb with cycle := max c d.arb.cycle } }

/-- Add the weights to the counters, saturating at 4 095 (18 R517 step 1). -/
def refill (d : Dev) : Dev :=
  let d := each 38 (fun q d => d.set (reqIx q) 3 (min 4095 (d.get (reqIx q) 3 + d.get (reqIx q) 2))) d
  { d with arb := { d.arb with refills := d.arb.refills + 1 } }

/-- Bring the arbiter to cycle `c`, with the refills that fall due. -/
def arbGo : Nat → Nat → Dev → Dev
  | 0, c, d => settle c d
  | f + 1, c, d => if d.arb.refills * 1024 ≤ c then arbGo f c (refill (settle (d.arb.refills * 1024) d)) else settle c d

/-- Whether request `a` wins over `b` at a service whose previous winner is `p` (18 R518). -/
def beats (d : Dev) (p : Nat) (a b : ArbReq) : Bool :=
  let ra := d.rankOf a.q
  let rb := d.rankOf b.q
  let ca := d.get (reqIx a.q) 3
  let cb := d.get (reqIx b.q) 3
  if ra != rb then decide (rb < ra)
  else if ca != cb then decide (cb < ca)
  else decide ((a.q + 37 - p) % 38 < (b.q + 37 - p) % 38)

/-- The winner among the requests that wait. -/
def winner (d : Dev) (p : Nat) : List ArbReq → Option ArbReq
  | [] => none
  | x :: r =>
    match winner d p r with
    | some y => if beats d p x y then some x else some y
    | none => some x

/-- Decide a free service in cycle `c`. -/
def decideSvc (c v : Nat) (d : Dev) : Dev :=
  let x := d.svc v
  match x.grant, winner d x.prev x.waiting with
  | none, some w =>
    (d.setSvc v { x with
      grant := some w, decided := c, prev := w.q, prev2 := x.prev, waiting := x.waiting.erase w
      bumped := decide (d.get (reqIx w.q) 4 < 2 ^ 32 - 1) }).satInc 32 (reqIx w.q) 4 1
  | _, _ => d

/-- The grant of `g` on service `v` ends with cycle `c`, which its requester's counter has still to pay: every decision of the cycle comes before
that (18 R517). -/
def endGrant (c v : Nat) (g : ArbReq) (d : Dev) : Dev :=
  let d := settleSvc (c + 1) v d
  let d := d.setSvc v { d.svc v with grant := none, ended := some (g, c) }
  { d with arb := { d.arb with held := tset d.arb.held g.q c } }

/-- End the transfer of `g` on service `v`, whose last cycle is `c`; its successor is decided in it (18 R519). -/
def endTransfer (c v : Nat) (g : ArbReq) (d : Dev) : Dev := decideSvc c v (endGrant c v g d)

/-- Note the wait of the transfer of `g` on service `v` in the longest of its requester (18 R519). -/
def noteWait (v : Nat) (g : ArbReq) (d : Dev) : Dev :=
  d.set (reqIx g.q) 7 (max (d.get (reqIx g.q) 7) (min ((d.svc v).decided + 1 - g.at') (2 ^ 32 - 1)))

/-- Cycles for which a locked run owns a service at most: 8 ticks (01 R33; 18 R522). -/
def runLimit : Nat := 245760

/-- The cycle in which the locked run on service `v` reaches its limit. -/
def Dev.runOf (d : Dev) (v : Nat) : Option Nat :=
  match (d.svc v).grant with
  | some g => if g.locked then some ((d.svc v).decided + runLimit) else none
  | none => none

/-- The cycle in which the first locked run reaches its limit. -/
def Dev.runEnd (d : Dev) : Option Nat := ((List.range 6).filterMap d.runOf).min?

/-- The locked runs at their limit in cycle `c` end. -/
def endRuns (c : Nat) (d : Dev) : Dev :=
  each 6 (fun v d => match (d.svc v).grant with
    | some g => if g.locked && decide ((d.svc v).decided + runLimit ≤ c) then endTransfer c v g (noteWait v g d) else d
    | none => d) d

/-- The dead cycle of service `v` after a withdrawal, in which the next grant is decided (18 R523). -/
def Dev.dueOf (d : Dev) (v : Nat) : Option Nat :=
  match (d.svc v).grant with
  | some _ => none
  | none => if (d.svc v).waiting = [] then none else (d.svc v).dead

/-- The first cycle in which a locked run reaches its limit or a dead cycle decides. -/
def Dev.nextEvent (d : Dev) : Option Nat := (d.runEnd.toList ++ (List.range 6).filterMap d.dueOf).min?

/-- The decisions of cycle `c` that are due in dead cycles. -/
def decideDue (c : Nat) (d : Dev) : Dev :=
  each 6 (fun v d => match d.dueOf v with
    | some k => if k ≤ c then decideSvc c v d else d
    | none => d) d

/-- Bring the arbiter to cycle `c`, with the refills that fall due. -/
def arbReach (c : Nat) (d : Dev) : Dev := arbGo (c / 1024 + 1 - d.arb.refills) c d

/-- Bring the arbiter to cycle `c`, ending the locked runs that reach their limit and deciding in dead cycles. -/
def arbTo : Nat → Nat → Dev → Dev
  | 0, c, d => arbReach c d
  | f + 1, c, d =>
    match d.nextEvent with
    | some e => if e ≤ c then arbTo f c (decideDue e (endRuns e (arbReach e d))) else arbReach c d
    | none => arbReach c d

/-- Let `dt` cycles pass. -/
def arbPass (dt : Nat) (d : Dev) : Dev := arbTo (6 * (dt / runLimit + 4)) (d.arb.cycle + dt) d

/-- Decide service `v` in the present cycle: a grant decided in this very cycle is contested again with the rest; an unlocked grant
loses to a strictly higher rank (18 R517 step 2, R520). A service whose dead cycle is still to come is decided in that (18 R523). -/
def contest (v : Nat) (d : Dev) : Dev :=
  let c := d.arb.cycle
  let x := d.svc v
  match x.grant with
  | none => if (match x.dead with
      | some k => decide (c < k)
      | none => false) then d else decideSvc c v d
  | some g =>
    if c ≤ x.decided then
      let d := d.setSvc v { x with grant := none, prev := x.prev2, waiting := x.waiting ++ [g] }
      decideSvc x.decided v (if x.bumped then d.set (reqIx g.q) 4 (d.get (reqIx g.q) 4 - 1) else d)
    else if !g.locked && x.waiting.any fun w => decide (d.rankOf g.q < d.rankOf w.q) then
      let d := endGrant c v g (if v = 4 then hankAbort g.q d else d)
      decideSvc c v ((d.setSvc v { d.svc v with waiting := x.waiting ++ [g] }).satInc 32 (reqIx g.q) 5 1)
    else d

/-- The holder of service `v` in the present cycle: a grant from the cycle after its decision on, and one that has ended to the end of its last
cycle (18 R519). -/
def Dev.holder (d : Dev) (v : Nat) : Option ArbReq :=
  let x := d.svc v
  match x.grant, x.ended with
  | some g, some (h, k) => if x.decided < d.arb.cycle then some g else if k = d.arb.cycle then some h else none
  | some g, none => if x.decided < d.arb.cycle then some g else none
  | none, some (h, k) => if k = d.arb.cycle then some h else none
  | none, none => none

/-- Show the services and the requesters (18 R535, R536). -/
def arbShow (d : Dev) : Dev :=
  let d := each 6 (fun v d =>
    let x := d.svc v
    let dead := match x.dead with
      | some k => decide (k ≤ d.arb.cycle ∧ d.arb.cycle ≤ k + 1)
      | none => false
    d.set (svcIx v) 1 (match d.holder v with
      | some g => g.q + 256 * b2n g.locked + 512 * b2n dead + 1024 * d.rankOf g.q
      | none => 0xFF + 512 * b2n dead)) d
  each 38 (fun q d =>
    let m := sumN ((List.range 6).map fun v => if (d.svc v).waiting.any fun w => w.q == q then 2 ^ v else 0)
    (d.set (reqIx q) 0x0A m).set (reqIx q) 0x0B (d.rankOf q)) d

/-- Whether the billing engine runs at rank 7: during a power-fail save and until its staged records are written (01 R32; 07 R265), in the tick that
marks a committed save provisional (09 R296; 18 R515), and above 24 576 bytes staged, until they fall below 8 192 (07 R263). -/
def Dev.stagedTop (d : Dev) : Bool :=
  if d.supply.writing.isSome || d.supply.saved || d.supply.marked == some d.now then true
  else if 24576 < d.staged then true else if d.staged < 8192 then false else d.arb.top

/-- The rank of staged records follows what the staging memory holds; the contest runs at a change. -/
def stagedRank (d : Dev) : Dev :=
  if d.stagedTop = d.arb.top then d else arbShow (each 6 contest { d with arb := { d.arb with top := d.stagedTop } })

/-- An arbiter command after `dt` cycles. -/
def onArb (dt : Nat) (f : Dev → Dev) (s : State) : Out := onDev (fun d => d.when d.running fun d => arbShow (f (arbPass dt (stagedRank d)))) s

/-- Whether requester `q` holds service `v`. -/
def Dev.granted (d : Dev) (q v : Nat) : Bool :=
  match (d.svc v).grant with
  | some g => g.q == q
  | none => false

/-- Whether requester `q` owns or awaits service `v`, `run` in a locked run. -/
def Dev.svcHas (d : Dev) (q v : Nat) (run : Bool) : Bool :=
  let mine := fun r : ArbReq => r.q == q && (r.locked || !run)
  (d.svc v).waiting.any mine || (match (d.svc v).grant with
    | some g => mine g
    | none => false)

/-- Whether service `v` takes a transfer of `u.1` units of kind `u.2` (18 R513): a message of blocks; a signature or a verification; 1 to 32
codewords; a block; a page read, a page program or a sector erase. -/
def unitsOk (v : Nat) (u : Nat × Nat) : Bool :=
  if v = 0 then decide (1 ≤ u.1 ∧ u.2 = 0)
  else if v = 1 || v = 2 then decide (u.1 = 1 ∧ u.2 ≤ 1)
  else if v = 3 then decide (1 ≤ u.1 ∧ u.1 ≤ 32 ∧ u.2 = 0)
  else if v = 4 then decide (u.1 = 1 ∧ u.2 = 0)
  else decide (u.1 = 1 ∧ u.2 ≤ 2)

/-- Whether a requester may ask: for the Hank port where the host has given credit on its channel (18 R513). -/
def Dev.mayAsk (d : Dev) (q v : Nat) : Bool := v != 4 || decide ((d.vc (hankOf q)).sent < (d.vc (hankOf q)).credit)

/-- SERVICE_REQUEST: waits, and the service is decided. A requester is in one locked run at a time, and a sector erase is in none (18 R522). -/
def serviceRequest (q v : Nat) (locked : Bool) (units : Nat × Nat) (d : Dev) : Dev :=
  let x := d.svc v
  let locked := locked && !(v == 5 && units.2 == 2)
  let busy := d.svcHas q v false || (locked && (List.range 6).any fun w => d.svcHas q w true)
  d.when ((servicesOf q).contains v && unitsOk v units && d.mayAsk q v && !busy) fun d =>
    contest v (d.setSvc v { x with waiting := x.waiting ++ [{ q := q, locked := locked, units := units.1, at' := d.arb.cycle }] })

def execServiceRequest (q : Fin 38) (v : Fin 6) (locked : Bool) (units : Nat × Nat) (dt : Nat) (s : State) : Out :=
  onArb dt (serviceRequest q v locked units) s

/-- TRANSFER_COMPLETE: the transfer's last cycle is the present one; its successor is decided in it. A locked run with a further
transfer keeps the service, up to its limit (18 R519, R521, R522). A transfer of the Hank port has sent a block of its requester's channel; vehicle
frames wait while the application pauses (18 R513; 20 R591). -/
def transferComplete (v : Nat) (more : Bool) (d : Dev) : Dev :=
  let c := d.arb.cycle
  let x := d.svc v
  match x.grant with
  | none => d
  | some g =>
    d.when (decide (x.decided < c)) fun d =>
      let d := noteWait v g d
      let d := d.when (v == 4 && !(decide (g.q < 32) && d.pausing 1)) (sendBlock (hankOf g.q))
      if g.locked && more then d else endTransfer c v g d

def execTransferComplete (v : Fin 6) (more : Bool) (dt : Nat) (s : State) : Out := onArb dt (transferComplete v more) s

/-- CREDIT_REFILL: the cycles up to the next multiple of 1 024 pass, and the weights are added. -/
def execCreditRefill (s : State) : Out :=
  onDev (fun d => d.when d.running fun d => arbShow (arbPass (d.arb.refills * 1024 - d.arb.cycle) d)) s

/-- End a grant by withdrawal: one dead cycle, in which the next grant is decided (18 R523). -/
def withdrawGrant (q v : Nat) (d : Dev) : Dev :=
  let c := d.arb.cycle
  match (d.svc v).grant with
  | none => d
  | some g =>
    if g.q != q then d
    else
      let d := endGrant c v g d
      (d.setSvc v { d.svc v with dead := some (c + 1) }).satInc 64 (svcIx v) 3 1

/-- WITHDRAWAL: of a waiting request at no cost; of a grant; of a locked run on every service it owns. -/
def withdrawal (q v : Nat) (d : Dev) : Dev :=
  let x := d.svc v
  match x.grant with
  | some g =>
    if g.q = q then
      let d := d.satInc 32 (reqIx q) 6 1
      if g.locked then
        each 6 (fun i d => match (d.svc i).grant with
          | some h => if h.q = q && h.locked then withdrawGrant q i d else d
          | none => d) d
      else withdrawGrant q v d
    else d.setSvc v { x with waiting := x.waiting.filter fun w => w.q != q }
  | none => d.setSvc v { x with waiting := x.waiting.filter fun w => w.q != q }

def execWithdrawal (q : Fin 38) (v : Fin 6) (dt : Nat) (s : State) : Out := onArb dt (withdrawal q v) s

/-- The effect of a write to a requester's object: from the first fabric cycle after it (18 R524). -/
def effReq (q sub v : Nat) (d : Dev) : Dev :=
  if sub = 1 then arbShow (each 6 contest ((arbPass 1 d).set (reqIx q) sub v)) else d.set (reqIx q) sub v

/-- A write to 0x2510 + q. -/
def writeReq (role : Role) (q sub v : Nat) (d : Dev) : Dev := writeObj role (reqIx q) sub (.num v) {} (effReq q sub v) d

def execRankWeightWrite (role : Role) (q : Fin 38) (sub v : Nat) (s : State) : Out := onDev (writeReq role q sub v) s

/-- WAIT_THRESHOLD_REACHED: once in each request (18 R527). -/
def waitThreshold (q v : Nat) (d : Dev) : Dev :=
  match (d.svc v).waiting.find? fun w => w.q == q && !w.told with
  | none => d
  | some w =>
    let t := d.get (reqIx q) 8
    d.when (d.running && t != 0) fun d =>
      let d := arbPass (w.at' + t - d.arb.cycle) d
      let x := d.svc v
      if !x.waiting.contains w then arbShow d else
      let d := d.setSvc v { x with waiting := x.waiting.map fun y => if y.q == q then { y with told := true } else y }
      arbShow (((d.satInc 32 (reqIx q) 9 1).raiseEv 112).skein { kind := 2, ev := some 112, ix := reqIx q, before := natLE 1 v, after := natLE 4 t })

def execWaitThresholdReached (q : Fin 38) (v : Fin 6) (s : State) : Out := onRun (waitThreshold q v) s

/-- STAGED_RECORD_COMMIT (07 R264): the locked sequence of the oldest staged record, which holds the MRAM write port, commits. -/
def stagedCommit (d : Dev) : Dev :=
  d.when (d.granted 32 3) fun d =>
  let d := stagedRank d
  stagedRank { recordsWritten (d.bill.staging.take 1) d with bill := { d.bill with staging := d.bill.staging.drop 1 } }

def execStagedRecordCommit (s : State) : Out := onRun stagedCommit s

/-- OCCUPANCY_REFRESH at a tick that is a multiple of 32 000: permille of the cycles of 32 000 ticks by rank (18 R526). -/
def occupancy (d : Dev) : Dev :=
  d.when (d.running && decide (d.now % 32000 = 0 ∧ d.arb.occAt < d.now)) fun d =>
    let d := arbPass 0 d
    let d := each 6 (fun v d =>
      let x := d.svc v
      let d := each 8 (fun r d => d.set (svcIx v) (4 + r) (min 65535 (x.occ.getD r 0 * 1000 / (32000 * 30720)))) d
      d.setSvc v { x with occ := [0, 0, 0, 0, 0, 0, 0, 0] }) d
    { d with arb := { d.arb with occAt := d.now } }

def execOccupancyRefresh (s : State) : Out := onRun occupancy s

/-- STATISTICS_CLEAR: a write of 1 clears; any other value is accepted without effect (18 R536). The count of the running 32 000 ticks goes on
(18 R526). -/
def effStats (v : Nat) (d : Dev) : Dev :=
  d.when (v == 1) fun d =>
    let d := each 38 (fun q d => (d.set (reqIx q) 7 0).set (reqIx q) 9 0) d
    each 6 (fun v d => each 10 (fun i d => d.set (svcIx v) (i + 2) 0) d) d

/-- A write to 0x2500.01. -/
def writeStats (role : Role) (v : Nat) (d : Dev) : Dev := writeObj role 0x2500 1 (.num v) {} (effStats v) d

def execStatisticsClear (role : Role) (v : Nat) (s : State) : Out := onDev (writeStats role v) s

end Sys2Proof.Machine
end

