-- ==== Sys2Proof/Machine/Keys.lean ====
section
/-! DEFINITION. Bobbin slots and the lifecycle: loading, generating, proving and destroying keys, and the transitions (20 R565 to
R579). -/
namespace Sys2Proof.Machine

/-- The object of Bobbin slot `s`. -/
def slotObj (s : Nat) : Nat := 0x2280 + s
/-- The attribute word of a slot. -/
def Dev.slotAttr (d : Dev) (s : Nat) : Nat := d.get (slotObj s) 1
/-- Whether the slot is one of 20 R567. -/
def Dev.slotUsed (d : Dev) (s : Nat) : Bool := d.slotAttr s != 0
/-- Key type: 1 AES-128, 2 password, 3 Ed448 private, 4 Ed448 public. -/
def Dev.slotType (d : Dev) (s : Nat) : Nat := field (d.slotAttr s) 5 3
/-- Owner role code. -/
def Dev.slotOwner (d : Dev) (s : Nat) : Nat := field (d.slotAttr s) 8 3
/-- Replace policy. -/
def Dev.slotPolicy (d : Dev) (s : Nat) : Nat := field (d.slotAttr s) 24 2

/-- The context of a proof of possession. -/
def keyContext : Bytes := asciiB "xaeth-kp"

/-- The identifier of a key (20 R596). -/
def keyIdent (ty : Nat) (k : Bytes) : Bytes :=
  if ty = 1 then padTo 16 (shake256 16 (asciiB "xaeth-kid" ++ k))
  else if ty = 3 then padTo 57 (ed448Public k)
  else if ty = 4 then padTo 57 k else []

/-- The identifier of a half, an empty BLOB where it is empty. -/
def halfIdent (ty : Nat) : Option Bytes → Bytes
  | some k => keyIdent ty k
  | none => []

/-- Put the record of a slot, and show it in its object. -/
def Dev.setKey (d : Dev) (s : Nat) (r : KeyRec) : Dev :=
  let ty := d.slotType s
  let d := { d with keys := tset d.keys s r }
  let d := d.set (slotObj s) 2 (b2n r.pend.isSome + 2 * b2n r.active.isSome)
  let d := (d.setB (slotObj s) 3 (halfIdent ty r.active)).setB (slotObj s) 0xB (halfIdent ty r.pend)
  d.when (s == 8) fun d => (d.set 0x4D80 2 (b2n r.active.isSome)).setB 0x4D80 5 (halfIdent ty r.active)

/-- The new generation as the proof names it. -/
def Dev.nextGen (d : Dev) (s : Nat) : Bytes := natLE 4 (d.get (slotObj s) 7 + 1)

/-- Renew the challenge of a slot; slot 8 places the pending public key and its signature after it (20 R570). -/
def renewChallenge (s : Nat) (d : Dev) : Dev :=
  let g := d.nextGen s
  let z := d.freshBytes 16
  let r := z.2.keyRec s
  let d := { z.2 with keys := tset z.2.keys s { r with challenge := some z.1 } }
  let more := match r.pend with
    | some k => if s = 8 then padTo 57 (ed448Public k) ++ padTo 114 (ed448Sign k keyContext (z.1 ++ [8#8] ++ g)) else []
    | none => []
  d.setB (slotObj s) 5 (z.1 ++ more)

/-! ## Loading and generating (20 R569, R570) -/

/-- The length of wrapped key material of a type, and of the key itself. -/
def wrappedLen (ty : Nat) : Nat × Nat := if ty = 1 then (24, 16) else if ty = 2 then (16, 4) else (72, 57)

/-- Whether a role may load the slot. -/
def Dev.mayLoad (d : Dev) (role : Role) (s : Nat) : Bool :=
  let p := d.slotPolicy s
  if d.life = 0 then role == .O && p != 0
  else (p == 1 && roleCode role == d.slotOwner s) || (p == 2 && (roleCode role == d.slotOwner s || role == .S))

/-- The key that a load carries, where its wrapping holds. -/
def Dev.loadedKey (d : Dev) (role : Role) (s : Nat) (v : Bytes) : Option Bytes :=
  let w := byteAt v 0
  let owner := if d.life = 0 then w == 0 else roleCode role == d.slotOwner w
  match (d.keyRec w).active with
  | some k =>
    if (d.slotAttr w).testBit 2 && owner && leAt v 1 3 == 0 then
      match keyUnwrap k (v.drop 4) with
      | some x => if x.length = (wrappedLen (d.slotType s)).2 then some x else none
      | none => none
    else none
  | none => none

/-- The refusals of a load. -/
def keyLoadRules (d : Dev) (role : Role) (s : Nat) (v : Bytes) : Rules :=
  { atLen := if d.slotUsed s && s != 8 && v.length != 4 + (wrappedLen (d.slotType s)).1 then 7 else 0
    atRange := if d.slotUsed s && s != 8 && d.mayLoad role s && (d.loadedKey role s v).isSome then 0 else 8 }

/-- The effect of a load: the pending half, and a new challenge. -/
def effLoadKey (role : Role) (s : Nat) (v : Bytes) (d : Dev) : Dev :=
  renewChallenge s (d.setKey s { d.keyRec s with pend := d.loadedKey role s v })

/-- A write to .04 of a slot. -/
def writeLoadKey (role : Role) (s : Nat) (v : Bytes) (d : Dev) : Dev :=
  writeObj role (slotObj s) 4 (.raw v) (keyLoadRules d role s v) (effLoadKey role s v) d

def execLoadPending (role : Role) (slot : Fin 128) (v : Bytes) (s : State) : Out := onDev (writeLoadKey role slot v) s

/-- Whether a role may generate in slot 8. -/
def Dev.mayGenerate (d : Dev) (role : Role) : Bool := role == .M || (role == .O && d.life == 0)

/-- The refusals of a generation. -/
def generateRules (d : Dev) (role : Role) (s v : Nat) : Rules :=
  { atDir := if v = 1 && s = 8 && !d.mayGenerate role then 3 else 0, atRange := if d.slotUsed s && s = 8 then 0 else 8 }

/-- An Ed448 key pair in the pending half of slot 8; a proven one that waits for its switch is given up. -/
def effGenerate (v : Nat) (d : Dev) : Dev :=
  d.when (v == 1) fun d =>
    let z := { d with reads := { d.reads with switchDue := false } }.freshBytes 57
    renewChallenge 8 (z.2.setKey 8 { z.2.keyRec 8 with pend := some z.1 })

/-- A write to .08 of a slot. -/
def writeGenerate (role : Role) (s v : Nat) (d : Dev) : Dev :=
  writeObj role (slotObj s) 8 (.num v) (generateRules d role s v) (effGenerate v) d

def execGenerate (role : Role) (slot : Fin 128) (v : Nat) (s : State) : Out := onDev (writeGenerate role slot v) s

/-! ## Proofs and the switch (20 R571 to R574) -/

/-- The length of a proof. -/
def proofLen (ty : Nat) : Nat := if ty = 4 then 114 else 16

/-- Whether a proof is right for the pending key and the current challenge (20 R568). For slot 8 the part checks first the signature that it has
placed at .05 after the pending public key (20 R570). -/
def Dev.proofRight (d : Dev) (s : Nat) (v : Bytes) : Bool :=
  let r := d.keyRec s
  match r.pend, r.challenge with
  | some k, some c =>
    let ty := d.slotType s
    let g := d.nextGen s
    let sb := natLE 1 s
    if ty = 1 then v == padTo 16 (aesCmac k (c ++ sb ++ g))
    else if ty = 2 then v == padTo 16 (shake256 16 (c ++ sb ++ k))
    else if ty = 4 then ed448Verify k keyContext (c ++ sb ++ g) v
    else
      let p := padTo 57 (ed448Public k)
      ed448Verify p keyContext (c ++ sb ++ g) (sliceB (d.getB (slotObj s) 5) 73 114) && v == padTo 16 (shake256 16 (c ++ p))
  | _, _ => false

/-- The source index of a role key's highest number, for slots 16 to 19. -/
def roleKeySub (s : Nat) : Nat := s - 15

/-- KEY_SWITCH (20 R571, R573, R574): one commit; the role's highest number returns to 0; a kind-6 reading is signed with the old key of
slot 8. Under a supply warning, where no reading is captured, and while the queue of readings is full, that switch waits (log entry 96). -/
def keySwitch (s : Nat) (d : Dev) : Dev :=
  let r := d.keyRec s
  if s = 8 && d.readingsWait 1 then { d with reads := { d.reads with switchDue := true } } else
  let d := d.when (s == 8) fun d =>
    match r.active with
    | some _ =>
      let d := tickReadings d
      let pub := halfIdent 3 r.pend
      let d := d.capture { kind := 6, meter := 0xFF, time := d.effTick, utc := if d.civil.valid then d.civilAt d.effTick else (0, 0),
                           acc1 := 0, acc2 := 0, subject := some pub }
      let g := d.get 0x4D80 4
      (d.set 0x4D80 4 ((g + 1) % 65536)).eventEff 0x0017 0xFF 0 (natLE 2 g) (natLE 2 ((g + 1) % 65536))
    | none =>
      let g := d.get 0x4D80 4
      (d.set 0x4D80 4 ((g + 1) % 65536)).eventEff 0x0017 0xFF 0 (natLE 2 g) (natLE 2 ((g + 1) % 65536))
  let g := d.get (slotObj s) 7
  let d := (d.setKey s { active := r.pend, pend := none, challenge := none }).set (slotObj s) 7 (min (2 ^ 32 - 1) (g + 1))
  let d := d.set (slotObj s) 0xC d.effTick
  let d := d.when (decide (16 ≤ s ∧ s ≤ 19)) fun d =>
    { d.set 0x1104 (roleKeySub s) 0 with dict := { d.dict with srcs := tdel d.dict.srcs (s - 16) } }
  (d.raiseEv 17).skein { kind := 3, ev := some 17, ix := slotObj s, sub := 6, before := natLE 4 g, after := natLE 4 (g + 1) }

/-- Whether a role may prove the key of slot `s` (20 R571). -/
def Dev.mayProve (d : Dev) (role : Role) (s : Nat) : Bool := if s = 8 then d.mayGenerate role else d.mayLoad role s

/-- The refusals of a proof, the proof itself apart. -/
def proofRules (d : Dev) (role : Role) (s : Nat) (v : Bytes) : Rules :=
  { atLen := if d.slotUsed s && v.length != proofLen (d.slotType s) then 7 else 0
    atRange := if d.slotUsed s && d.mayProve role s then 0 else 8 }

/-- A write to .06 of a slot: a wrong proof renews the challenge and is counted. -/
def writeProof (role : Role) (s : Nat) (v : Bytes) (d : Dev) : Dev :=
  let st := writeStatus d role (slotObj s) 6 (.raw v) (proofRules d role s v)
  d.when (d.acts (slotObj s)) fun d =>
    if st != 0 then d.answer st
    else if d.proofRight s v then (keySwitch s d).answer 0
    else ((renewChallenge s d).satInc 32 (slotObj s) 0xA 1).answer 8

def execProof (role : Role) (slot : Fin 128) (v : Bytes) (s : State) : Out := onDev (writeProof role slot v) s

/-- Erase both halves of a slot; with slot 8 the key of the readings still unsigned is gone (20 R575). -/
def destroySlot (s : Nat) (d : Dev) : Dev :=
  let d := d.when (s == 8) fun d => { d with reads := { d.reads with switchDue := false, queue := d.reads.queue.map fun r => if r.sig.isNone then { r with key := [] } else r } }
  d.setKey s {}

/-- The refusals of a destruction (20 R575). -/
def destroyRules (d : Dev) (role : Role) (s v : Nat) : Rules :=
  let own := roleCode role == d.slotOwner s || role == .S
  { atDir := if v = 1 && d.slotUsed s && !own then 3 else 0
    atLife := if v = 1 && d.isSealed && (s = 8 || s = 17 || s = 18) then 4 else 0
    atRange := if d.slotUsed s then 0 else 8 }

/-- A write to .09 of a slot (20 R575). -/
def writeDestroy (role : Role) (s v : Nat) (d : Dev) : Dev :=
  writeObj role (slotObj s) 9 (.num v) (destroyRules d role s v) (fun d => d.when (v == 1) (destroySlot s)) d

def execDestroy (role : Role) (slot : Fin 128) (v : Nat) (s : State) : Out := onDev (writeDestroy role slot v) s

/-! ## The lifecycle (20 R576 to R579) -/

/-- Roles that may make a transition, as a mask; none where it does not exist (20 R577). -/
def transRoles (src dst : Nat) : Option Nat :=
  if src = 0 && dst = 1 then some 2
  else if (src = 1 || src = 2) && dst = 3 then some 24
  else if src = 3 && dst = 2 then some 8
  else if (src = 1 || src = 2 || src = 3) && dst = 4 then some 20
  else none

/-- The conditions of a transition. -/
def Dev.transOk (d : Dev) (dst : Nat) : Bool :=
  if dst = 1 then [1, 2, 3, 4, 5, 6, 8, 16, 17, 18, 19].all fun s => (d.key s).isSome
  else if dst = 2 then (d.key 8).isSome && (List.range 288).all fun c => d.get (calIx c) 0xE % 4 != 1
  else if dst = 4 then (List.range 32).all fun o => decide (d.step o ≤ 1)
  else true

/-- The refusals of a transition request. -/
def transRules (d : Dev) (role : Role) (dst : Nat) : Rules :=
  match transRoles d.life dst with
  | some m => { atDir := if Nat.land m (roleMask role) != 0 then 0 else 3, atRange := if d.transOk dst then 0 else 8 }
  | none => { atRange := 8 }

/-- The final readings of a transition to Retired, of every meter whose kind is not 0 (20 R579). -/
def finalReadings (d : Dev) : Dev × List Nat :=
  let d := closeReadings d
  let e := each 36 (fun m d => if d.get (meterIx m) 1 != 0 then d.captureNow 1 m 0 else d) d
  (e, (List.range (e.reads.next - d.reads.next)).map fun i => d.reads.next + i)

/-- The effect of a request: it waits for its tick of effect; one to Retired takes the final readings, under a supply warning after its end and
when the queue has room for them (20 R579; 09 R294; log entry 96). -/
def effTransition (role : Role) (dst : Nat) (d : Dev) : Dev :=
  let last := dst == 4 && d.signs
  let wait := d.readingsWait 36
  let z := if last && !wait then finalReadings d else (d, [])
  { z.1 with trans := some { target := dst, role := roleCode role, readings := z.2, signed := dst != 4 || last, owed := last && wait } }

/-- What a supply warning or a full queue held up: the final readings, and the switch of slot 8 (log entry 96). -/
def readingsResume (d : Dev) : Dev :=
  let d := match d.trans with
    | some t => if t.owed && !d.readingsWait 36 then (let z := finalReadings d; { z.1 with trans := some { t with readings := z.2, owed := false } }) else d
    | none => d
  if d.reads.switchDue && !d.readingsWait 1 then keySwitch 8 { d with reads := { d.reads with switchDue := false } } else d

/-- A write to 0x2200.02; while a transition waits, a request is not checked (20 R578). -/
def writeTransition (role : Role) (dst : Nat) (d : Dev) : Dev :=
  d.when d.trans.isNone (writeObj role 0x2200 2 (.num dst) (transRules d role dst) (effTransition role dst))

def execProvision (role : Role) (s : State) : Out := onDev (writeTransition role 1) s
def execSeal (role : Role) (s : State) : Out := onDev (writeTransition role 2) s
def execEnterService (role : Role) (s : State) : Out := onDev (writeTransition role 3) s
def execRetire (role : Role) (s : State) : Out := onDev (writeTransition role 4) s

/-- LIFECYCLE_TRANSITION: the commit, the slots destroyed, event 0x0015, EV16, and event 0x000E on entry to Sealed. -/
def lifecycleTransition (d : Dev) : Dev :=
  match d.trans with
  | none => d
  | some t =>
    d.when (!t.owed && t.readings.all fun n => !(d.reads.queue.any fun r => r.number == n)) fun d =>
      let old := d.life
      let d := { d with trans := none }.set 0x2200 1 t.target
      let d := each 128 (fun s d => if d.slotUsed s && (d.slotAttr s).testBit (16 + t.target) then destroySlot s d else d) d
      let d := d.eventEff 0x0015 t.role 0 (natLE 1 old) (natLE 1 t.target ++ natLE 1 (b2n (!t.signed)))
      let d := (((d.raiseEv 16).satInc 32 0x2200 3 1).set 0x2200 4 d.effTick)
      d.when (t.target == 2) fun d =>
        let d := { d with reads := { d.reads with sealDigest := (calDigest d).take 4 } }
        (d.eventDataEff 0x000E t.role 0 (calDigest d ++ (List.range 288).flatMap fun c => natLE 4 (d.get (calIx c) 0xA))).satInc 32 0x2200 5 1

/-- Challenges are renewed at every start (20 R571). -/
def keysRestart (d : Dev) : Dev := each 128 (fun s d => if d.slotUsed s then renewChallenge s d else d) d

end Sys2Proof.Machine
end

