-- ==== Sys2Proof/Machine/Update.lean ====
section
/-! DEFINITION. Firmware update: images and their blocks, the chain around the ring, metrology pieces, and activation (20 R580 to
R597). -/
namespace Sys2Proof.Machine

/-- The object of image kind `k`. -/
def imageIx (k : Nat) : Nat := 0x2310 + k
/-- The images of kind `k`. -/
def Dev.image (d : Dev) (k : Nat) : ImageRec := tget {} d.upd.images k
/-- The part with the images of kind `k` set. -/
def Dev.setImage (d : Dev) (k : Nat) (r : ImageRec) : Dev := { d with upd := { d.upd with images := tset d.upd.images k r } }
/-- The header of the active image. -/
def Dev.activeHeader (d : Dev) (k : Nat) : Bytes := (d.image k).active.getD (Config.factoryHeader k)

/-- The longest body of a kind (20 R580). -/
def longestBody (k : Nat) : Nat := if k = 1 then 4194048 else if k = 2 then 1048320 else 261888
/-- Blocks of an image with a header. -/
def blockCount (h : Bytes) : Nat := (256 + leAt h 12 4 + 4095) / 4096

/-- Whether the signature of a header of kind `k` verifies (20 R581). -/
def Dev.headerSigned (d : Dev) (k : Nat) (h : Bytes) : Bool :=
  match d.key (if k = 3 then 2 else 1) with
  | some pk => ed448Verify pk (asciiB "xaeth-im") (h.take 88) (sliceB h 88 114)
  | none => false

/-- Whether an activation of kind `k` waits, pauses or confirms. -/
def Dev.activatingKind (d : Dev) (k : Nat) : Bool := d.activating && d.get 0x2300 2 % 4 == k

/-- Accept or refuse a header (20 R582): 0 accepted, 1 not above the floor, 2 refused. -/
def Dev.headerResult (d : Dev) (k : Nat) (h : Bytes) : Nat :=
  if !d.headerSigned k h || byteAt h 4 != k || longestBody k < leAt h 12 4 then 2
  else if leAt h 8 4 ≤ d.get (imageIx k) 3 then 1 else 0

/-- Erase the sector of 64 KiB of block `no` where it is the first block of the transfer that falls in it (20 R582). -/
def eraseSector (no : Nat) (x : ImageRec) : ImageRec :=
  if x.erased.contains (no / 16) then x
  else { x with blocks := x.blocks.filter fun e => e.1 / 16 != no / 16, erased := x.erased ++ [no / 16] }

/-- Program block `no`. -/
def putBlock (no : Nat) (b : Bytes) (x : ImageRec) : ImageRec :=
  let x := eraseSector no x
  { x with blocks := tset x.blocks no b, stored := if x.stored.contains no then x.stored else x.stored ++ [no] }

/-- The images of kind `k`, with the blocks stored shown. -/
def Dev.putImage (d : Dev) (k : Nat) (x : ImageRec) : Dev := (d.setImage k x).set (imageIx k) 6 x.stored.length

/-- Begin a transfer with an accepted header and its first blocks: the slot's earlier content counts no more. -/
def startImage (k : Nat) (h : Bytes) (blocks : Tab Bytes) (d : Dev) : Dev :=
  let x := { d.image k with header := h, stored := [], erased := [], running := true, origin := none }
  let d := (d.set (imageIx k) 2 (leAt h 8 4)).set (imageIx k) 5 1
  (d.putImage k (blocks.foldl (fun x b => putBlock b.1 b.2 x) x)).set (imageIx k) 7 (min 65535 (blockCount h))

/-- Whether the flash cannot program a block of the inactive slot of kind `k`. -/
def Dev.flashFails (d : Dev) (k no : Nat) : Bool := d.upd.flashBad.contains (k, 1 - d.get (imageIx k) 4, no)

/-- Store a block (20 R582): the result of R584 and the part. -/
def storeBlock (k no : Nat) (b : Bytes) (d : Dev) : Nat × Dev :=
  if no = 0 then
    let h := padTo 256 b
    let r := d.headerResult k h
    if r != 0 then (r, d)
    else if d.flashFails k 0 then (4, startImage k h [] d)
    else (0, startImage k h [(0, b)] d)
  else
    let x := d.image k
    if !x.running || blockCount x.header ≤ no then (3, d)
    else if d.flashFails k no then (4, d.setImage k (eraseSector no x))
    else (0, d.putImage k (putBlock no b x))

/-! ## The chain around the ring (20 R585, R586) -/

/-- The successor of the part: the next position above its own among those seen, wrapping. -/
def Dev.successor (d : Dev) : Option Nat :=
  ((List.range 7).map fun i => (d.position + 1 + i) % 8).find? fun p => d.bitO 0x2668 1 p

/-- Send or queue a ring block; no more than 16 wait for their acknowledgement. -/
def sendRingBlock (dst : Nat) (payload : Bytes) (d : Dev) : Dev :=
  let x : RingBlk := { dst := dst, at' := d.now, payload := payload }
  if d.upd.unacked.length < 16 then
    { d.ringSend 0x30 dst payload with upd := { d.upd with unacked := d.upd.unacked ++ [x] } }
  else { d with upd := { d.upd with waiting := d.upd.waiting ++ [x] } }

/-- The payload of a type 0x30 frame. -/
def ringBlockPayload (k origin no : Nat) (h b : Bytes) : Bytes :=
  natLE 1 k ++ natLE 1 origin ++ zeros 2 ++ natLE 4 (leAt h 8 4) ++ natLE 4 no ++ natLE 4 (blockCount h)
    ++ padTo 16 (shake256 16 h) ++ zeros 32 ++ padTo 4096 b

/-- The payload of a type 0x31 frame. -/
def ringAckPayload (k res no version : Nat) : Bytes := natLE 1 k ++ natLE 1 res ++ zeros 2 ++ natLE 4 no ++ natLE 4 version

/-- A block taken from the dictionary or Hank channel 8: stored, and forwarded as the origin of the chain. -/
def takeBlockLocal (k no : Nat) (b : Bytes) (d : Dev) : Nat × Dev :=
  let z := storeBlock k no b d
  if z.1 = 0 && z.2.get 0x2330 2 = 1 then
    match z.2.successor with
    | some p =>
      let d := z.2
      let d := if no = 0 then d.set 0x2330 3 0 else d
      (0, sendRingBlock p (ringBlockPayload k d.position no (d.image k).header b) d)
    | none => z
  else z

/-- The refusals of a block by the dictionary (20 R584; 00 R3): kind 3, a byte of 1 to 3 that is not 0, a kind that is being activated, and every result but 0. -/
def blockRules (d : Dev) (v : Bytes) : Rules :=
  let k := byteAt v 0
  { atRange := if (k != 1 && k != 2) || leAt v 1 3 != 0 then 8
      else if d.activatingKind k then 0x0E
      else if (storeBlock k (leAt v 4 4) (v.drop 8) d).1 = 0 then 0 else 8 }

/-- A write to 0x2330.01. -/
def effBlock (v : Bytes) (d : Dev) : Dev := (takeBlockLocal (byteAt v 0) (leAt v 4 4) (v.drop 8) d).2

/-- A write to 0x2330.01 with its checks. -/
def writeBlock (role : Role) (v : Bytes) (d : Dev) : Dev := writeObj role 0x2330 1 (.raw v) (blockRules d v) (effBlock v) d

def execImageBlock (role : Role) (v : Bytes) (s : State) : Out := onDev (writeBlock role v) s

/-- A type 0x80 record of Hank channel 8, answered with a type 0x81 record. -/
def hankBlock (no : Nat) (p : Bytes) (d : Dev) : Dev :=
  let k := byteAt p 0
  let z := if k != 1 && k != 2 then (2, d) else if d.activatingKind k then (3, d) else takeBlockLocal k no (p.drop 4) d
  z.2.stream 8 ⟨0x81, no, natLE 1 k ++ natLE 1 z.1 ++ zeros 2 ++ natLE 4 (z.2.get (imageIx k) 6)⟩

/-- UPDATE_BLOCK: a type 0x30 frame: acknowledged, stored or not needed, and forwarded unless the successor is the origin. A block
other than block 0 belongs to the transfer that runs only with its version and its header's digest; a block of a kind that is being activated is
refused (log entry 60). -/
def updateBlock (src : Nat) (p : Bytes) (d : Dev) : Dev :=
  let k := byteAt p 0
  let origin := byteAt p 1 % 8
  let no := leAt p 8 4
  let ver := leAt p 4 4
  d.when (d.running && (k == 1 || k == 2) && p.length == 4160) fun d =>
    let h := (d.image k).header
    let z := if d.activatingKind k then (3, d)
      else if no = 0 then storeBlock k 0 (p.drop 64) d
      else if ver ≤ d.get (imageIx k) 3 then (1, d)
      else if leAt h 8 4 = ver && sliceB p 16 16 == padTo 16 (shake256 16 h) then storeBlock k no (p.drop 64) d
      else (3, d)
    let d := z.2.ringSend 0x31 src (ringAckPayload k z.1 no ver)
    let d := if z.1 = 0 then d.setImage k { d.image k with origin := some origin } else d
    let d := if z.1 = 1 && no = 0 then d.ringSend 0x31 origin (ringAckPayload k 1 0xFFFFFFFF ver) else d
    match d.successor with
    | some q => if q = origin || 1 < z.1 then d else sendRingBlock q p d
    | none => d

def execUpdateBlock (_p : Fin 2) (src : Fin 8) (payload : Bytes) (s : State) : Out := onDev (updateBlock src payload) s

/-- UPDATE_ACKNOWLEDGEMENT: a block taken, or a part finished. -/
def updateAck (src : Nat) (p : Bytes) (d : Dev) : Dev :=
  d.when d.running fun d =>
    if leAt p 4 4 = 0xFFFFFFFF then d.setBitO 0x2330 3 src true
    else
      let d := { d with upd := { d.upd with
        unacked := d.upd.unacked.filter fun x => !(x.dst == src && byteAt x.payload 0 == byteAt p 0 && leAt x.payload 8 4 == leAt p 4 4) } }
      match d.upd.waiting with
      | x :: rest => if d.upd.unacked.length < 16 then sendRingBlock x.dst x.payload { d with upd := { d.upd with waiting := rest } } else d
      | [] => d

def execUpdateAcknowledgement (src : Fin 8) (payload : Bytes) (s : State) : Out := onDev (updateAck src payload) s

/-- RING_BLOCK_RESEND: every block without an acknowledgement for 64 ticks. -/
def ringResend (d : Dev) : Dev :=
  d.when d.running fun d =>
    let late := d.upd.unacked.filter fun x => decide (x.at' + 64 ≤ d.now)
    let d := late.foldl (fun d x => (d.ringSend 0x30 x.dst x.payload).satInc 32 0x2330 4 1) d
    { d with upd := { d.upd with unacked := d.upd.unacked.map fun x => if x.at' + 64 ≤ d.now then { x with at' := d.now } else x } }

def execRingBlockResend (s : State) : Out := onDev ringResend s

/-! ## Verification (20 R582) -/

/-- The body that the blocks hold. -/
def imageBody (x : ImageRec) : Bytes :=
  (((List.range (blockCount x.header)).flatMap fun i => padTo 4096 (tget [] x.blocks i)).drop 256).take (leAt x.header 12 4)

/-- IMAGE_VERIFICATION of kind `k`: every block is stored. -/
def verifyImage (k : Nat) (d : Dev) : Dev :=
  let x := d.image k
  d.when (d.running && x.running && x.stored.length == blockCount x.header) fun d =>
    let ok := padTo 64 (shake256 64 (imageBody x)) == sliceB x.header 24 64
    let st := if ok then 2 else 3
    let d := (d.setImage k { x with running := false }).set (imageIx k) 5 st
    let d := (d.raiseEv 18).skein { kind := 3, ev := some 18, ix := imageIx k, sub := 5, before := natLE 1 1, after := natLE 1 st }
    match x.origin with
    | some o => d.ringSend 0x31 o (ringAckPayload k (if ok then 0 else 4) 0xFFFFFFFF (leAt x.header 8 4))
    | none => if d.successor.isSome && d.get 0x2330 2 = 1 && k != 3 then d.setBitO 0x2330 3 d.position true else d

def execImageVerification (k : Fin 3) (s : State) : Out := onDev (verifyImage (k + 1)) s

/-! ## Metrology pieces (20 R587, R588) -/

/-- The received-piece bitmap from the pieces held. -/
def pieceBitmap (ps : Tab Bytes) : Bytes :=
  (List.range 512).map fun i => BitVec.ofNat 8 (maskOf ((List.range 8).map fun b => thas ps (8 * i + b)))

/-- Show the transfer in 0x2320. -/
def showPieces (d : Dev) : Dev :=
  (d.set 0x2320 3 d.upd.pieces.length).setB 0x2320 4 (pieceBitmap d.upd.pieces)

/-- End the metrology transfer. -/
def endPieces (d : Dev) : Dev :=
  showPieces (({ d with upd := { d.upd with pieces := [] } }.set 0x2320 1 0).set 0x2320 2 0)

/-- The image header that pieces 0 to 3 hold. -/
def pieceHeader (ps : Tab Bytes) : Bytes := (List.range 4).flatMap fun i => padTo 64 (tget [] ps i)

/-- Store an accepted piece; the header is checked with pieces 0 to 3, and the image is copied with the last. -/
def acceptPiece (ver no count : Nat) (data : Bytes) (d : Dev) : Dev :=
  let d := if d.get 0x2320 1 < ver then
      ({ d with upd := { d.upd with pieces := [] } }.set 0x2320 1 ver).set 0x2320 2 count
    else d
  let d := showPieces ({ d with upd := { d.upd with pieces := tset d.upd.pieces no data } }.set 0x2320 6 d.now)
  let ps := d.upd.pieces
  let h := pieceHeader ps
  if no < 4 && (List.range 4).all (fun i => thas ps i) && d.headerResult 3 h != 0 then endPieces d
  else if ps.length = d.get 0x2320 2 && (List.range 4).all fun i => thas ps i then
    let bytes := (ps.map Prod.snd).flatMap fun b => padTo 64 b
    let blocks := (List.range (blockCount h)).map fun i => (i, sliceB bytes (4096 * i) 4096)
    startImage 3 h blocks d
  else d

/-- One piece record: refused and counted, or accepted. -/
def onePiece (r : Bytes) (d : Dev) : Dev :=
  let ver := leAt r 0 4
  let no := leAt r 4 2
  let count := leAt r 6 2
  let good := match d.key 17 with
    | some k => sliceB r 72 8 == padTo 8 (aesCmac k (r.take 72))
    | none => false
  let have' := d.get 0x2320 1
  let cnt := if have' < ver then count else d.get 0x2320 2
  if !good || ver ≤ d.get (imageIx 3) 3 || ver < have' || cnt ≤ no || 4096 < cnt || d.activatingKind 3 then d.satInc 32 0x2320 5 1
  else if have' = ver && thas d.upd.pieces no then d
  else acceptPiece ver no count (sliceB r 8 64) d

/-- METROLOGY_IMAGE_PIECE: the 1 to 16 records of a type 0x02 frame. -/
def imagePieces (p : Bytes) (d : Dev) : Dev :=
  d.when (d.running && p.length % 80 == 0 && decide (1 ≤ p.length / 80 ∧ p.length / 80 ≤ 16)) fun d =>
    (chunks 80 (p.length / 80) p).foldl (fun d r => onePiece r d) d

def execMetrologyImagePiece (_l : Fin 3) (payload : Bytes) (s : State) : Out := onDev (imagePieces payload) s

/-! ## Activation (20 R590 to R592) -/

/-- The refusals of an activation. -/
def activateRules (d : Dev) (role : Role) (v : Bytes) : Rules :=
  let k := byteAt v 0
  let who := if k = 3 then role == .U else if k = 1 || k = 2 then role == .O || role == .S else true
  let idle := (List.range 32).all fun o => decide (d.step o ≤ 1)
  let sto := (List.range 4).all fun a => d.bitO (0x6800 + a) 0x30 0
  { atDir := if who then 0 else 3
    atRange := if decide (k = 0 ∨ 3 < k ∨ leAt v 1 3 ≠ 0) || d.get (imageIx k) 5 != 2 || d.get (imageIx k) 2 != leAt v 4 4 || d.activating || (k = 2 && !(idle && sto))
      then 8 else 0 }

/-- The effect of an activation: it waits for its pause. -/
def effActivate (role : Role) (v : Bytes) (d : Dev) : Dev :=
  { d with upd := { d.upd with role := roleCode role } }.set 0x2300 2 (byteAt v 0 % 4 + 4)

/-- A write to 0x2300.01. -/
def writeActivate (role : Role) (v : Bytes) (d : Dev) : Dev := writeObj role 0x2300 1 (.raw v) (activateRules d role v) (effActivate role v) d

def execActivate (role : Role) (v : Bytes) (s : State) : Out := onDev (writeActivate role v) s

/-- Show what the running image of kind `k` carries: the version text and the revision for the application. -/
def showImage (k : Nat) (d : Dev) : Dev :=
  let h := d.activeHeader k
  let d := (d.set (imageIx k) 1 (leAt h 8 4)).setB (imageIx k) 0xB (sliceB h 24 64)
  d.when (k == 1) fun d =>
    (d.setB 0x100A 0 (versionText (leAt h 8 4))).set 0x1018 3 (field (d.get 0x1018 3) 16 16 * 65536 + leAt h 8 4 / 65536)

/-- The bytes of a copy of the boot record, over which its CRC goes. -/
def BootCopy.bytes (c : BootCopy) : Bytes := (c.slots.zip c.floors).flatMap fun x => natLE 1 x.1 ++ natLE 4 x.2

/-- Switch the boot record to what 0x2310 + k shows, by writing the copy not in use (20 R580). -/
def writeBoot (d : Dev) : Dev :=
  let c : BootCopy := { slots := [1, 2, 3].map fun k => d.get (imageIx k) 4, floors := [1, 2, 3].map fun k => d.get (imageIx k) 3 }
  let c := some { c with crc := crc32 c.bytes }
  let u := d.upd
  { d with upd := if u.bootUse = 0 then { u with boot := (u.boot.1, c), bootUse := 1 } else { u with boot := (c, u.boot.2), bootUse := 0 } }

/-- Take the active slots and the floors from the boot record: the copy in use, or the other where its CRC does not hold; a part whose boot
record was never switched has them as shipped. -/
def loadBoot (d : Dev) : Dev :=
  let z := if d.upd.bootUse = 0 then d.upd.boot else (d.upd.boot.2, d.upd.boot.1)
  let good (c : BootCopy) : Bool := crc32 c.bytes == c.crc
  match (z.1.toList.filter good ++ z.2.toList.filter good).head? with
  | some c => each 3 (fun i d => (d.set (imageIx (i + 1)) 4 (c.slots.getD i 0)).set (imageIx (i + 1)) 3 (c.floors.getD i 0)) d
  | none => d

/-- Exchange the two slots of kind `k`; the slot left is in state `st`. -/
def swapImage (k st : Nat) (d : Dev) : Dev :=
  let x := d.image k
  let old := d.activeHeader k
  let d := d.setImage k { x with
    active := some x.header, activeBlocks := x.blocks, header := old, blocks := x.activeBlocks, stored := [], erased := [], running := false }
  let d := ((d.set (imageIx k) 4 (1 - d.get (imageIx k) 4)).set (imageIx k) 2 (leAt old 8 4)).set (imageIx k) 5 st
  let d := if k = 3 then { d with upd := { d.upd with noMetrology := false } }
    else if k = 2 then { d with upd := { d.upd with noIsland := false } } else d
  showImage k (writeBoot d)

/-- ACTIVATION_PAUSE: the boot record switches at the first tick of the pause; that of kind 3 lies at least 10 ms after a whole
second of civil time. -/
def activationPause (d : Dev) : Dev :=
  let k := d.get 0x2300 2 % 4
  let late := !d.civil.valid || decide (10 * 2 ^ 32 ≤ (d.civilAt d.effTick).2 * 1000)
  d.when (d.running && d.get 0x2300 2 == k + 4 && (k != 3 || late)) fun d =>
    let d := swapImage k 4 d
    { d with upd := { d.upd with since := d.effTick } }.set 0x2300 2 (k + 8)

def execActivationPause (s : State) : Out := onDev activationPause s

/-- The bound of a pause in ticks (20 R591). -/
def pauseBound (k : Nat) : Nat := if k = 1 then 11200 else if k = 3 then 6400 else 3200

/-- ACTIVATION_CONFIRMED after a pause of so many microseconds: the floor rises, event 0x0016, EV19. -/
def activationConfirmed (micros : Nat) (d : Dev) : Dev :=
  let k := d.get 0x2300 2 % 4
  d.when (decide (8 ≤ d.get 0x2300 2) && !d.upd.back) fun d =>
    let old := d.get (imageIx k) 2
    let new := d.get (imageIx k) 1
    let d := (writeBoot (d.set (imageIx k) 3 (max new (d.get (imageIx k) 3)))).eventEff 0x0016 d.upd.role k (natLE 4 old) (natLE 4 new)
    let d := ((d.satInc 32 (imageIx k) 8 1).set (imageIx k) 9 d.effTick).set (imageIx k) 0xA micros
    (d.raiseEv 19).set 0x2300 2 0

/-- ACTIVATION_REVERT: no confirmation in the bound plus 100 ms; the old image again after a second pause, and the new slot failed. -/
def activationRevert (d : Dev) : Dev :=
  let k := d.get 0x2300 2 % 4
  d.when (decide (8 ≤ d.get 0x2300 2 ∧ d.upd.since + pauseBound k + 3200 ≤ d.effTick) && !d.upd.back) fun d =>
    let new := d.get (imageIx k) 1
    let d := swapImage k 3 d
    let d := (d.eventEff 0x0016 d.upd.role (k + 256) (natLE 4 (d.get (imageIx k) 1)) (natLE 4 new)).set 0x2300 2 (k + 8)
    { d with upd := { d.upd with since := d.effTick, back := true } }

/-- The activation in a tick: a pause that has lasted its bound confirms, the second one ends. -/
def activationTick (d : Dev) : Dev :=
  let k := d.get 0x2300 2 % 4
  d.when (d.pausing k && decide (d.upd.since + pauseBound k ≤ d.now)) fun d =>
    if d.upd.back then { d with upd := { d.upd with back := false } }.set 0x2300 2 0 else d.set 0x2300 2 (k + 12)

end Sys2Proof.Machine
end

