-- ==== Sys2Proof/Machine/Objects.lean ====
section
/-! DEFINITION. The dictionary's objects as a whole: the refusals and the effect of a write to any object, and the value of any
object (chapter 02; each object's own chapter). -/
namespace Sys2Proof.Machine

/-- COMMAND_WARM_RESET: a write of 1 to 0x2100.09 (09 R301); the reset comes at the end of the first tick whose H4 completes after
it. -/
def effWarmReset (d : Dev) : Dev := { d with supply := { d.supply with resetDue := true } }

/-- Whether an index lies in a run of `n` indices from `base` on. -/
def inRun (ix base n : Nat) : Bool := decide (base ≤ ix ∧ ix < base + n)

/-- The refusals of a write to a Bobbin slot object. -/
def slotRules (d : Dev) (role : Role) (s sub : Nat) (b : Bytes) : Rules :=
  if sub = 4 then keyLoadRules d role s b
  else if sub = 6 then proofRules d role s b
  else if sub = 8 then generateRules d role s (leNat b)
  else if sub = 9 then destroyRules d role s (leNat b)
  else {}

/-- The refusals of a write to an object of a meter, judged on the values `aft` that hold after the request (05 R165, 07 R229). -/
def meterObjRules (aft : Dev) (m off sub : Nat) : Rules :=
  if off ≤ 4 then meterRules aft else if off = 8 then billingRules aft m sub else {}

/-- The refusals that an object's own chapter states for a write of the bytes `b`; `aft` holds every entry of the request, `seg` says that
the bytes came by segmented transfer. -/
def objRules (d aft : Dev) (role : Role) (ix sub : Nat) (b : Bytes) (seg : Bool) : Rules :=
  let n := leNat b
  if ix = 0x1102 then { atLen := if seg then 0 else 0xF }
  else if ix = 0x2200 then transRules d role n
  else if inRun ix 0x2280 128 then slotRules d role (ix - 0x2280) sub b
  else if ix = 0x2300 then activateRules d role b
  else if ix = 0x2330 then (if sub = 1 then blockRules d b else {})
  else if ix = 0x2630 then hankCapRules d b
  else if inRun ix 0x2680 36 then linkRules d (ix - 0x2680) sub n
  else if inRun ix 0x3000 288 then chanRules aft (ix - 0x3000)
  else if inRun ix 0x3400 128 then bankRules d ((ix - 0x3400) / 16) (ix % 16 / 2) (ix % 2) b seg
  else if inRun ix 0x3480 4 then (if sub = 2 then swapRules d (ix - 0x3480) b else { atLife := if d.inService then 0 else 4 })
  else if inRun ix 0x34C0 4 then lockRules aft sub n
  else if inRun ix 0x3600 288 then (if sub = 0xD then {} else calRules aft)
  else if inRun ix 0x4000 0x900 then meterObjRules aft ((ix - 0x4000) / 64) (ix % 64) sub
  else if inRun ix 0x4A00 64 then (if sub = 2 then calendarRules b seg else {})
  else if ix = 0x4A90 then
    (if sub = 2 then stepRules d b else if sub = 0x12 || sub = 0x13 then { atRange := if dstRuleOk n then 0 else 8 } else {})
  else if ix = 0x4C00 then (if sub = 3 then snapshotRules d else {})
  else if inRun ix 0x4D90 36 then (if sub = 2 then readingRules d n else {})
  else if inRun ix 0x5000 0x400 then
    (if ix % 32 = 0 then outletRules d aft ((ix - 0x5000) / 32) sub n
     else if ix % 32 = 2 then controlRules d ((ix - 0x5000) / 32) sub n else {})
  else if inRun ix 0x6000 32 then protRules d aft role (ix - 0x6000) sub n
  else if inRun ix 0x6100 32 then insRules d aft (ix - 0x6100) sub n
  else if inRun ix 0x6800 4 then axisRules d aft role (ix - 0x6800) sub n
  else if inRun ix 0x7000 64 then loadRules d role (ix - 0x7000) sub n
  else if inRun ix 0x7400 2 then portRules d aft (ix - 0x7400) sub n
  else if inRun ix 0x7408 2 then regionRules d aft role (ix - 0x7408) sub n
  else if inRun ix 0x7410 16 then waveRules d b seg
  else if inRun ix 0x7420 2 then updateRules d aft (ix - 0x7420) (sub - 1) b
  else if ix = 0x7428 then fontRules d b
  else if inRun ix 0x7818 6 then mapRules aft (ix - 0x7818) b
  else if ix = 0x7A20 then (if sub = 1 then listRules d b else {})
  else if inRun ix 0x7A30 16 then jobRules aft (ix - 0x7A30) b
  else {}

/-- The effect of a write to a Bobbin slot object. -/
def effSlot (role : Role) (s sub : Nat) (b : Bytes) (d : Dev) : Dev :=
  if sub = 4 then effLoadKey role s b d
  else if sub = 6 then keySwitch s d
  else if sub = 8 then effGenerate (leNat b) d
  else if sub = 9 then (if leNat b = 1 then destroySlot s d else d)
  else d

/-- The effect of a write to an object of a meter. -/
def effMeterObj (role : Role) (m off sub n : Nat) (d : Dev) : Dev :=
  if off ≤ 4 then effMeter role m off sub n d else if off = 8 then effBilling role m sub n d else d

/-- A setting with its metrology event (07 R229, 08 R281): time zone and snapshot schedule. -/
def effSetting (role : Role) (ix sub n : Nat) (d : Dev) : Dev :=
  let before := d.objBytes ix sub
  let d := d.set ix sub n
  stepNow (d.eventEff 0x000A (roleCode role) (subjObj ix sub) before (d.objBytes ix sub))

/-- A write to civil time and the time zone. -/
def effTime (role : Role) (sub : Nat) (b : Bytes) (d : Dev) : Dev :=
  if sub = 2 then effStepTime role b d else if sub = 3 then effSlew role (leNat b) d else effSetting role 0x4A90 sub (leNat b) d

/-- A write to the drain objects: the backlog drains (21 R612). -/
def effDrain (sub n : Nat) (d : Dev) : Dev := drainSkeinGo 16384 (drainEventsGo 8192 (d.set 0x2400 sub n))

/-- Clear pending event bits (21 R616). -/
def effClear (b : Bytes) (d : Dev) : Dev :=
  each 8 (fun i d => d.set 0x2410 (i + 1) (d.get 0x2410 (i + 1) - Nat.land (d.get 0x2410 (i + 1)) (leAt b (4 * i) 4))) d

/-- A write to an outlet's objects; the identifier of V+0x02.03 is bytes. -/
def effOutletObj (o off sub : Nat) (b : Bytes) (d : Dev) : Dev :=
  if off = 0 then effOutlet o sub (leNat b) d
  else if off = 1 then effLimits o sub (leNat b) d
  else if off = 2 then (if sub = 3 then d.setB (outletIx o + 2) 3 b else effControl o sub (leNat b) d)
  else d.set (outletIx o + off) sub (leNat b)

/-- A write to the display objects. -/
def effDisplay (role : Role) (ix sub : Nat) (b : Bytes) (d : Dev) : Dev :=
  if inRun ix 0x7400 2 then effPort (ix - 0x7400) sub (leNat b) d
  else if inRun ix 0x7408 2 then effRegion (ix - 0x7408) sub (leNat b) d
  else if inRun ix 0x7410 16 then effWave role ((ix - 0x7410) / 8) ((ix - 0x7410) % 8) b d
  else if inRun ix 0x7420 2 then effUpdate (ix - 0x7420) (sub - 1) b d
  else d.setB ix sub b

/-- A write to the mesh objects. -/
def effMesh (ix sub : Nat) (b : Bytes) (d : Dev) : Dev :=
  if ix = 0x7A00 then (if sub ≤ 2 then meshShow (meshClear (d.set ix sub (leNat b))) else meshShow (d.set ix sub (leNat b)))
  else if ix = 0x7A20 then (if sub = 1 then meshShow (effListing b d) else d.set ix sub (leNat b))
  else effJob (ix - 0x7A30) b d

/-- The effect of a write that has passed every check, at its tick of effect (02 R58). -/
def objEff (role : Role) (ix sub : Nat) (b : Bytes) (d : Dev) : Dev :=
  let n := leNat b
  if ix = 0x2100 then effWarmReset d
  else if ix = 0x2200 then effTransition role n d
  else if inRun ix 0x2280 128 then effSlot role (ix - 0x2280) sub b d
  else if ix = 0x2300 then effActivate role b d
  else if ix = 0x2330 && sub = 1 then effBlock b d
  else if ix = 0x2400 then effDrain sub n d
  else if ix = 0x2410 then effClear b d
  else if ix = 0x2500 then effStats n d
  else if inRun ix 0x2510 38 then effReq (ix - 0x2510) sub n d
  else if ix = 0x2580 then d
  else if ix = 0x2630 then effHankCap b d
  else if inRun ix 0x2680 36 then effLink (ix - 0x2680) sub n d
  else if inRun ix 0x3000 288 then effChan role (ix - 0x3000) sub n d
  else if inRun ix 0x3400 128 then effBank role ((ix - 0x3400) / 16) (ix % 16 / 2) (ix % 2) b d
  else if inRun ix 0x3480 4 then (if sub = 2 then effSwap role (ix - 0x3480) b d else effDefaults role (ix - 0x3480) n d)
  else if inRun ix 0x34C0 4 then effLock role (ix - 0x34C0) sub n d
  else if inRun ix 0x3600 288 then (if sub = 0xD then effCapture (ix - 0x3600) n d else effCal role (ix - 0x3600) sub b d)
  else if inRun ix 0x4000 0x900 then effMeterObj role ((ix - 0x4000) / 64) (ix % 64) sub n d
  else if inRun ix 0x49F0 4 then effPulse (ix - 0x49F0) sub n d
  else if inRun ix 0x4A00 64 then
    (if sub = 2 then effCalendar role ((ix - 0x4A00) / 16) b d else effActivation role ((ix - 0x4A00) / 16) n d)
  else if ix = 0x4A90 then effTime role sub b d
  else if ix = 0x4C00 then (if sub = 3 then effSnapshot n d else effSetting role ix sub n d)
  else if inRun ix 0x4D90 36 && sub = 2 then effRequestReading (ix - 0x4D90) n d
  else if ix = 0x4DE0 || ix = 0x4DE1 then effTamper role ix sub n d
  else if inRun ix 0x5000 0x400 then effOutletObj ((ix - 0x5000) / 32) (ix % 32) sub b d
  else if ix = 0x5810 then effCurtail b d
  else if inRun ix 0x6000 32 then effProt (ix - 0x6000) sub n d
  else if inRun ix 0x6100 32 then effIns (ix - 0x6100) sub n d
  else if inRun ix 0x6800 4 then effAxis role (ix - 0x6800) sub n d
  else if inRun ix 0x7000 64 then effLoad (ix - 0x7000) sub n d
  else if inRun ix 0x7400 0x100 then effDisplay role ix sub b d
  else if inRun ix 0x7801 3 then effLane (ix - 0x7801) sub n d
  else if inRun ix 0x7818 6 then effMap role (ix - 0x7818) b d
  else if ix = 0x7820 then effMapTime role n d
  else if inRun ix 0x7A00 0x100 then effMesh ix sub b d
  else if inRun ix 0x7C01 4 then effReader (ix - 0x7C01) sub n d
  else d.store ix sub (.raw b)

/-! ## Reading (02 R47, R59, R83, R632) -/

/-- A source record as 0x1101 shows it; those of the tagged roles are never free (02 R632). -/
def Dev.srcBytes (d : Dev) (r : Nat) : Bytes :=
  let idle (x : SrcRec) : Bytes := natLE 4 (min (2 ^ 32 - 1) ((d.now - x.at') / 32000))
  if r < 4 then padTo 24 [1#8, BitVec.ofNat 8 (r + 1)] ++ natLE 4 (d.get 0x1104 (r + 1)) ++ idle (tget {} d.dict.srcs r)
  else
    match tfind d.dict.srcs r with
    | some x => padTo 24 x.key ++ natLE 4 x.h ++ idle x
    | none => zeros 32

/-- The value of an object in canonical bytes; `p` is the CAN port the read comes from, else 0 (02 R77). -/
def Dev.readObj (d : Dev) (p ix sub : Nat) : Bytes :=
  if ix = 0x1101 && sub != 0 then d.srcBytes (sub - 1)
  else if ix = 0x1200 && (sub = 1 || sub = 2) then natLE 4 ((if sub = 1 then 0x600 else 0x580) + d.get 0x1110 (p + 1))
  else if ix = 0x4A90 && sub = 1 then d.civilObj
  else if ix = 0x4A90 && sub = 0x14 then d.localObj
  else if inRun ix 0x4E40 32 && sub = 0 then
    (match tfind d.bill.sessions (ix - 0x4E40) with
     | some x => sessionBytes d (ix - 0x4E40) x none
     | none => zeros 128)
  else if ix = 0x4DE0 && sub = 4 then natLE 1 (setBit (d.get 0x4DE0 4) 0 d.tamper.clock.isSome)
  else if ix = 0x7A20 && sub = 3 then d.endRecord
  else d.objBytes ix sub

end Sys2Proof.Machine
end

