-- ==== Sys2Proof/Machine/Checks.lean ====
section
/-! DEFINITION. Checks 5 to 12 of a write (02 R55, R60; 04 R136; 20 R571, R578, R594). -/
namespace Sys2Proof.Machine

/-- Whether the part is in recovery (20 R594). -/
def Dev.recovering (d : Dev) : Bool := d.loom == .recovery

/-- Whether a request is a write, plain or by segments, that names an object. -/
def DReq.writes (r : DReq) (ix sub : Nat) : Bool := (r.op == 2 || r.op == 3) && r.entries.any fun e => e.ix == ix && e.sub == sub

/-- Whether an index is reached over Twist (02 R78). -/
def twistReach (ix : Nat) : Bool :=
  inRun ix 0x1100 0x100 || inRun ix 0x2000 0x100 || inRun ix 0x2300 0x100 || inRun ix 0x4800 0x600 || inRun ix 0x5800 0x100 || inRun ix 0x7A00 0x100

/-- Check 5 of one entry. -/
def Dev.reach (d : Dev) (r : DReq) (e : DEntry) : Bool :=
  if d.recovering then r.tag.isNone && (r.op == 2 || r.op == 3) && byteAt e.data 0 == 1 && e.sub == 1 && (e.ix == 0x2330 || e.ix == 0x2300)
  else !r.twist || twistReach e.ix

/-- Whether an entry is a proof that is wrong (20 R571). -/
def Dev.wrongProof (d : Dev) (e : DEntry) : Bool := inRun e.ix 0x2280 128 && e.sub == 6 && !d.proofRight (e.ix - 0x2280) e.data

/-- Checks 5 to 12 of one entry of a write. -/
def entryStatus (d aft : Dev) (r : DReq) (e : DEntry) : Nat :=
  if !d.reach r e then 0x10
  else
    let st := writeStatus d r.role e.ix e.sub (.raw e.data) (objRules d aft r.role e.ix e.sub e.data (r.op == 3))
    if st = 0 && d.wrongProof e then 8 else st

/-- Whether an entry swaps a stage whose bank another entry of the group writes (04 R136). -/
def swapClash (es : List DEntry) (e : DEntry) : Bool :=
  inRun e.ix 0x3480 4 && e.sub == 2 && (List.range 4).any fun s => (byteAt e.data 0).testBit s &&
    es.any fun f => f.ix / 2 == (0x3400 + 16 * (e.ix - 0x3480) + 2 * s) / 2

/-- The statuses of a write: 0 for every entry, or each failing entry's own and 0x11 for the others (02 R60). -/
def writeStatuses (d : Dev) (r : DReq) : List Nat :=
  let aft := r.entries.foldl (fun (a : Dev) e => a.store e.ix e.sub (.raw e.data)) d
  let own := r.entries.map fun e =>
    let st := entryStatus d aft r e
    if st = 0 && swapClash r.entries e then 8 else st
  let own := if 1 < r.entries.length && r.writes 0x2200 2 then r.entries.map fun e => if e.ix = 0x2200 && e.sub = 2 then 8 else 0 else own
  if own.all fun s => s == 0 then own else own.map fun s => if s = 0 then 0x11 else s

/-- Whether a request names an object whose writes are judged again at their tick of effect, because another write may have taken effect since: channels,
temperature sources and meters (04 R119; 05 R163; 06 R199), protection, insulation and axes (11 R366 to R368; 12 R381, R396), display updates
(14 R425; log entry 44). -/
def DReq.judgedAgain (r : DReq) : Bool := r.entries.any fun e =>
  inRun e.ix 0x3000 288 || inRun e.ix 0x34C0 4 || (inRun e.ix 0x3600 288 && e.sub == 5) || (decide (0x4000 ≤ e.ix ∧ e.ix < 0x4900) && decide (e.ix % 64 < 5))
    || inRun e.ix 0x6000 32 || inRun e.ix 0x6100 32 || inRun e.ix 0x6800 4 || inRun e.ix 0x7400 256

/-- The statuses of a write at its tick of effect. -/
def Dev.effectStatuses (d : Dev) (r : DReq) : List Nat :=
  if r.judgedAgain then writeStatuses d r else r.entries.map fun _ => 0

end Sys2Proof.Machine
end

