-- ==== Sys2Proof/Machine/Supply.lean ====
section
/-! DEFINITION. Starts, the supply monitor, the power-fail save, the kinds of reset and the outputs while the Loom die is not in
control (chapter 09; 07 R261 to R266, R258; 01 R32). -/
namespace Sys2Proof.Machine

/-! ## The billing state image (07 R261, R262) -/

/-- A billing state taken up: its objects, meters, pulse engines, civil time and billing engine. -/
def takeImage (a : SaveArea) (d : Dev) : Dev :=
  let rest := d.objs.filter fun e => !inImage (e.1 / 256) (e.1 % 256)
  { d with objs := a.objs.foldl (fun t e => tset t e.1 e.2) rest, meters := a.meters, pulses := (a.pulses.map fun e => (e.1, { e.2 with high := none })), civil := a.civil, bill := a.bill }

/-- A save area. -/
def Dev.area (d : Dev) (i : Nat) : SaveArea := tget {} d.supply.areas i
/-- The part with a save area set. -/
def Dev.setArea (d : Dev) (i : Nat) (a : SaveArea) : Dev := { d with supply := { d.supply with areas := tset d.supply.areas i a } }

/-- The area of the committed save with the highest device time (09 R295, R299). -/
def Dev.latestSave (d : Dev) : Option Nat :=
  match (d.area 0).committed, (d.area 1).committed with
  | true, true => some (if (d.area 0).point < (d.area 1).point then 1 else 0)
  | true, false => some 0
  | false, true => some 1
  | false, false => none

/-- Metrology event 0x0014 (09 R309): kind, device time, and for kind 4 the outage, cause, source and whether the state taken up is a
provisional save. -/
def Dev.supplyEvent (d : Dev) (kind time : Nat) (more : Bytes) : Dev :=
  d.eventEntry d.now 0x0014 0xFF 0 0 (natLE 1 kind ++ zeros 3 ++ natLE 8 time ++ zeros 4 ++ more)

/-! ## The warning, the save and the dip that recovers (09 R292 to R297) -/

/-- SUPPLY_WARNING: the comparator trips; PFW_N is low while it holds (09 R292). -/
def supplyWarning (d : Dev) : Dev :=
  d.when (d.loom != .unpowered) fun d => { d with supply := { d.supply with warning := true } }.setBitO 0x2100 4 0 true

def execSupplyWarning (s : State) : Out := onDev supplyWarning s

/-- SUPPLY_WARNING_CLEAR: PFSENSE rises through the clear level (09 R292). -/
def supplyWarningClear (d : Dev) : Dev :=
  d.when (d.loom != .unpowered) fun d => { d with supply := { d.supply with warning := false } }.setBitO 0x2100 4 0 false

def execSupplyWarningClear (s : State) : Out := onDev supplyWarningClear s

/-- POWER_FAIL_SAVE_START in tick T+1: the bank of the end of H4 goes to the area that does not hold the latest committed save; no
second save while one is written (01 R32; 09 R295, R297). -/
def powerFailSaveStart (d : Dev) : Dev :=
  d.when (d.running && d.supply.seenAt == some d.now && d.supply.writing.isNone) fun d =>
    let i := match d.latestSave with
      | some 0 => 1
      | _ => 0
    let d := d.setArea i { d.supply.bank with header := true, committed := false, provisional := false }
    stagedRank ({ d with supply := { d.supply with writing := some i, toProvisional := false } }.setBitO 0x2100 4 1 true)

def execPowerFailSaveStart (s : State) : Out := onDev powerFailSaveStart s

/-- SUPPLY_WARNING_HOLD from tick T+2: boundary steps, records, readings, Twist sending and reader fields are held (09 R294; 15 R460;
17 R493). -/
def supplyWarningHold (d : Dev) : Dev :=
  d.when (d.running && d.supply.seenAt.isSome) fun d => { d with supply := { d.supply with hold := true } }

def execSupplyWarningHold (s : State) : Out := onDev supplyWarningHold s

/-- SAVE_COMMIT: the commit record; provisional where the warning has ended before it (09 R295 to R297). -/
def saveCommit (d : Dev) : Dev :=
  match d.supply.writing with
  | none => d
  | some i => d.when d.running fun d =>
    let prov := d.supply.toProvisional && d.supply.seenAt.isNone
    let a := { d.area i with committed := true, provisional := prov }
    let d := d.setArea i a
    let d := { d with supply := { d.supply with writing := none, toProvisional := false, saved := d.bill.staging != [] } }
    let d := ((stagedRank (d.setBitO 0x2100 4 1 false)).setBitO 0x2100 4 2 prov).inc 0x2100 6
    ((d.set 0x2100 7 a.point).set 0x2100 8 (if prov then 2 else 1)).supplyEvent 1 a.point []

def execSaveCommit (s : State) : Out := onDev saveCommit s

/-- STAGED_RECORDS_WRITE: every staged record commits directly after the save of the warning, recovered or not (07 R265; 09 R296). -/
def stagedRecordsWrite (d : Dev) : Dev :=
  d.when (d.running && d.supply.writing.isNone && d.supply.saved) fun d =>
    let d := recordsWritten d.bill.staging d
    stagedRank { d with bill := { d.bill with staging := [] }, supply := { d.supply with saved := false } }

def execStagedRecordsWrite (s : State) : Out := onDev stagedRecordsWrite s

/-- The end of a warning that recovers (09 R296): the hold ends, the save is or becomes provisional, the dip is counted, and what it held up of
readings goes on; boundary steps that were held are due with the deferred mark. -/
def dipRecovered (d : Dev) : Dev :=
  let d := { d with supply := { d.supply with seenAt := none, hold := false }, bill := { d.bill with deferred := d.bill.deferred || d.supply.hold } }
  let point := d.get 0x2100 7
  let d := match d.supply.writing, d.latestSave with
    | some i, _ =>
      { d with supply := { d.supply with toProvisional := true } }.supplyEvent 3 (d.area i).point []
    | none, some i =>
      let d := (d.setArea i { d.area i with provisional := true }).setBitO 0x2100 4 2 true
      let d := stagedRank { d with supply := { d.supply with marked := some d.now } }
      ((d.set 0x2100 8 2).supplyEvent 2 point []).supplyEvent 3 point []
    | none, none => d.supplyEvent 3 point []
  readingsResume (d.inc 0x2100 5)

/-- BROWN_OUT_RECOVERY in the tick whose status frame shows the warning clear (09 R296); where steps were held it runs the step with every
action marked deferred (07 R251). -/
def brownOutRecovery (d : Dev) : Dev :=
  d.when (d.running && d.supply.seenAt.isSome && !d.supply.warning) fun d =>
    let d := dipRecovered d
    d.when d.bill.deferred boundaryStep

def execBrownOutRecovery (s : State) : Out := onDev brownOutRecovery s

/-! ## Resets (09 R298) -/

/-- Whether an object keeps its value through a reset of kind `k`: 0 power-on, 1 supply, 2 warm (02 R48; 09 R298). -/
def keepsClass (k : Nat) (c : Cls) : Bool :=
  match c with
  | .vol => false
  | .warm => k == 2
  | .powerOn => k != 0
  | _ => true

/-- Objects of class V that another memory holds: the event log's numbers and the session store's, the image slots, and on the Mill
die the groups and the load channels. -/
def keepsOwn (k ix sub : Nat) : Bool :=
  (ix == 0x4D40 && sub ≤ 2) || (0x3600 ≤ ix && ix < 0x3720 && sub == 0x10) || (ix == 0x4E00 && sub ≤ 2) || (0x2311 ≤ ix && ix ≤ 0x2313 && !(8 ≤ sub && sub ≤ 0xA)) ||
    (0x4000 ≤ ix && ix < 0x4900 && ix % 64 == 8 && sub == 5) || inImage ix sub ||
    (k != 0 && ((0x6000 ≤ ix && ix < 0x6008 && sub == 0x23) || (0x7000 ≤ ix && ix < 0x7040 && (sub == 0x10 || sub == 0x22))))

/-- Whether an object keeps its value through a reset of kind `k`. -/
def keepsObj (k ix sub : Nat) : Bool :=
  keepsOwn k ix sub || (match objRow ix sub with
    | some r => keepsClass k r.cls
    | none => false)

/-- Bits that stay of objects of class V: an outlet's welded bit, an axis's held trip; of an activation, that it is still to be
confirmed (20 R593). -/
def keptBits (d d' : Dev) : Dev :=
  let d' := each 32 (fun o e => let v := Nat.land (d.get (0x5003 + 0x20 * o) 2) 0x20; if v = 0 then e else e.set (0x5003 + 0x20 * o) 2 v) d'
  let d' := each 4 (fun a e => let v := Nat.land (d.get (0x6800 + a) 0x30) 4; if v = 0 then e else e.set (0x6800 + a) 0x30 v) d'
  if 8 ≤ d.get 0x2300 2 ∧ d.upd.back = false then d'.set 0x2300 2 (d.get 0x2300 2 % 4 + 12) else d'

/-- A record that was staged and is lost: what MRAM holds stands again (07 R264). The staging memory loses its records at every reset, so that what
a start finds is committed (07 R266; log entry 98). -/
def unstage (d : Dev) (r : StagedRec) : Dev :=
  if r.ix = 0 then { d with demand := tset d.demand r.sub ((d.demands r.sub).drop 1 ++ if r.old = [] then [] else [r.old]) }
  else if r.nums = [] then d.setB r.ix r.sub r.old
  else { d with objs := r.nums.foldl (fun t e => tset t e.1 e.2) d.objs }

/-- The staging memory loses its records: the latest goes back first. -/
def loseStaged (d : Dev) : Dev :=
  let e := d.bill.staging.reverse.foldl unstage d
  { e with bill := { e.bill with staging := [] } }

/-- What MRAM holds of a write whose pointer switch is done and whose tick of effect never comes: its committed entries with their metrology
events, counts and records, which the same switch holds (02 R49; 06 R198; 08 R280; log entry 97). A write that the checks at its tick of effect
would refuse is not kept; nothing acts, so no boundary step runs and the Mill die stands as it was. -/
def keepOne (d : Dev) (r : DReq) : Dev :=
  if (d.effectStatuses r).any fun s => s != 0 then d
  else
    let e := (r.entries.filter committed).foldl (fun (d : Dev) e => objEff r.role e.ix e.sub e.data d) { d with loom := .inReset }
    { e with loom := d.loom, hold := d.hold, loads := d.loads, budget := d.budget, groups := d.groups, prots := d.prots, axes := d.axes, whorl := d.whorl }

/-- The ranks and weights that a write has changed before its commit are as before it (18 R524). -/
def undoRanks (r : DReq) (d : Dev) : Dev := r.olds.foldl (fun (d : Dev) o => d.set o.1 o.2.1 o.2.2) d

/-- The committed writes that wait for their tick of effect, in their order; of those not committed nothing stays. -/
def keepCommitted (d : Dev) : Dev :=
  (d.dict.queue.filter fun r => r.phase == .ready).foldl keepOne ((d.dict.queue.filter fun r => r.phase == .checked).foldl (fun d r => undoRanks r d) d)

/-- The highest number in the store of 128 records to an index at `base` to `last`, by the little-endian number in bytes 0 to 3. -/
def Dev.highest (d : Dev) (base last : Nat) : Nat :=
  maxN 0 ((d.blobs.filter fun e => decide (base * 256 ≤ e.1 ∧ e.1 < (last + 1) * 256)).map fun e => leAt e.2 0 4)

/-- The readings of kinds 2, 3 and 4 that a reset loses, with the session or snapshot number of their records (08 R276). -/
def lostReadings (d : Dev) : List LostReading :=
  d.reads.lost ++ (d.reads.queue.filter fun r => decide (2 ≤ r.kind ∧ r.kind ≤ 4)).map fun r =>
    { kind := r.kind, meter := r.meter, number := r.number, source := beNat (sliceB r.content (if r.kind = 4 then 64 else 60) 4) }

/-- The part after a reset of kind `k` with cause `cause`, the Loom die not yet started. What MRAM, the Store die, the tamper domain
and, but for a power-on reset, the Mill die hold is kept; class W memory on a warm reset only. A link's restriction to Gen 1 after a failed
Gen 2 acquisition does not outlive a reset: the model's choice (log entry 110). -/
def resetDev (k cause : Nat) (d : Dev) : Dev :=
  let d := loseStaged (keepCommitted (snapReadings (startReadings d)))
  let d' : Dev := {
    now := d.now, freeIdx := d.freeIdx
    objs := d.objs.filter fun e => keepsObj k (e.1 / 256) (e.1 % 256)
    blobs := d.blobs.filter fun e => keepsObj k (e.1 / 256) (e.1 % 256)
    loom := .inReset
    supply := { areas := d.supply.areas, index := d.supply.index
                cause := cause, warning := k != 0 && d.supply.warning, live := k == 2 && d.supply.live
                bank := if k = 2 then d.supply.bank else {} }
    hold := if k = 0 then {} else d.hold
    links := d.links.map fun e => (e.1, { identity := e.2.identity })
    meters := d.meters, pulses := (d.pulses.map fun e => (e.1, { e.2 with high := none })), bill := d.bill, demand := d.demand
    reads := { next := d.reads.next, lost := lostReadings d, counted := d.reads.counted, sealDigest := d.reads.sealDigest }
    keys := d.keys.map fun e => (e.1, { e.2 with challenge := none })
    civil := d.civil, tamper := d.tamper
    log := { eventNext := d.log.eventNext, skeinNext := if k = 2 then d.log.skeinNext else 1 }
    loads := if k = 0 then [] else d.loads
    budget := if k = 0 then {} else d.budget
    groups := if k = 0 then [] else d.groups
    prots := d.prots.map fun e => (e.1, { trips := e.2.trips })
    alloc := { inForce := d.alloc.inForce, waiting := d.alloc.waiting, ends := d.alloc.ends }
    axes := d.axes.map fun e =>
      let kept : AxisRec := { trips := e.2.trips, service := e.2.service }
      (e.1, if k = 0 then kept else { kept with outLow := e.2.outLow, pulseX := e.2.pulseX, pulseY := e.2.pulseY })
    whorl := if k = 0 then {} else { d.whorl with takeover := none, spareOk := false }
    mesh := if k = 2 then { table := d.mesh.table, flood := d.mesh.flood, trans := d.mesh.trans, rebuild := d.mesh.rebuild } else {}
    upd := { images := d.upd.images, pieces := d.upd.pieces, since := d.upd.since, role := d.upd.role, boot := d.upd.boot, bootUse := d.upd.bootUse
             flashBad := d.upd.flashBad }
    dbg := { fails := if k = 0 then 0 else d.dbg.fails }
    jtag := if k = 0 then {} else d.jtag }
  let d' := keptBits d d'
  if k = 0 then d' else if d'.supply.warning then d'.set 0x2100 4 1 else d'

/-! ## The reset-hold window and the safe sequence (09 R302 to R305) -/

/-- The reset-hold action of a load channel as the last command frame had it: action and group. -/
def Dev.holdAction (d : Dev) (n : Nat) : Nat × Nat := (field (tget 1 d.hold.actions n) 0 2, field (tget 1 d.hold.actions n) 2 3)

/-- The Mill die turns a channel off, and keeps that it did. -/
def holdOff (n : Nat) (d : Dev) : Dev :=
  let on := 1 ≤ d.loadState n && d.loadState n ≤ 4
  let d := d.loadCommand n false
  d.when (on && !d.hold.dropped.contains n) fun d => { d with hold := { d.hold with dropped := n :: d.hold.dropped } }

/-- Turn off the channels whose action is `a`, for action 2 those of group `g`. -/
def holdChannels (a g : Nat) (d : Dev) : Dev :=
  each 64 (fun n d => d.when ((d.holdAction n).1 == a && (a != 2 || (d.holdAction n).2 == g)) (holdOff n)) d

/-- Step 1 of the safe sequence: permits removed, STO applied, action-1 channels off (09 R304). -/
def safeSequence (d : Dev) : Dev :=
  let d := { d with whorl := { d.whorl with permits := 0, sto := 0xFF }, hold := { d.hold with safe := true } }
  let d := each 8 (fun g d => ((d.setGrp g { d.grp g with enabled := false }).setBitO (protIx g) 0x23 2 false).setBitO (protIx g) 0x23 3 false) d
  holdChannels 1 0 d

/-- A warm reset (09 R298, R302, R303): the Loom die resets; the window starts, unless one runs, and action-0 channels go off. -/
def warmReset (cause : Nat) (d : Dev) : Dev :=
  let can := match d.loom with
    | .unpowered => false
    | .inReset => decide (3 ≤ d.supply.cause)
    | _ => true
  d.when can fun d =>
    let d := resetDev 2 cause d
    let h := d.hold
    let d := if h.active then d else { d with hold := { active := true, actions := h.actions, bands := h.bands } }
    holdChannels 0 0 d

def execWarmReset (s : State) : Out := onDev (warmReset 3) s

/-- WATCHDOG_EXPIRY; the watchdog is suspended in a debug halt (21 R603). -/
def watchdogExpiry (d : Dev) : Dev := d.when (!d.dbg.halted) (warmReset 7)

def execWatchdogExpiry (s : State) : Out := onDev watchdogExpiry s

/-- CLOCK_FAULT (01 R25): the reference is out of ±200 ppm or has stopped. -/
def execClockFault (s : State) : Out := onDev (warmReset 5) s

/-- Whether PFSENSE falling through the reset level resets the Loom die: it is powered and not held by that reset already. -/
def Dev.supplyFalls (d : Dev) : Bool :=
  match d.loom with
  | .unpowered => false
  | .inReset => decide (3 ≤ d.supply.cause)
  | _ => true

/-- SUPPLY_RESET: the Loom die resets and the safe sequence starts at once (09 R298, R303, R305). -/
def supplyReset (d : Dev) : Dev :=
  d.when d.supplyFalls fun d =>
    let d := resetDev 1 2 d
    let h := d.hold
    let d := if h.active then d else { d with hold := { active := true, actions := h.actions, bands := h.bands } }
    holdChannels 0 0 (safeSequence d)

/-- The SRAM of the Loom die loses its contents (09 R298); MRAM and the Store die keep theirs (21 R602). -/
def sramLost (m : List Host.Cell) : List Host.Cell := m.filter fun c => decide (0x20000000 ≤ c.1)

def execSupplyReset (s : State) : Out :=
  .next { s with dev := supplyReset s.dev, mem := if s.dev.supplyFalls then sramLost s.mem else s.mem }

/-- POWER_ON_RESET: a rail out of range resets the whole part but the tamper domain (09 R298), which stops where VBAT is gone too (08 R283). -/
def powerOnReset (d : Dev) : Dev :=
  let d := { resetDev 0 1 d with loom := .unpowered }
  d.when d.tamper.stopped tamperStop

def execPowerOnReset (s : State) : Out := .next { s with dev := powerOnReset s.dev, mem := sramLost s.mem }

/-- POWER_ON_RESET_RELEASE (09 R288): supplies, PFSENSE and RESET_N good for 2 ms. -/
def powerOnRelease (d : Dev) : Dev :=
  d.when (d.loom == .unpowered || (d.loom == .inReset && d.supply.cause == 2)) fun d =>
    { d with loom := .released, supply := { d.supply with warning := false } }.setBitO 0x2100 4 0 false

def execPowerOnResetRelease (s : State) : Out := onDev powerOnRelease s

/-- RESET_HOLD_EXPIRY: 50 ms without a reclaim (09 R302, R303). -/
def resetHoldExpiry (d : Dev) : Dev := d.when (d.hold.active && !d.hold.safe) safeSequence

def execResetHoldExpiry (s : State) : Out := onDev resetHoldExpiry s

/-- Whether the latest 64 levels of comparator OCg, in 0.5 mV, lie in the zero band that the last command frame carried (09 R304). -/
def Dev.inZeroBand (d : Dev) (g : Nat) (levels : List Int) : Bool :=
  decide (64 ≤ levels.length) && (levels.drop (levels.length - 64)).all fun x => decide (x.natAbs ≤ 2 * tget 5 d.hold.bands g)

/-- GROUP_CURRENT_CONFIRMED by the levels of the comparator input in the latest ticks of the island's clock (09 R304). -/
def groupConfirmed (g : Nat) (levels : List Int) (d : Dev) : Dev :=
  d.when (d.hold.active && d.hold.safe && !d.hold.opened.testBit g && d.inZeroBand g levels) fun d =>
    { d with hold := { d.hold with confirmed := setBit d.hold.confirmed g true } }

def execGroupCurrentConfirmed (seen : Fin 8 × List Int) (s : State) : Out := onDev (groupConfirmed seen.1 seen.2) s

/-- The action-2 channels of a group turn off. -/
def openGroup (g : Nat) (d : Dev) : Dev :=
  let d := holdChannels 2 g d
  { d with hold := { d.hold with opened := setBit d.hold.opened g true } }

/-- CONTACTOR_RELEASE_DELAY: 20 ms after the group's confirmation (09 R304). -/
def contactorRelease (g : Nat) (d : Dev) : Dev :=
  d.when (d.hold.active && d.hold.confirmed.testBit g && !d.hold.opened.testBit g) (openGroup g)

def execContactorReleaseDelay (g : Fin 8) (s : State) : Out := onDev (contactorRelease g) s

/-- GROUP_CONFIRM_TIMEOUT: 200 ms after step 1 without a confirmation (09 R304). -/
def groupTimeout (g : Nat) (d : Dev) : Dev :=
  d.when (d.hold.active && d.hold.safe && !d.hold.confirmed.testBit g && !d.hold.opened.testBit g) fun d =>
    openGroup g { d with hold := { d.hold with unconfirmed := setBit d.hold.unconfirmed g true } }

def execGroupConfirmTimeout (g : Fin 8) (s : State) : Out := onDev (groupTimeout g) s

/-- What the command frame of the reclaim asks of channel `n` of outlet `o`, by the outlet's step; none where the channel stays as the Mill die
holds it: the contactors in step 7, the lock in steps 7 and 8 (09 R307; 10 R333). -/
def Dev.reclaimOrder (d : Dev) (o n : Nat) : Option Bool :=
  let v := outletIx o
  let st := d.step o
  if st ≤ 1 then some false
  else if n = d.get v 4 then (if st ≤ 6 then some true else if st = 9 then some false else none)
  else if st = 7 then none
  else some (if n = d.get v 2 then st == 6 || (st == 5 && d.code o != 1) else decide (3 ≤ st ∧ st ≤ 5))

/-- CONTROL_RECLAIM after so many microseconds: the first valid command frame of the restarted part; every output follows it
(09 R302, R304, R310). -/
def controlReclaim (micros : Nat) (d : Dev) : Dev :=
  d.when (d.running && d.hold.active) fun d =>
    let h := d.hold
    let d := (d.set 0x2112 1 (if !h.safe then 1 else if h.unconfirmed = 0 then 2 else 3)).set 0x2112 2 (micros % 2 ^ 32)
    let d := d.set 0x2112 3 h.unconfirmed
    let d := { d with hold := { micros := micros, actions := h.actions, bands := h.bands } }
    each 64 (fun n d => match d.owner n with
      | some o => (match d.reclaimOrder o n with
          | some on => d.loadCommand n on
          | none => d)
      | none => d.loadCommand n (d.get (loadIx n) 3 == 1)) d

def execControlReclaim (micros : Nat) (s : State) : Out := onDev (controlReclaim micros) s

/-! ## Starts (09 R290, R299) -/

/-- Load each image kind from the slot that the boot record names, or the other slot where its version is not below the floor (20 R594). -/
def loadImage (x : StartInputs) (k : Nat) (d : Dev) : Dev :=
  if !x.activeBad.contains k then d
  else
    let there := d.get (imageIx k) 5 == 2 || d.get (imageIx k) 5 == 4
    if there && !x.otherBad.contains k && decide (d.get (imageIx k) 3 ≤ d.get (imageIx k) 2) then swapImage k 3 d
    else if k = 3 then { d with upd := { d.upd with noMetrology := true } }
    else if k = 2 then { d with upd := { d.upd with noIsland := true } }
    else { d with loom := .recovery }

/-- Ticks between two readings of the battery clock, 0 where either is invalid or it went back (07 R232). -/
def elapsedTicks (was now : Option (Nat × Nat)) : Nat :=
  match was, now with
  | some a, some b => (32768 * b.1 + b.2 - (32768 * a.1 + a.2)) * 32000 / 32768
  | _, _ => 0

/-- Civil time at a start: from the battery clock with its base at the first tick, or invalid (07 R235). -/
def startCivil (b : Option (Nat × Nat)) (d : Dev) : Dev :=
  let c := d.civil
  match b with
  | some x =>
    let was := c.valid
    let d := { d with civil := { valid := was, base := (d.effTick : Int), secs := x.1, frac := x.2 * 2 ^ 17 % 2 ^ 32, slewLeft := c.slewLeft } }
    let d := d.setCivilValid d.now true
    let d := if was then d else d.restartWindows false
    each 36 (fun m d => d.setBitO (meterIx m + 8) 6 0 false) (d.set 0x4A90 5 1)
  | none =>
    let d := { d with civil := { c with slewLeft := 0, slewDone := 0 } }.setCivilValid d.now false
    each 36 (fun m d => d.setBitO (meterIx m + 8) 6 0 true) ((d.set 0x4A90 4 0).set 0x4A90 5 0)

/-- The billing state taken up, and where it comes from: 0 live, 1 or 2 the latest committed save, 3 the factory state (09 R299). -/
def selectState (x : StartInputs) (d : Dev) : Nat × SaveArea :=
  if 3 ≤ d.supply.cause && d.supply.live && x.liveGood then (0, d.supply.bank)
  else
    match d.latestSave with
    | some i => (if 3 ≤ d.supply.cause then 2 else 1, d.area i)
    | none => (3, {})

/-- The records that a billing state names staged and whose stores do not hold them, by their numbers: one of each snapshot or session. -/
def Dev.notFound (d : Dev) (num : StagedRec → Nat) (l : List StagedRec) : List StagedRec :=
  (l.filter fun r => num r != 0 && decide (leAt (d.getB r.ix r.sub) 0 4 < num r)).foldl
    (fun acc r => if acc.any fun x => num x == num r then acc else acc ++ [r]) []

/-- Sequence numbers (07 R266; 08 R274): next snapshot and session, each one more than the larger of the state's value and the highest number
found; snapshots to be retaken with their boundaries not taken, numbers lost, the reading series. -/
def startNumbers (d : Dev) : Dev :=
  let b := d.bill
  let snaps := d.notFound StagedRec.snapshot b.staging
  let gone := d.notFound StagedRec.session b.staging
  let snap := max b.nextSnapshot (d.highest 0x4C10 0x4C33) + 1
  let sess := max b.nextSession (d.highest 0x4E20 0x4E3F) + 1
  let d := { d with bill := { b with nextSnapshot := snap, nextSession := sess, retake := b.retake ++ snaps.map fun r => (r.snapshot, r.flags, r.utc) } }
  let d := snaps.reverse.foldl (fun (d : Dev) r => if r.flags.testBit 0 then d.set 0x4C00 5 r.prev else d) d
  let d := (d.satInc 32 0x4C00 6 snaps.length).satInc 32 0x4E00 3 gone.length
  let top := d.highest 0x4E20 0x4E3F
  let d := (d.set 0x4E00 1 top).set 0x4E00 2 (if top = 0 then 0 else max 1 (top + 1 - 4096))
  let limit := d.get 0x4D80 7
  let read := maxN 0 ((d.blobs.filter fun e => decide (0x4DC000 ≤ e.1 ∧ e.1 < 0x4DE000)).map fun e => beNat (sliceB e.2 4 4))
  let d := d.satInc 32 0x4D80 6 (limit - max read d.reads.counted)
  { d with reads := { d.reads with next := limit + 1, prev := none, restarted := true, counted := limit } }

/-- A lost reading whose record is nowhere is given up: its boundary or its session is recorded under another number (08 R276). -/
def lostPruned (d : Dev) : Dev := { d with reads := { d.reads with lost := d.reads.lost.filter d.recordHeld } }

/-- Of an open session a save holds bytes 0 to 63 of the record (07 R262); what stands behind them, identifier, rate, reading and highest
power, is free after it is taken up (log entry 112). -/
def forgetSession (o : Nat) (d : Dev) : Dev :=
  match tfind d.bill.sessions o with
  | none => d
  | some x =>
    let (ident, d) := d.freshBytes 16
    let (len, d) := d.fresh 17
    let (kind, d) := d.fresh 4
    let (rate, d) := d.fresh 256
    let (reading, d) := d.fresh (2 ^ 32)
    let (power, d) := d.fresh (2 ^ 32)
    let x := { x with ident := ident, identLen := len, identKind := kind, rate := rate, reading := reading, maxPower := power }
    { d with bill := { d.bill with sessions := tset d.bill.sessions o x } }

/-- Close the sessions open at the state taken up, at its device time (07 R258). -/
def closeOpen (point : Nat) (civil : CivilRec) (d : Dev) : Dev :=
  let at' := { d with civil := civil }
  let utc := if civil.valid then at'.civilAt point else (0, 0)
  let reason := if 3 ≤ d.supply.cause then 6 else 5
  eachN (d.bill.sessions.map Prod.fst) (fun o d =>
    closeSession o { reason := reason, time := point, utc := utc.1, frac := utc.2, civilInvalid := !civil.valid, atRestart := true } d) d

/-- The outlets whose action-2 channels the Mill die holds closed or has opened (09 R307; 10 R333). -/
def startOutlet (o : Nat) (d : Dev) : Dev :=
  let v := outletIx o
  let chans := [d.get v 2, d.get v 3].filter fun n => decide (n < 64) && (d.holdAction n).1 == 2
  let d := d.setOut o { d.out o with code := d.get v 1 % 16 }
  if chans.any fun n => 1 ≤ d.loadState n && d.loadState n ≤ 4 then enterStep 3 o 7 d.effTick d
  else if chans.any fun n => d.hold.dropped.contains n then
    let bad := chans.any fun n => d.hold.dropped.contains n && d.hold.unconfirmed.testBit (d.holdAction n).2
    enterStep 2 o (if bad then 8 else 9) d.effTick d
  else d

/-- The Whorl pairs and the axes at a start (12 R381, R389, R393). -/
def startAxes (x : StartInputs) (d : Dev) : Dev :=
  let pairs := (if x.pair0 then 0 else if x.pair1 then 1 else 3) + 4 * b2n (!x.pair0) + 8 * b2n (!x.pair1)
  let d := d.setWhorl 0x40 pairs
  let d := each 4 (fun a d => ((d.setAx a 0 true).setAx a 1 true).set (axisIx a) 0x3F (crc32 (axisParams a (d.get (axisIx a))))) d
  let due := d.whorl.islandDue
  let d := { d with whorl := { d.whorl with islandDue := false } }
  let d := each 4 (fun a d => d.setAx a 8 (d.whorl.island || d.upd.noIsland)) d
  let d := if d.upd.noIsland then { d with whorl := { d.whorl with island := true } } else d
  d.when due fun d => d.raiseEv 70

/-- What the objects of class V show from kept state at a start. -/
def startShow (x : StartInputs) (d : Dev) : Dev :=
  let d := d.set 0x2000 6 (x.straps.val + 128 * b2n x.duplicate)
  let d := each 36 (fun m d => each 8 (fun u d => d.set (meterIx m + 0x1A) (u + 1) (d.get (meterIx m + 6) (u + 1) / quantaPerMWh)) d) d
  let d := each 4 (fun p d => each 8 (fun i d => d.set (0x3480 + p) (3 + i) (crc32 (d.getB (0x3400 + 16 * p + i) 0))) d) d
  let k := d.keyRec 8
  let d := ((d.set 0x4D80 2 (b2n k.active.isSome)).setB 0x4D80 5 (halfIdent 3 k.active)).set 0x4D80 4 (d.get (slotObj 8) 7 % 65536)
  let d := d.set 0x5811 1 (b2n d.alloc.inForce)
  let d := d.setBitO 0x2100 4 2 (match d.latestSave with | some i => (d.area i).provisional | none => false)
  let d := each 36 (fun m d =>
    let filling := decide ((d.meter m).window.length < d.get (meterIx m + 8) 3)
    (d.setBitO (meterIx m + 8) 6 2 filling).setBitO (meterIx m + 8) 6 3 (d.bitO (meterIx m + 0x19) 0xB 1)) d
  let d := each 3 (fun l d => d.when (d.get (laneIx l) 1 == 1) fun d => d.setLaneState l 1) d
  let d := each 36 (fun l d => d.when (d.get (linkIx l) 9 == 0) fun d => d.set (linkIx l) 2 7) d
  let d := d.set 0x7A00 0x10 (if d.meshRole = 2 then 0 else meshNew)
  let d := d.withMesh fun m => { m with listen := d.effTick, rebuild := if d.supply.cause ≤ 2 && d.meshRole == 2 then some d.now else m.rebuild }
  let d := eachN [1, 2, 3] showImage (showPending (showLoads (meshShow d)))
  showCredits (arbShow (each 4 readerShow d))

/-- A start of the Loom die: images, the billing state, device time, civil time, records, numbers and outputs; recovery where no
application image can be loaded (09 R290, R299; 20 R594). -/
def startDev (x : StartInputs) (d : Dev) : Dev :=
  let e := d.get 0x1100 1
  let d := d.set 0x1100 1 (if e = 65535 then 1 else e + 1)
  let d := loadImage x 3 (loadImage x 2 (loadImage x 1 (loadBoot d)))
  if d.loom = .recovery then d
  else
    let z := selectState x d
    let d := d.clockRead x.battery
    let warm := decide (3 ≤ d.supply.cause)
    let d := takeImage z.2 d
    let d := if z.1 = 0 then d else eachN (d.bill.sessions.map Prod.fst) forgetSession d
    let out := elapsedTicks z.2.clock d.tamper.clock
    let civil := d.civil
    let d := { d with now := z.2.point + out }
    let d := if d.supply.cause = 1 then d.restartWindows false else d
    let d := startNumbers d
    let d := { d with bill := { d.bill with staging := [], commanded := none } }
    let d := startCivil d.tamper.clock d
    let d := d.when (z.1 == 2) fun d => d.supplyEvent 6 z.2.point []
    let d := each 2 (fun i d => d.when ((d.area i).header && !(d.area i).committed) fun d => (d.inc 0x2100 0xA).supplyEvent 5 (d.area i).point []) d
    let d := tamperStart x.vbat (accumulatorCheck d)
    let d := lostPruned (closeOpen z.2.point civil d)
    let d := ((d.set 0x2100 1 d.supply.cause).set 0x2100 2 z.1).set 0x2100 3 out
    let d := d.supplyEvent 4 z.2.point (natLE 8 out ++ natLE 1 d.supply.cause ++ natLE 1 z.1 ++ natLE 1 (b2n (z.1 != 0 && z.2.provisional)))
    let d := d.when warm fun d => d.inc 0x2100 0xB
    let d := keysRestart (startAxes x (each 32 startOutlet d))
    let d := each 288 startChan (each 288 reloadCal (startShow x d))
    let d := d.when (decide (8 ≤ d.get 0x2300 2)) fun d => { d with upd := { d.upd with since := d.effTick - pauseBound (d.get 0x2300 2 % 4) } }
    { d with loom := .started, supply := { d.supply with live := true } }.bankNow

/-- COLD_START after the release of the power-on reset, unless boundary scan holds the die (21 R610). -/
def coldStart (x : StartInputs) (d : Dev) : Dev := d.when (d.loom == .released && !d.jtag.hold) (startDev x)

def execColdStart (x : StartInputs) (s : State) : Out := onDev (coldStart x) s

/-- WARM_START after a warm reset; boundary scan may still hold the die (21 R610). -/
def warmStart (x : StartInputs) (d : Dev) : Dev :=
  d.when (d.loom == .inReset && decide (3 ≤ d.supply.cause) && !d.jtag.hold) (startDev x)

def execWarmStart (x : StartInputs) (s : State) : Out := onDev (warmStart x) s

/-- The saved quanta of meter `m`, registered as forced: the closed ones, then the open one (05 R188; 09 R300). -/
def savedQuanta (m : Nat) (d : Dev) : Dev :=
  let r := d.meter m
  let last := d.now - d.get 0x2100 3
  let qs := r.closed ++ (r.due.toList.map fun q => { q with forced := false }) ++ (r.cur.map fun q => { q with stop := max q.first (last + 1) }).toList
  let d := d.setMeter m { r with cur := none, due := none, closed := []
                                 vv := [0, 0, 0, 0], vn := [0, 0, 0, 0], ii := [0, 0, 0, 0], iin := [0, 0, 0, 0] }
  qs.foldl (fun (d : Dev) q =>
    let d := d.when (!q.forced) fun d => (d.inc (meterIx m + 6) 0xB).raiseEv 26
    registerQuantum m { q with forced := true } d) d

/-- FIRST_TICK_AFTER_START: the saved quanta, then the boundary step with every action marked deferred (09 R300). -/
def firstTick (d : Dev) : Dev :=
  d.when (d.loom == .started) fun d =>
    let due := d.whorl.islandDue
    let d := { d with loom := .running, whorl := { d.whorl with islandDue := false } }.when due fun d => d.raiseEv 70
    let d := each 36 savedQuanta d
    boundaryStep (d.setDeferred true)

def execFirstTickAfterStart (s : State) : Out := onDev firstTick s

/-- COMMAND_WARM_RESET (09 R301). -/
def execCommandWarmReset (role : Role) (v : Nat) (s : State) : Out :=
  onDev (writeObj role 0x2100 9 (.num v) { atRange := if v = 1 then 0 else 8 } effWarmReset) s

end Sys2Proof.Machine
end

