-- ==== Sys2Proof/Machine/Dict.lean ====
section
/-! DEFINITION. The dictionary queue: request and response frames, roles and tags, transaction numbers and duplicate windows, reads,
writes, segmented transfers and fences, and the transports (chapter 02; 18 R529 to R533; 19 R542 to R544; 20 R578, R590). -/
namespace Sys2Proof.Machine

/-! ## Request frames (02 R70, R71, R78) -/

/-- The entry at the front of `b`, whether it is well formed, and what follows; none where the bytes end inside it. -/
def parseEntry (op : Nat) (b : Bytes) : Option (DEntry × Bool × Bytes) :=
  let len := leAt b 8 2
  let n := if op = 2 || op = 3 then len else 0
  let pad := (4 - n % 4) % 4
  if b.length < 12 + n + pad then none
  else
    let fl := byteAt b 3
    let e : DEntry := { ix := leAt b 0 2, sub := byteAt b 2, flags := fl, off := leAt b 4 4, len := len, data := sliceB b 12 n }
    let ok := allZero (sliceB b (12 + n) pad) && (3 ≤ op || e.off == 0) && leAt b 10 2 == 0 && decide (fl < (if op = 3 then 4 else 1))
    some (e, ok, b.drop (12 + n + pad))

/-- So many entries: those readable, whether all are there and well formed, and what follows them. -/
def parseEntries (op : Nat) : Nat → Bytes → List DEntry × Bool × Bytes
  | 0, b => ([], true, b)
  | n + 1, b =>
    match parseEntry op b with
    | none => ([], false, [])
    | some x => (x.1 :: (parseEntries op n x.2.2).1, x.2.1 && (parseEntries op n x.2.2).2.1, (parseEntries op n x.2.2).2.2)

/-- The source of a tagged request of role code `c` (02 R62, R632). -/
def srcTagged (c : Nat) : Bytes := padTo 24 [1#8, BitVec.ofNat 8 c]
/-- The source of a host queue. -/
def srcHost (q : Nat) : Bytes := padTo 24 [2#8, BitVec.ofNat 8 q]
/-- The source of a CAN client: SDO channel or CANopen FD node-ID. -/
def srcCan (p : Nat) (fd : Bool) (c : Nat) : Bytes := padTo 24 [if fd then 4#8 else 3#8, BitVec.ofNat 8 p, BitVec.ofNat 8 c]
/-- The source of an Ethernet client. -/
def srcEther (e : Nat) (v6 : Bool) (ip : Bytes) (port : Nat) : Bytes :=
  [if v6 then 6#8 else 5#8, BitVec.ofNat 8 e] ++ zeros 2 ++ padTo 16 ip ++ natLE 2 port ++ zeros 2

/-- The request that a frame spells, from an untagged source `src` (02 R60, R70, R71). One without a readable entry has a blank entry, which
its answer carries, and of one that declares more than 16 the first 16 are answered: the model's choice (log entry 15). -/
def parseRequest (dest : ReplyTo) (src : Bytes) (bound twist : Bool) (b : Bytes) : DReq :=
  let op := byteAt b 3
  let tagged := (byteAt b 13).testBit 0
  let count := leAt b 14 2
  let body := if tagged then (b.drop 16).take (b.length - 24) else b.drop 16
  let z := parseEntries op (min count 16) body
  let es := if z.1.isEmpty then [{}] else z.1
  let ok := decide (16 + (if tagged then 8 else 0) ≤ b.length) && leAt b 0 2 == 0x4A58 && byteAt b 2 == 1
    && decide (1 ≤ op ∧ op ≤ 4 ∧ byteAt b 12 ≤ 4 ∧ byteAt b 13 < 2 ∧ 1 ≤ count ∧ count ≤ 16 ∧ leAt b 6 2 + 16 = b.length)
    && z.2.1 && z.2.2 == [] && (op ≤ 2 || count == 1) && decide (sumN (z.1.map fun e => e.data.length) ≤ 1200)
  { dest := dest, src := if tagged then srcTagged (byteAt b 12) else src, bound := bound, twist := twist, malformed := !ok, op := op
    epoch := leAt b 4 2, trans := leAt b 8 4, roleCode := byteAt b 12, tag := if tagged then some (b.drop (b.length - 8)) else none
    signed := b.take (b.length - 8), entries := es, digest := crc32 body }

/-- The request that a compact frame spells: role U, no epoch (02 R78). Its digest of R64 is over bytes 4 to 23: the model's choice (log
entry 89). -/
def parseCompact (dest : ReplyTo) (b : Bytes) : DReq :=
  let h := byteAt b 7
  let op := field h 6 2
  let n := h % 32
  let ok := (op == 1 || op == 2) && !h.testBit 5 && decide (n ≤ 16) && allZero (sliceB b (8 + n) (16 - n))
  { dest := dest, src := srcTagged 2, twist := true, compact := true, malformed := !ok, op := op, trans := leAt b 0 4, roleCode := 2
    tag := some (sliceB b 24 8), signed := padTo 24 b
    entries := [{ ix := leAt b 4 2, sub := byteAt b 6, len := n, data := if op = 2 then sliceB b 8 n else [] }]
    digest := crc32 (sliceB b 4 20) }

/-! ## Responses (02 R65, R69, R71, R78) -/

/-- One entry of a response: status and data. -/
def respEntry (e : DEntry) (a : Nat × Bytes) : Bytes :=
  natLE 2 e.ix ++ natLE 1 e.sub ++ natLE 1 a.1 ++ natLE 4 e.off ++ natLE 2 a.2.length ++ zeros 2 ++ padTo ((a.2.length + 3) / 4 * 4) a.2

/-- The first 8 bytes of the CMAC of a response. -/
def respTag (k b : Bytes) : Bytes := padTo 8 (aesCmac k b)

/-- The response frame to a request; one that a large read takes over 1 472 bytes is sent whole: the model's choice (log entry 90). -/
def respFrame (d : Dev) (r : DReq) (as : List (Nat × Bytes)) : Bytes :=
  let es := (r.entries.zip as).flatMap fun x => respEntry x.1 x.2
  let tagLen := if r.key.isSome then 8 else 0
  let b := natLE 2 0x4A58 ++ natLE 1 1 ++ natLE 1 (r.op % 128 + 128) ++ natLE 2 (d.get 0x1100 1) ++ natLE 2 (es.length + tagLen)
    ++ natLE 4 r.trans ++ natLE 1 r.roleCode ++ natLE 1 (b2n r.key.isSome) ++ natLE 2 r.entries.length ++ es
  match r.key with
  | some k => b ++ respTag k b
  | none => b

/-- The compact response; data of more than 15 bytes need the full form, and here status 0x07 without data answers: the model's choice (log
entry 89). -/
def respCompact (r : DReq) (a : Nat × Bytes) : Bytes :=
  let e := r.entries.headD {}
  let a := if 15 < a.2.length then (7, []) else a
  let b := natLE 4 r.trans ++ natLE 2 e.ix ++ natLE 1 e.sub ++ natLE 1 a.2.length ++ natLE 1 a.1 ++ padTo 15 a.2
  b ++ (match r.key with
    | some k => respTag k b
    | none => zeros 8)

/-- The SDO abort code of a status (02 R69). -/
def abortCode (st : Nat) : Nat :=
  match st with
  | 1 => 0x06020000
  | 2 => 0x06090011
  | 3 => 0x06010000
  | 4 => 0x08000022
  | 5 => 0x06010002
  | 6 => 0x06010001
  | 7 => 0x06070010
  | 8 => 0x06090030
  | 0x10 => 0x06010000
  | 0x11 => 0x08000000
  | 0x12 => 0x05040001
  | _ => 0x08000020

/-- The part with `f` applied to its dictionary. -/
def Dev.withDict (f : DictRec → DictRec) (d : Dev) : Dev := { d with dict := f d.dict }

/-- The address on the link to which a datagram for `ip` goes: an IPv4 address of another prefix is reached by the gateway (19 R563, log entry
118). -/
def Dev.nextHop (d : Dev) (e : Nat) (v6 : Bool) (ip : Bytes) : Bytes :=
  let n := 2 ^ (32 - d.get (0x2640 + e) 3)
  if v6 || beNat ip / n = d.get (0x2640 + e) 2 / n then ip else (natLE 4 (d.get (0x2640 + e) 4)).reverse

/-- An answer that leaves by Ethernet, CAN or on a Twist lane without mesh. -/
def Dev.sendOut (dest : ReplyTo) (b : Bytes) (d : Dev) : Dev := d.withDict fun x => { x with sent := push 64 (dest, b) x.sent }

/-- A mailbox pair. -/
def Dev.mb (d : Dev) (q : Nat) : MboxRec := tget {} d.mbox q
/-- The part with a mailbox pair set. -/
def Dev.setMb (d : Dev) (q : Nat) (m : MboxRec) : Dev := { d with mbox := tset d.mbox q m }

/-- A response to host queue `q`: into its mailbox with EV9, or behind the one there (19 R543). -/
def hostResponse (q : Nat) (b : Bytes) (d : Dev) : Dev :=
  let m := d.mb q
  match m.ready with
  | none => (d.setMb q { m with ready := some b }).raiseEv 9
  | some _ => d.setMb q { m with waiting := m.waiting ++ [b] }

/-- A response over Twist (16 R481, R482): up to the parent, down to the gateway's first hop, or on the lane it came by. -/
def twistResponse (l : Nat) (bulk : Bool) (hop far : Nat) (up : Bool) (b : Bytes) (d : Dev) : Dev :=
  let f : MeshFrame := { ty := 1, hopSrc := d.meshAddr, hopDst := hop, far := far, up := up, ack := !bulk, payload := b }
  if d.meshRole = 1 then sendUp l bulk false { f with far := d.meshAddr } d
  else if d.meshRole = 2 then
    let e : EndRec := tget {} d.mesh.table far
    sendDown e.lane bulk (if e.first = 0 then far else e.first) f d
  else queueFrame l bulk 2 false none f d

/-- The number that keys a CAN source. -/
def canKey (p : Nat) (fd : Bool) (c : Nat) : Nat := 256 * p + 128 * b2n fd + c

/-- Send a response; `refused` is the status of a whole request that its envelope reports (02 R69, R75). -/
def sendResponse (r : DReq) (as : List (Nat × Bytes)) (refused : Nat) (d : Dev) : Dev :=
  match r.dest with
  | .host q => hostResponse q (respFrame d r as) d
  | .ether e v6 ip port listen own _ => d.sendOut (.ether e v6 ip port listen own (d.nextHop e v6 ip)) (respFrame d r as)
  | .can p fd c =>
    if r.op = 5 then
      let a := as.headD (0, [])
      d.sendOut r.dest (if a.1 = 0 then a.2 else natLE 4 (abortCode a.1))
    else
      let d := d.withDict fun x => { x with canResp := tset x.canResp (canKey p fd c) (respFrame d r as) }
      d.sendOut r.dest (if refused = 0 then [] else natLE 4 (abortCode refused))
  | .twist l bulk hop far up => twistResponse l bulk hop far up (if r.compact then respCompact r (as.headD (0, [])) else respFrame d r as) d
  | .nowhere => d
  | .heartbeat _ => d

/-! ## Roles, sources and windows (02 R51 to R54, R61 to R68) -/

/-- The role of a role code. -/
def roleOfCode (c : Nat) : Role :=
  match c with
  | 1 => .O
  | 2 => .U
  | 3 => .M
  | 4 => .S
  | _ => .P

/-- An event of the dictionary, which serves its queue while the part works and in recovery. -/
def onServe (f : Dev → Dev) (s : State) : Out := onDev (fun d => d.when (d.running || d.recovering) f) s

/-- Check 2 (02 R51 to R53, R78; 20 R594): the status, the key of a valid tag, the role. An untagged request over Twist with another role than
P is refused with 0x03; one with role P, which must be tagged there, fails authentication with 0x09, counted at 0x1100.02 with EV8: the
model's choice (log entry 89). -/
def Dev.roleFor (d : Dev) (r : DReq) : Nat × Option Bytes × Role :=
  let c := r.roleCode
  match r.tag with
  | some t =>
    let s := 15 + c
    (match d.key s with
     | some k =>
       if 1 ≤ c && (!r.twist || c == 2) && (d.slotAttr s).testBit 3 && d.slotOwner s == c && t == respTag k r.signed then (0, some k, roleOfCode c)
       else (9, none, .P)
     | none => (9, none, .P))
  | none =>
    if r.twist then (if c = 0 then 9 else 3, none, .P)
    else if r.bound || d.recovering then (if c ≤ 1 then (0, none, .O) else (3, none, .P))
    else if c = 0 then (0, none, .P) else (3, none, .P)

/-- Checks 1 to 3. -/
def Dev.front (d : Dev) (r : DReq) : Nat × Option Bytes × Role :=
  if r.malformed then (0x12, none, .P)
  else
    let z := d.roleFor r
    if z.1 != 0 then z
    else if r.epoch != 0 && r.epoch != d.get 0x1100 1 then (0xD, z.2) else z

/-- The number of the source record of a request: 0 to 3 for a role, else the record that holds the source. -/
def Dev.srcIx (d : Dev) (r : DReq) : Option Nat :=
  if byteAt r.src 0 = 1 then some (byteAt r.src 1 - 1)
  else (d.dict.srcs.find? fun x => 4 ≤ x.1 && x.2.key == r.src).map Prod.fst

/-- The source record of a request, empty where there is none. -/
def Dev.srcRec (d : Dev) (r : DReq) : SrcRec :=
  match d.srcIx r with
  | some i => tget {} d.dict.srcs i
  | none => {}

/-- The highest accepted number of a request's source (02 R63, R67). -/
def Dev.srcHigh (d : Dev) (r : DReq) : Nat := if byteAt r.src 0 = 1 then d.get 0x1104 (byteAt r.src 1) else (d.srcRec r).h

/-- The entry of a request's number in its window of 64. -/
def Dev.inWindow (d : Dev) (r : DReq) : Option WinRec := ((d.srcRec r).window.take 64).find? fun w => w.n == r.trans

/-- Whether a record has been idle for the release time (02 R68). -/
def Dev.srcIdle (d : Dev) (x : SrcRec) : Bool := decide (x.at' + 32000 * d.get 0x1120 2 ≤ d.now)

/-- The record that a request's source has or takes: the free one of the lowest number, else the one idle for longest (02 R68, R632). -/
def Dev.srcTake (d : Dev) (r : DReq) : Option Nat :=
  match d.srcIx r with
  | some i => some i
  | none =>
    match (List.range 44).find? fun i => !thas d.dict.srcs (i + 4) with
    | some i => some (i + 4)
    | none =>
      let old := sortBy (fun (a b : Nat × SrcRec) => decide (a.2.at' ≤ b.2.at')) (d.dict.srcs.filter fun x => decide (4 ≤ x.1) && d.srcIdle x.2)
      old.head?.map Prod.fst

/-- Put a request's number into its window as in progress; none where no record can be had (02 R64, R68). At most 260 numbers are in
progress, in the queue or in a transfer, and so many are kept beyond the window. -/
def enterWindow (r : DReq) (seg : Bool) (d : Dev) : Option Dev :=
  (d.srcTake r).map fun i =>
    let known := (d.srcIx r).isSome
    let x : SrcRec := if known then tget {} d.dict.srcs i else {}
    let h := d.srcHigh r
    let w := push 324 { n := r.trans, digest := r.digest, seg := seg, was := h } x.window
    let d := d.withDict fun y => { y with srcs := tset y.srcs i { key := r.src, h := r.trans, at' := d.now, window := w } }
    if byteAt r.src 0 = 1 then d.set 0x1104 (byteAt r.src 1) r.trans else d

/-- Whether a request renews its source's idle time as it arrives: a write, plain or by segments, whose source is known, that is every untagged
one and each with a valid tag (02 R54, R61, R632; log entry 16). -/
def Dev.renews (d : Dev) (r : DReq) : Bool :=
  (r.op == 2 || r.op == 3) && (if r.tag.isSome then !r.malformed && (d.roleFor r).1 == 0 else (d.roleFor r).1 != 9)

/-- A write of a source renews its record's idle time (02 R68, R632, log entry 16); the record of a role is never free. -/
def srcTouch (r : DReq) (d : Dev) : Dev :=
  match d.srcIx r with
  | some i => d.when (thas d.dict.srcs i || decide (i < 4)) fun d =>
      d.withDict fun y => { y with srcs := tset y.srcs i { tget {} y.srcs i with key := r.src, at' := d.now } }
  | none => d

/-- Record the result of a request's number; one refused with 0x0E leaves window and h as they were (02 R65). -/
def recordResult (r : DReq) (res : List Nat) (d : Dev) : Dev :=
  match d.srcIx r with
  | none => d
  | some i =>
    let x : SrcRec := tget {} d.dict.srcs i
    if res.contains 0xE then
      let was := (match x.window.find? fun w => w.n == r.trans with | some w => w.was | none => x.h)
      let h := if x.h = r.trans then was else x.h
      let rest := (x.window.filter fun w => w.n != r.trans).map fun w => if w.was = r.trans then { w with was := was } else w
      let d := d.withDict fun y => { y with srcs := tset y.srcs i { x with h := h, window := rest } }
      if byteAt r.src 0 = 1 && d.get 0x1104 (byteAt r.src 1) == r.trans then d.set 0x1104 (byteAt r.src 1) was else d
    else
      d.withDict fun y => { y with srcs := tset y.srcs i { x with window := x.window.map fun w => if w.n = r.trans then { w with result := some res } else w } }

/-! ## The queue (02 R55 to R58; 18 R529 to R531; 20 R573, R578, R591) -/

/-- Whether a request writes a proof to the slot of the role that `r` claims. -/
def DReq.provesRole (x r : DReq) : Bool := r.tag.isSome && r.roleCode != 0 && x.writes (0x228F + r.roleCode) 6

/-- Whether a request names an object of a paused metrology image. -/
def DReq.billing (r : DReq) : Bool := r.entries.any fun e => decide (0x4000 ≤ e.ix ∧ e.ix < 0x5000)

/-- Whether a pause holds a request (20 R591), or a supply warning, while no reading is captured, a proof for slot 8 (08 R271; 09 R294). A held
request is judged when nothing holds it any more, so that a higher number of its source judged before makes it stale: the model's choice
(log entry 109). -/
def Dev.pauseHolds (d : Dev) (r : DReq) : Bool := d.pausing 1 || (d.pausing 3 && r.billing) || (d.supply.hold && r.writes (slotObj 8) 6)

/-- Whether a request that waits at place `i` is held back unchecked. -/
def Dev.holds (d : Dev) (i : Nat) (r : DReq) : Bool :=
  d.pauseHolds r || d.trans.isSome || (d.dict.queue.take i).any fun x =>
    (x.writes 0x2580 1 && x.src == r.src) || x.writes 0x2580 2 || x.writes 0x2200 2 || x.provesRole r

/-- Whether an earlier request in the queue names an object that `r` names (02 R57). -/
def Dev.behind (d : Dev) (i : Nat) (r : DReq) : Bool :=
  (d.dict.queue.take i).any fun x => x.phase != .copy && x.entries.any fun e => r.entries.any fun f => e.ix == f.ix && e.sub == f.sub

/-- The place of the first request that a condition on place and request picks. -/
def Dev.pick (d : Dev) (p : Nat → DReq → Bool) : Option (Nat × DReq) :=
  ((List.range d.dict.queue.length).zip d.dict.queue).find? fun x => p x.1 x.2

/-- Take the request at place `i` out of the queue. -/
def Dev.dropReq (d : Dev) (i : Nat) : Dev := d.withDict fun x => { x with queue := x.queue.eraseIdx i }

/-- Change the request at place `i`. -/
def Dev.setReq (d : Dev) (i : Nat) (r : DReq) : Dev := d.withDict fun x => { x with queue := setAt x.queue i r }

/-- One status for every entry. -/
def DReq.all (r : DReq) (st : Nat) : List (Nat × Bytes) := r.entries.map fun _ => (st, [])

/-- Whether the write at place `i` may complete: what it orders before it has completed (18 R530, R531; 20 R573, R578). -/
def Dev.mayComplete (d : Dev) (i : Nat) (r : DReq) : Bool :=
  let before := d.dict.queue.take i
  (!(r.writes 0x2580 1) || before.all fun x => x.src != r.src) && (!(r.writes 0x2580 2) || before.isEmpty) &&
    (!(r.writes 0x2200 2) || before.isEmpty) && before.all fun x => !r.provesRole x

/-- Answer the copies of a request that has its result (02 R64). -/
def answerCopies (r : DReq) (as : List (Nat × Bytes)) (d : Dev) : Dev :=
  let mine (x : DReq) : Bool := x.phase == .copy && x.src == r.src && x.trans == r.trans
  let cs := d.dict.queue.filter mine
  let d := d.withDict fun x => { x with queue := x.queue.filter fun y => !mine y }
  let seg := (match d.inWindow r with | some w => w.seg | none => false)
  cs.foldl (fun (d : Dev) c => sendResponse c as 0 (d.when (!seg) fun d => d.inc 0x1100 3)) d

/-- The request at place `i` leaves the queue with its result: it is recorded where `keeps` says so, and answered; `whole` is the status that an
envelope reports. -/
def closeReq (i : Nat) (r : DReq) (as : List (Nat × Bytes)) (whole : Nat) (keeps : Bool) (d : Dev) : Dev :=
  let d := d.when keeps (recordResult r (as.map Prod.fst))
  let d := sendResponse r as whole (d.dropReq i)
  if keeps then answerCopies r as d else d

/-- Whether a request writes a fence. -/
def DReq.fence (r : DReq) : Bool := r.writes 0x2580 1 || r.writes 0x2580 2

/-- The request at place `i` is refused at checks 4 to 12; a fence completes with that in its order (18 R530, R531, R534). -/
def closeLate (i : Nat) (r : DReq) (sts : List Nat) (whole : Nat) (keeps : Bool) (d : Dev) : Dev :=
  if r.fence && !d.mayComplete i r then d.setReq i { r with phase := .refused, res := sts, whole := whole, keeps := keeps }
  else closeReq i r (sts.map fun st => (st, [])) whole keeps d

/-- Answer the request at place `i` with a refusal by checks 1 to 3, which nothing records; 0x09 is counted with EV8 (02 R54). -/
def refuseReq (i : Nat) (r : DReq) (st : Nat) (d : Dev) : Dev :=
  closeReq i r (r.all st) st false (d.when (st == 9) fun d => (d.inc 0x1100 2).raiseEv 8)

/-- Answer the request at place `i` with a refusal by check 4, which nothing records. -/
def refuseNumber (i : Nat) (r : DReq) (st : Nat) (d : Dev) : Dev := closeLate i r (r.entries.map fun _ => st) st false d

/-- The place of the transfer that a segment belongs to. -/
def Dev.segIx (d : Dev) (r : DReq) : Option Nat := findIx (fun t : SegRec => t.src == r.src && t.trans == r.trans) d.dict.segs 0

/-- Bytes staged in all transfers. -/
def Dev.segBytes (d : Dev) : Nat := sumN (d.dict.segs.map fun t => t.data.length)

/-- The bytes of a segment without the trailing CRC of a final one. -/
def DEntry.segData (e : DEntry) : Bytes := if e.flags = 3 then e.data.take (e.data.length - 4) else e.data

/-- Answer the request at place `i` with statuses that nothing records. -/
def passReq (i : Nat) (r : DReq) (sts : List Nat) (d : Dev) : Dev := closeReq i r (sts.map fun st => (st, [])) 0 false d

/-- A segment of no open transfer: the number of one at offset 0 is judged as it arrives, and an accepted one opens its transfer (02 R64, R80,
R81); at another offset a number of no transfer is refused with 0x0F and changes nothing. -/
def openSeg (i : Nat) (r : DReq) (d : Dev) : Dev :=
  let e := r.entries.headD {}
  let bad (st : Nat) : Dev := closeLate i r (r.entries.map fun _ => st) 0 false d
  if r.trans = 0 then refuseNumber i r 0x13 d
  else
    match d.inWindow r with
    | some w =>
      if w.seg then
        (match w.result with
         | some res => passReq i r (r.entries.map fun _ => res.headD 0) d
         | none => d.setReq i { r with phase := .copy })
      else if e.off != 0 then bad 0xF
      else if w.digest != r.digest then refuseNumber i r 0xC (d.inc 0x1100 4)
      else
        (match w.result with
         | some res => passReq i r res (d.inc 0x1100 3)
         | none => d.setReq i { r with phase := .copy })
    | none =>
      if e.off != 0 then bad 0xF
      else if r.trans ≤ d.srcHigh r then refuseNumber i r 0xB (d.inc 0x1100 5)
      else if 4 ≤ d.dict.segs.length || 262144 < d.segBytes + e.segData.length then bad 0xE
      else
        match enterWindow r true d with
        | none => refuseNumber i r 0xA d
        | some d =>
          let t : SegRec := { src := r.src, trans := r.trans, ix := e.ix, sub := e.sub, at' := d.now }
          (d.withDict fun x => { x with segs := x.segs ++ [t] }).setReq i { r with phase := .accepted }

/-- Checks 1 to 4 of the request at place `i` (02 R55, R61, R64), and the first segment of a transfer (02 R80). The response to a request whose tag is valid is tagged whatever its status
(02 R52). -/
def judge (i : Nat) (r : DReq) (d : Dev) : Dev :=
  let z := d.front r
  let r := { r with key := z.2.1, role := z.2.2 }
  if z.1 != 0 then refuseReq i r z.1 d
  else
    if r.op = 3 then
      if (d.segIx r).isNone && (r.entries.headD {}).off == 0 then openSeg i r d else d.setReq i { r with phase := .accepted }
    else if r.op != 2 then d.setReq i { r with phase := .accepted }
    else if r.trans = 0 then refuseNumber i r 0x13 d
    else
      match d.inWindow r with
      | some w =>
        if w.digest != r.digest then refuseNumber i r 0xC (d.inc 0x1100 4)
        else
          (match w.result with
           | some res => passReq i r res (d.inc 0x1100 3)
           | none => d.setReq i { r with phase := .copy })
      | none =>
        if r.trans ≤ d.srcHigh r then refuseNumber i r 0xB (d.inc 0x1100 5)
        else
          match enterWindow r false d with
          | some d => d.setReq i { r with phase := .accepted }
          | none => refuseNumber i r 0xA d

/-- Judge every request that nothing holds back, from place `i` on; a refused fence completes where nothing that it orders stands before it. -/
def judgeGo : Nat → Nat → Dev → Dev
  | 0, _, d => d
  | f + 1, i, d =>
    match d.dict.queue[i]? with
    | none => d
    | some r =>
      if r.phase == .queued && !d.holds i r then
        let d' := judge i r d
        judgeGo f (if d'.dict.queue.length < d.dict.queue.length then i else i + 1) d'
      else if r.phase == .refused && d.mayComplete i r then judgeGo f i (closeReq i r (r.res.map fun st => (st, [])) r.whole r.keeps d)
      else judgeGo f (i + 1) d

/-- Judge every request that nothing holds back. -/
def judgeAll (d : Dev) : Dev := judgeGo (d.dict.queue.length + 1) 0 d

/-- A request enters the queue, or is refused where 256 wait (02 R56); a write renews its source's idle time (02 R632). -/
def enterQueue (r : DReq) (d : Dev) : Dev :=
  let d := d.when (d.renews r) (srcTouch r)
  if 256 ≤ d.dict.queue.length then sendResponse { r with key := (d.front r).2.1 } (r.all 0xE) 0xE d
  else
    let d := d.withDict fun x => { x with queue := x.queue ++ [r] }
    judgeAll (d.set 0x1100 6 (max (d.get 0x1100 6) d.dict.queue.length))

/-- The request at place `i` has its result: it is recorded where `keeps` says so, answered, and leaves the queue. -/
def finishReq (i : Nat) (r : DReq) (as : List (Nat × Bytes)) (keeps : Bool) (d : Dev) : Dev := judgeAll (closeReq i r as 0 keeps d)

/-- The write at place `i` is refused at checks 5 to 12. -/
def refuseWrite (i : Nat) (r : DReq) (sts : List Nat) (keeps : Bool) (d : Dev) : Dev := judgeAll (closeLate i r sts 0 keeps d)

/-! ## Wrong proofs and reads -/

/-- A wrong proof renews the challenge and is counted (20 R571). -/
def noteProofs (r : DReq) (sts : List Nat) (d : Dev) : Dev :=
  (r.entries.zip sts).foldl (fun (d : Dev) x =>
    let s := x.1.ix - 0x2280
    d.when (d.wrongProof x.1 && x.2 == 8 && d.slotUsed s && d.mayProve r.role s && x.1.data.length == proofLen (d.slotType s)) fun d =>
      (renewChallenge s d).satInc 32 (slotObj s) 0xA 1) d

/-- The CAN port that a request came by, else 0. -/
def DReq.canPort (r : DReq) : Nat :=
  match r.dest with
  | .can p _ _ => p
  | _ => 0

/-- The envelope response that a CAN source reads (02 R75). -/
def Dev.canShown (d : Dev) (r : DReq) : Bytes :=
  match r.dest with
  | .can p fd c => tget [] d.dict.canResp (canKey p fd c)
  | _ => []

/-- Checks 5 to 12 of one entry of a read, and its value (02 R47). -/
def readEntry (d : Dev) (r : DReq) (e : DEntry) : Nat × Bytes :=
  let st := if !d.reach r e then 0x10 else readStatus r.role e.ix e.sub
  let v := if e.ix = 0x1103 then d.canShown r else d.readObj r.canPort e.ix e.sub
  let ty := match objRow e.ix e.sub with
    | some x => x.ty
    | none => .u 1
  let len := match ty with
    | .dom _ => if r.op = 5 then (if e.ix = 0x1103 then 0 else 0xF) else if r.op = 4 then 0 else 0xF
    | _ => if 4 ≤ r.op then 0
           else match ty.size with
             | some w => if e.len = w then 0 else 7
             | none => if v.length ≤ e.len then 0 else 7
  let st := firstStatus [st, len]
  if st = 0 then (0, v) else (st, [])

/-! ## Reads and writes -/

/-- DICTIONARY_READ: the first read that may execute, every entry from one tick (02 R57, R59). -/
def dictRead (d : Dev) : Dev :=
  match d.pick fun i r => r.phase == .accepted && (r.op == 1 || r.op == 5) && !d.behind i r && !d.pauseHolds r with
  | some (i, r) => finishReq i r (r.entries.map (readEntry d r)) false d
  | none => d

def execDictionaryRead (s : State) : Out := onServe dictRead s

/-- The phase of a write that has passed every check. -/
def DReq.passed (r : DReq) : DPhase := if r.entries.any committed then .checked else .ready

/-- Whether an entry writes a rank or a weight (18 R524). -/
def DEntry.ranks (e : DEntry) : Bool := inRun e.ix 0x2510 38 && (e.sub == 1 || e.sub == 2)

/-- The write at place `i` has passed every check: a rank or a weight acts at once (18 R524). -/
def passWrite (i : Nat) (r : DReq) (d : Dev) : Dev :=
  let es := r.entries.filter DEntry.ranks
  let olds := es.map fun e => (e.ix, e.sub, d.get e.ix e.sub)
  (es.foldl (fun (d : Dev) e => objEff r.role e.ix e.sub e.data d) d).setReq i { r with phase := r.passed, olds := olds }

/-- DICTIONARY_WRITE: checks 5 to 12 of the first write that may execute (02 R55, R60). -/
def dictWrite (d : Dev) : Dev :=
  match d.pick fun i r => r.phase == .accepted && r.op == 2 && !d.behind i r && !d.pauseHolds r with
  | some (i, r) =>
    let sts := writeStatuses d r
    let d := d.answer (firstStatus sts)
    if sts.all fun s => s == 0 then passWrite i r d else refuseWrite i r sts true (noteProofs r sts d)
  | none => d

def execDictionaryWrite (s : State) : Out := onServe dictWrite s

/-- MRAM_COMMIT: the pointer switch of the oldest write that waits for it (02 R49), in a transfer of the host port, which holds the MRAM write port
while the part works (18 R513, R514). -/
def mramCommit (d : Dev) : Dev :=
  d.when (d.recovering || d.granted 36 3) fun d =>
  match d.pick fun _ r => r.phase == .checked with
  | some (i, r) => d.setReq i { r with phase := .ready }
  | none => d

def execMramCommit (s : State) : Out := onServe mramCommit s

/-- A fence completes: its count, and its marker on each channel named (18 R532). -/
def fenceDone (r : DReq) (d : Dev) : Dev :=
  let m := (r.entries.filter fun e => e.ix == 0x2580).foldl (fun n e => Nat.lor n (leNat e.data % 65536)) 0
  d.when (r.writes 0x2580 1 || r.writes 0x2580 2) fun d =>
    eachN (bitsOf 9 m) (fun v d => d.stream v ⟨0x01, r.trans, []⟩) (d.satInc 32 0x2580 3 1)

/-- In recovery an activation switches the boot record, and a cold start follows (20 R594). -/
def recoveryActivation (d : Dev) : Dev :=
  d.when (d.recovering && d.get 0x2300 2 == 5) fun d =>
    { (swapImage 1 4 d).set 0x2300 2 13 with loom := .released, dict := {} }

/-- The meters whose reading a request asks for (08 R278). -/
def DReq.asksFor (r : DReq) : List Nat :=
  if r.op == 2 || r.op == 3 then
    (r.entries.filter fun e => inRun e.ix 0x4D90 36 && e.sub == 2 && leNat e.data == 1).map fun e => e.ix - 0x4D90
  else []

/-- Whether a reading that a request asks for is still to be captured or given out. -/
def Dev.readingOwed (d : Dev) (r : DReq) : Bool :=
  r.asksFor.any fun m => d.reads.asked.contains (r.eff, m) || d.reads.queue.any fun x => x.asked == r.eff && x.meter == m

/-- Answer the first request whose readings have been given out (08 R278). -/
def settleReadings (d : Dev) : Dev :=
  match d.pick fun _ r => r.phase == .waiting && r.asksFor != [] && !d.readingOwed r with
  | some (i, r) => finishReq i r (r.all 0) true d
  | none => d

def execReadingGivenOut (s : State) : Out := onRun (fun d => settleReadings (readingsResume (readingGivenOut d))) s

/-- WRITE_TAKES_EFFECT at cycle 0 of its tick: the entries together; a transition, an activation or a request for readings is answered later
(02 R58, R60; 08 R278). -/
def writeEffect (d : Dev) : Dev :=
  match d.pick fun i r => r.phase == .ready && !d.pauseHolds r && d.mayComplete i r with
  | some (i, r) =>
    let sts := d.effectStatuses r
    if sts.any fun s => s != 0 then finishReq i r (sts.map fun s => (s, [])) true (undoRanks r (d.answer (firstStatus sts)))
    else
    let d := tickReadings d
    let d := (r.entries.filter fun e => !e.ranks).foldl (fun (d : Dev) e => objEff r.role e.ix e.sub e.data d) d
    let d := fenceDone r (d.answer 0)
    if r.writes 0x2200 2 || r.writes 0x2300 1 then recoveryActivation (d.setReq i { r with phase := .waiting })
    else if r.asksFor != [] then d.setReq i { r with phase := .waiting, eff := d.effTick }
    else finishReq i r (r.all 0) true d
  | none => d

def execWriteTakesEffect (s : State) : Out := onServe writeEffect s

/-- Answer the request that a transition or an activation kept waiting; the status after a reverted activation is free. -/
def dictSettle (ix sub : Nat) (reverted : Bool) (d : Dev) : Dev :=
  match d.pick fun _ r => r.phase == .waiting && r.writes ix sub with
  | some (i, r) =>
    let z := if reverted then d.fresh 256 else (0, d)
    finishReq i r (r.all z.1) true z.2
  | none => judgeAll d

def execLifecycleTransition (s : State) : Out :=
  onDev (fun d => let e := lifecycleTransition d; if e.trans.isNone && d.trans.isSome then dictSettle 0x2200 2 false e else e) s
def execActivationConfirmed (micros : Nat) (s : State) : Out :=
  onDev (fun d => let e := activationConfirmed micros d; if d.activating && !e.activating then dictSettle 0x2300 1 false e else e) s
def execActivationRevert (s : State) : Out :=
  onDev (fun d => let e := activationRevert d; if !d.upd.back && e.upd.back then dictSettle 0x2300 1 true e else e) s

/-! ## Segmented transfers (02 R79 to R82) -/

/-- Answer a segment that records nothing. -/
def ackSeg (i : Nat) (r : DReq) (st : Nat) (d : Dev) : Dev := finishReq i r (r.all st) false d

/-- End a transfer with a status, which is its recorded result. -/
def endSeg (i : Nat) (r : DReq) (j st : Nat) (d : Dev) : Dev :=
  refuseWrite i r (r.entries.map fun _ => st) true (d.withDict fun x => { x with segs := x.segs.eraseIdx j })

/-- Whether the length of a whole object fits its type (02 R79). -/
def lengthFits (ix sub : Nat) (b : Bytes) : Bool :=
  match objRow ix sub with
  | some r => lenStatus r.ty (.raw b) == 0
  | none => true

/-- The final segment: the CRC and the length, then checks 5 to 12 of the whole object. -/
def finalSeg (i : Nat) (r : DReq) (j : Nat) (t : SegRec) (d : Dev) : Dev :=
  let e := r.entries.headD {}
  if e.data.length < 4 || crc32 t.data != leNat (e.data.drop (e.data.length - 4)) || !lengthFits t.ix t.sub t.data then endSeg i r j 0xF d
  else
    let r' := { r with entries := [{ e with data := t.data }] }
    let st := entryStatus d (d.store t.ix t.sub (.raw t.data)) r' { e with data := t.data }
    let d := noteProofs r' [st] (d.answer st)
    if st = 0 then passWrite i r' (d.withDict fun x => { x with segs := x.segs.eraseIdx j })
    else endSeg i r j st d

/-- A segment of an open transfer (02 R80, R81). Two points are the model's choice (log entry 91): a segment that names another index or
sub-index than its transfer ends the transfer with 0x0F, and one refused with 0x0E for full staging does not renew the transfer's idle
time. -/
def moreSeg (i : Nat) (r : DReq) (j : Nat) (d : Dev) : Dev :=
  let e := r.entries.headD {}
  let t : SegRec := d.dict.segs.getD j {}
  let b := e.segData
  let above := min b.length (t.data.length - e.off)
  if thas t.segs e.off then ackSeg i r 0 (d.withDict fun x => { x with segs := setAt x.segs j { t with at' := d.now } })
  else if e.ix != t.ix || e.sub != t.sub || decide (t.data.length < e.off) || sliceB t.data e.off above != b.take above || e.flags == 1 || e.flags == 2 then
    endSeg i r j 0xF d
  else if 262144 < d.segBytes + (b.length - above) then ackSeg i r 0xE d
  else
    let t := { t with data := t.data ++ b.drop above, segs := tset t.segs e.off b.length, at' := d.now }
    let d := d.withDict fun x => { x with segs := setAt x.segs j t }
    if e.flags = 3 then finalSeg i r j t d else ackSeg i r 0 d

/-- SEGMENT_WRITE: the first segment of a write that may execute. -/
def segmentWrite (d : Dev) : Dev :=
  match d.pick fun i r => r.phase == .accepted && r.op == 3 && !d.behind i r && !d.pauseHolds r with
  | some (i, r) =>
    (match d.segIx r with
     | some j => moreSeg i r j d
     | none => judgeAll (openSeg i r d))
  | none => d

def execSegmentWrite (s : State) : Out := onServe segmentWrite s

/-- The time after which an idle transfer is discarded (02 R81, R82). -/
def Dev.segIdle (d : Dev) (t : Nat) : Bool := decide (t + 32000 * d.get 0x1120 3 ≤ d.now)

/-- SEGMENT_TRANSFER_TIMEOUT of transfer `j`: discarded with result 0x0F and a Skein entry (02 R81). -/
def segTimeout (j : Nat) (d : Dev) : Dev :=
  match d.dict.segs[j]? with
  | some t => d.when (d.segIdle t.at') fun d =>
    let d := recordResult { src := t.src, trans := t.trans } [0xF] (d.withDict fun x => { x with segs := x.segs.eraseIdx j })
    d.skein { kind := 4, ix := t.ix, sub := t.sub, before := natLE 4 t.trans, after := natLE 4 t.data.length }
  | none => d

def execSegmentTransferTimeout (i : Fin 4) (s : State) : Out := onServe (segTimeout i) s

/-- Serve a segment of a copy; the copy is given up with its final segment (02 R82). -/
def serveCopy (i : Nat) (r : DReq) (c : CopyRec) (d : Dev) : Dev :=
  let e := r.entries.headD {}
  let b := (c.data.drop e.off).take e.len
  let rest := d.dict.copies.filter fun x => !(x.src == r.src && x.trans == r.trans)
  let d := d.withDict fun x => { x with copies := if b.length < e.len then rest else { c with at' := d.now } :: rest }
  finishReq i r [(0, b)] false d

/-- SEGMENT_READ: the segment at offset 0 copies the whole object; later ones are served from the copy. -/
def segmentRead (d : Dev) : Dev :=
  match d.pick fun i r => r.phase == .accepted && r.op == 4 && !d.behind i r && !d.pauseHolds r with
  | some (i, r) =>
    let d := d.withDict fun x => { x with copies := x.copies.filter fun c => !d.segIdle c.at' }
    let e := r.entries.headD {}
    if e.off = 0 then
      let a := readEntry d r e
      if a.1 = 0 then serveCopy i r { src := r.src, trans := r.trans, data := a.2, at' := d.now } d else finishReq i r [a] false d
    else
      (match d.dict.copies.find? fun c => c.src == r.src && c.trans == r.trans with
       | some c => serveCopy i r c d
       | none => finishReq i r [(0xF, [])] false d)
  | none => d

def execSegmentRead (s : State) : Out := onServe segmentRead s

/-- SOURCE_RECORD_RELEASE of record `r` (02 R68). -/
def sourceRelease (r : Nat) (d : Dev) : Dev :=
  match tfind d.dict.srcs r with
  | some x => d.when (decide (4 ≤ r) && d.srcIdle x) fun d => d.withDict fun y => { y with srcs := tdel y.srcs r }
  | none => d

def execSourceRecordRelease (r : Fin 48) (s : State) : Out := onServe (sourceRelease r) s

/-! ## The host port (02 R74; 19 R539, R542, R543) -/

/-- Whether the part takes requests: while ticks run, and in recovery. -/
def Dev.listens (d : Dev) : Bool := d.ticking || d.recovering

/-- A frame of host queue `q` enters the queue; in recovery that of mailbox 0 only (20 R594). -/
def hostRequest (q : Nat) (b : Bytes) (d : Dev) : Dev :=
  d.when (d.ticking || (d.recovering && q == 0)) (enterQueue (parseRequest (.host q) (srcHost q) (d.get 0x1121 (q + 1) == 1) false b))

def execDictionaryRequest (q : Fin 4) (frame : Bytes) (s : State) : Out := onDev (hostRequest q frame) s

/-- A length written to MBREQ`q`: while busy an overrun; while 16 responses wait the request is held. -/
def submitLength (q len : Nat) (d : Dev) : Dev :=
  let m := d.mb q
  d.when (d.listens && decide (1 ≤ len ∧ len ≤ 1472)) fun d =>
    if m.busy then ({ d with host := { d.host with overrun := true } }).inc 0x2600 2
    else
      let b := padTo len m.area
      if 16 ≤ m.waiting.length then d.setMb q { m with busy := true, len := len, held := some b }
      else hostRequest q b (d.setMb q { m with len := len })

/-- MAILBOX_SUBMIT: the host has written the frame into its request mailbox, and writes its length. -/
def mailboxSubmit (q len : Nat) (frame : Bytes) (d : Dev) : Dev :=
  submitLength q len (d.setMb q { d.mb q with area := patchBytes (padTo 2048 (d.mb q).area) 0 frame })

def execMailboxSubmit (q : Fin 4) (len : Nat) (frame : Bytes) (s : State) : Out := onDev (mailboxSubmit q len frame) s

/-- MAILBOX_RELEASE: the next waiting response moves in; a held request enters once fewer than 16 wait. -/
def mailboxRelease (q : Nat) (d : Dev) : Dev :=
  let m := d.mb q
  d.when m.ready.isSome fun d =>
    let d := match m.waiting with
      | b :: rest => (d.setMb q { m with ready := some b, waiting := rest }).raiseEv 9
      | [] => d.setMb q { m with ready := none }
    let m := d.mb q
    match m.held with
    | some b => d.when (decide (m.waiting.length < 16)) fun d => hostRequest q b (d.setMb q { m with held := none, busy := false })
    | none => d

def execMailboxRelease (q : Fin 4) (s : State) : Out := onDev (mailboxRelease q) s

/-- HSTAT_CLEAR: 1 to bit 1 or 2 clears it. -/
def hstatClear (mask : Nat) (d : Dev) : Dev :=
  { d with host := { mirrorSeen := d.host.mirrorSeen && !mask.testBit 1, overrun := d.host.overrun && !mask.testBit 2 } }

def execHstatClear (mask : Nat) (s : State) : Out := onDev (hstatClear mask) s

/-- EVPEND_CLEAR of word `i`. -/
def evpendClear (i mask : Nat) (d : Dev) : Dev := d.set 0x2410 (i + 1) (d.get 0x2410 (i + 1) - Nat.land (d.get 0x2410 (i + 1)) mask)

def execEvpendClear (i : Fin 8) (mask : Nat) (s : State) : Out := onDev (evpendClear i mask) s

/-- What a read of the host port at byte address `addr` gives, 32 bits (19 R539, R541, R542): the mirror window, the mailboxes, the port's registers; 0
at any other. -/
def Dev.hostRead (d : Dev) (addr : Nat) : Nat :=
  let a := addr / 4 * 4
  let q := a % 0x2000 / 0x800
  let r := a % 0x20 / 8
  if a < 0x10000 then leAt (tget [] d.tick.mirror (a / 256)) (a % 256) 4
  else if a < 0x12000 then leAt (d.mb q).area (a % 0x800) 4
  else if a < 0x14000 then leAt ((d.mb q).ready.getD []) (a % 0x800) 4
  else if a < 0x14020 then
    (if a % 8 = 0 then (d.mb r).len + 2 ^ 31 * b2n (d.mb r).busy else ((d.mb r).ready.getD []).length + 2 ^ 31 * b2n (d.mb r).ready.isSome)
  else if a = 0x14020 then maskOf [d.ticking, d.host.mirrorSeen, d.host.overrun] + 2 ^ 16 * d.get 0x1100 1
  else if 0x14040 ≤ a ∧ a < 0x14060 then d.get 0x2410 (a % 0x20 / 4 + 1)
  else if a = 0x14060 then maskOf ((List.range 8).map d.irq)
  else 0

/-- A write of the host port at byte address `addr` (19 R539, R542). The mirror window takes nothing and HSTAT bit 1 shows the write; a request
mailbox takes it; a reserved address and a region that is only read do nothing. -/
def hostWord (addr data : Nat) (d : Dev) : Dev :=
  let a := addr / 4 * 4
  let q := a % 0x2000 / 0x800
  let r := a % 0x20 / 8
  if a < 0x10000 then { d with host := { d.host with mirrorSeen := true } }
  else if a < 0x12000 then d.setMb q { d.mb q with area := patchBytes (padTo 2048 (d.mb q).area) (a % 0x800) (natLE 4 data) }
  else if a < 0x14000 then d
  else if a < 0x14020 then (if a % 8 = 0 then submitLength r (data % 2048) d else d.when (data.testBit 0) (mailboxRelease r))
  else if a = 0x14020 then hstatClear data d
  else if 0x14040 ≤ a ∧ a < 0x14060 then evpendClear (a % 0x20 / 4) data d
  else d

/-- MIRROR_WRITE at an address of the host port. -/
def execMirrorWrite (addr data : Nat) (s : State) : Out := onDev (hostWord addr data) s

def execClearEvents (role : Role) (v : Bytes) (s : State) : Out := onDev (writeObj role 0x2410 9 (.raw v) {} (effClear v)) s

/-- A write request of host queue `q` with one entry. -/
def hostWrite (q trans ix sub : Nat) (data : Bytes) : DReq :=
  { dest := .host q, src := srcHost q, op := 2, trans := trans, entries := [{ ix := ix, sub := sub, len := data.length, data := data }]
    digest := crc32 (natLE 2 ix ++ natLE 1 sub ++ zeros 5 ++ natLE 2 data.length ++ zeros 2 ++ padTo ((data.length + 3) / 4 * 4) data) }

/-- A fence that host queue `q` writes (18 R530, R531). -/
def hostFence (q trans sub v : Nat) (d : Dev) : Dev :=
  d.when d.ticking (enterQueue { hostWrite q trans 0x2580 sub (natLE 4 v) with bound := d.get 0x1121 (q + 1) == 1, roleCode := 0 })

def execSourceFence (q : Fin 4) (trans v : Nat) (s : State) : Out := onDev (hostFence q trans 1 v) s
def execGlobalFence (q : Fin 4) (trans v : Nat) (s : State) : Out := onDev (hostFence q trans 2 v) s

/-! ## Ethernet, CAN and Twist (02 R72, R75 to R78) -/

/-- The link-local IPv6 address of port `e`, formed from its MAC address (19 R563, log entry 118). -/
def Dev.linkLocal (d : Dev) (e : Nat) : Bytes :=
  let m := (natLE 6 (d.get (0x2640 + e) 1)).reverse
  [0xFE#8, 0x80#8] ++ zeros 6 ++ [m.headD 0 ^^^ 2#8] ++ (m.drop 1).take 2 ++ [0xFF#8, 0xFE#8] ++ m.drop 3

/-- Whether an address is the part's own on port `e`: the IPv4 address where it is not 0; the IPv6 address or the link-local one (19 R563). -/
def Dev.ownAddress (d : Dev) (e : Nat) (v6 : Bool) (ip : Bytes) : Bool :=
  if v6 then ip == d.linkLocal e || (ip == (d.getB (0x2640 + e) 5).take 16 && !allZero ip)
  else d.get (0x2640 + e) 2 != 0 && beNat ip == d.get (0x2640 + e) 2

/-- ETHERNET_DATAGRAM to address `own` and UDP port `dst`: the part listens on its own addresses and the port of 0x1120.01 alone; a fragment, a
frame that is too long or one of bad magic is dropped and counted (02 R72; 19 R563). -/
def ethernetDatagram (e : Nat) (v6 : Bool) (ip own : Bytes) (port dst : Nat) (fragmented : Bool) (frame : Bytes) (d : Dev) : Dev :=
  d.when (d.ticking && dst == d.get 0x1120 1 && d.ownAddress e v6 own) fun d =>
    if fragmented || 1472 < frame.length || leAt frame 0 2 != 0x4A58 || frame.length < 2 then d.inc 0x1100 7
    else enterQueue (parseRequest (.ether e v6 ip port dst own []) (srcEther e v6 ip port) false false frame) d

def execEthernetDatagram (e : Fin 2) (v6 : Bool) (ip : Bytes × Bytes) (ports : Nat × Nat) (fragmented : Bool) (frame : Bytes) (s : State) : Out :=
  onDev (ethernetDatagram e v6 ip.1 ip.2 ports.1 ports.2 fragmented frame) s

/-- Whether a CAN client is served: channel 0, an enabled channel, any CANopen FD client (02 R75, R77). -/
def Dev.canServed (d : Dev) (fd : Bool) (c : Nat) : Bool :=
  fd || c == 0 || (c < 4 && !(d.get (0x1200 + c) 1).testBit 31 && !(d.get (0x1200 + c) 2).testBit 31)

/-- Whether a CAN client is bound to role O (02 R76). -/
def Dev.canBound (d : Dev) (p : Nat) (fd : Bool) (c : Nat) : Bool :=
  if fd then (List.range 16).any fun i => d.get 0x1112 (16 * p + i + 1) % 128 == c && d.bitO 0x1112 (16 * p + i + 1) 8
  else d.get 0x1111 (4 * p + c + 1) == 1

/-- CAN_ENVELOPE_DOWNLOAD to index `ix`: a request frame written to 0x1102; a download to any other index is aborted with 0x0800_0020
(02 R75). -/
def canDownload (p : Nat) (fd : Bool) (c ix : Nat) (frame : Bytes) (d : Dev) : Dev :=
  d.when (d.ticking && d.canServed fd c) fun d =>
    if ix != 0x1102 then d.sendOut (.can p fd c) (natLE 4 0x08000020)
    else if 1472 < frame.length then d.sendOut (.can p fd c) (natLE 4 (abortCode 7))
    else enterQueue (parseRequest (.can p fd c) (srcCan p fd c) (d.canBound p fd c) false frame) d

def execCanEnvelopeDownload (p : Fin 2) (fd : Bool) (client : Fin 128) (load : Nat × Bytes) (s : State) : Out :=
  onDev (canDownload p fd client load.1 load.2) s

/-- CAN_SDO_UPLOAD: a read of one object (02 R75). -/
def canUpload (p : Nat) (fd : Bool) (c ix sub : Nat) (d : Dev) : Dev :=
  d.when (d.ticking && d.canServed fd c) (enterQueue
    { dest := .can p fd c, src := srcCan p fd c, bound := d.canBound p fd c, op := 5, entries := [{ ix := ix, sub := sub }] })

def execCanSdoUpload (p : Fin 2) (fd : Bool) (client : Fin 128) (ix sub : Nat) (s : State) : Out := onDev (canUpload p fd client ix sub) s

/-- A compact request that a Twist frame carries to the part (02 R78; 16 R482). -/
def compactRequest (dest : ReplyTo) (f : MeshFrame) (d : Dev) : Dev := d.when d.running (enterQueue (parseCompact dest (padTo 32 f.payload)))

/-- Where the response to a frame of lane `l` goes. -/
def replyTwist (l : Nat) (bulk : Bool) (f : MeshFrame) : ReplyTo := .twist l bulk f.hopSrc f.far (!f.up)

/-- COMPACT_REQUEST: a compact request of the head-end that the mesh layer takes for the part (16 R482). -/
def execCompactRequest (l : Fin 3) (f : MeshFrame) (s : State) : Out :=
  onDev (fun d => d.when (d.forPart f) (compactRequest (replyTwist l false f) f)) s

/-- PRODUCER_HEARTBEAT on both CAN ports; the NMT state it carries is free (02 R83). -/
def producerHeartbeat (d : Dev) : Dev :=
  d.when (d.running && d.get 0x1017 0 != 0) fun d =>
    let z := d.freshBytes 1
    (z.2.sendOut (.heartbeat 0) z.1).sendOut (.heartbeat 1) z.1

def execProducerHeartbeat (s : State) : Out := onDev producerHeartbeat s

/-- ETHERNET_LINK_CHANGE of port `e` (19 R563). -/
def execEthernetLinkChange (e : Fin 2) (sync up : Bool) (s : State) : Out :=
  onDev (fun d => d.when d.ticking fun d => d.set (0x2640 + e) 6 (b2n sync + 2 * b2n up)) s

end Sys2Proof.Machine
end

