-- ==== Sys2Proof/Machine/Deliver.lean ====
section
/-! DEFINITION. What a received frame, cell or record hands to the units: ring frames (19 R559, R560), Twist control and bulk frames
(15 R455, R458), and the records of the Hank port with their fences (19 R533, R548, R553). -/
namespace Sys2Proof.Machine

/-! ## The ring (19 R559, R560) -/

/-- Act on a frame of the ring from position `src` that came in by port `p`. A ping is answered on its port; the turnaround of the answer
and the round trip of an echo are measured, which leaves them free (log entry 30). -/
def ringTake (p ty src : Nat) (payload : Bytes) (d : Dev) : Dev :=
  if ty = 0x01 then
    let z := d.fresh (2 ^ 32)
    let d := z.2
    let b := ringBytes 2 d.position (src % 8) 7 (d.ring.seq % 65536) (natLE 1 d.position ++ natLE 4 z.1)
    let d := { d with ring := { d.ring with seq := d.ring.seq + 1 } }
    d.portOut p b
  else if ty = 0x02 then
    let z := d.fresh 65536
    ringEcho p (leAt payload 1 4 + z.1) (leAt payload 1 4) (byteAt payload 0) z.2
  else if ty = 0x10 then demandReport payload src d
  else if ty = 0x11 then siteShares payload d
  else if ty = 0x12 then curtailForward payload d
  else if ty = 0x20 then masterClaim payload d
  else if ty = 0x30 then updateBlock src payload d
  else if ty = 0x31 then updateAck src payload d
  else d

/-- Pass a frame on by port `q` with one hop less. -/
def ringPass (q : Nat) (frame : Bytes) (hops : Nat) (d : Dev) : Dev :=
  let n := leAt frame 6 2
  d.when (d.portRun q && decide (1 < hops)) fun d =>
    (d.portOut q (ringBytes (byteAt frame 0) (byteAt frame 1) (byteAt frame 2) (hops - 1) (leAt frame 4 2) (sliceB frame 8 n))).satInc 32 (ringIx q) 5 1

/-- RING_FRAME: bytes 0 to the CRC of a frame received on port `p`. Pings and echoes are between neighbours (log entry 30). -/
def ringFrame (p : Nat) (frame : Bytes) (d : Dev) : Dev :=
  d.when (d.running && !d.refused) fun d =>
    let n := leAt frame 6 2
    if frame.length != n + 12 || 4160 < n || crc32 (frame.take (8 + n)) != leAt frame (8 + n) 4 then d.satInc 32 (ringIx p) 4 1
    else
      let src := byteAt frame 1
      let dst := byteAt frame 2
      let seen := tget [] d.ring.seen src
      let ty := byteAt frame 0
      if src = d.position then
        d.when (d.foreign ty (leAt frame 4 2)) fun d => duplicateSeen (d.when (ty == 1) (ringTake p ty src (sliceB frame 8 n)))
      else if seen.contains (leAt frame 4 2) || 7 < src then d
      else
        let hops := byteAt frame 3
        let d := { d with ring := { d.ring with
          seen := tset d.ring.seen src (push 64 (leAt frame 4 2) seen), hops := tset d.ring.hops (2 * src + p) (8 - min 7 hops) } }
        let d := d.heard src
        let d := d.when (dst == d.position || dst == 0xFF) (ringTake p ty src (sliceB frame 8 n))
        d.when (dst != d.position && 2 < ty) (ringPass (1 - p) frame hops)

def execRingFrame (p : Fin 2) (frame : Bytes) (s : State) : Out := onDev (ringFrame p frame) s

/-! ## Twist frames (15 R455, R458; 16 R466, R481, R482) -/

/-- Whether a frame type is one of the mesh. -/
def meshType (ty : Nat) : Bool := decide (0x10 ≤ ty ∧ ty ≤ 0x1F)

/-- What a control frame brings the part itself: a compact request, or the command of a broadcast, which is not answered. -/
def controlDeliver (l : Nat) (f : MeshFrame) (d : Dev) : Dev :=
  if f.ty = 0x18 then compactRequest .nowhere f d
  else if f.ty = 0x01 then compactRequest (replyTwist l false f) f d
  else d

/-- A control frame received whole (15 R452, R455): slot errors count where its codeword decodes, and it is delivered where its CRC holds
and its type is not reserved. -/
def controlFrame (l : Nat) (x : RxFrame) (d : Dev) : Dev :=
  match decodeControl x with
  | none => d.inc (laneIx l) 0x13
  | some (b, errs, slots) =>
    let d := d.countSlots l errs slots
    let f := meshParse (byteAt b 0) (sliceB b 1 7) (sliceB b 8 32)
    if crc16 (b.take 40) != leAt b 40 2 || (f.ty != 0x01 && !meshType f.ty) then d.inc (laneIx l) 0x13
    else
      let d := noteLink l f.hopSrc errs slots (meetNeighbour l f (d.inc (laneIx l) 0x12))
      meshShow (meshReceive (controlDeliver l f) l false f d)

/-- CONTROL_FRAME: the oldest frame received whole, with this codeword of 58 bytes and these bits in erased slots; where none such has been
received, nothing happens. -/
def receivedFrame (l : Nat) (code : Bytes) (erasures : List Nat) (d : Dev) : Dev :=
  match (d.lane l).rxDone with
  | [] => d
  | x :: rest => d.when (x.code == code && x.erased == erasures) fun d => controlFrame l x (d.setLane l { d.lane l with rxDone := rest })

def execControlFrame (l : Fin 3) (code : Bytes) (erasures : List Nat) (s : State) : Out := onRun (receivedFrame l code erasures) s

/-- What a bulk frame brings the part itself: a full request, image pieces, or the full request of a broadcast. -/
def bulkDeliver (l : Nat) (f : MeshFrame) (d : Dev) : Dev :=
  if f.ty = 0x02 then imagePieces f.payload d
  else if f.ty = 0x18 then enterQueue (parseRequest .nowhere [] false true f.payload) d
  else if f.ty = 0x01 then enterQueue (parseRequest (replyTwist l true f) [] false true f.payload) d
  else d

/-- BULK_FRAME: the next whole frame of the blocks decoded on lane `l`. -/
def bulkFrame (l : Nat) (d : Dev) : Dev :=
  d.when d.running fun d =>
    match (d.lane l).ready with
    | [] => d
    | b :: rest =>
      let errs := (d.lane l).blockErrs
      let d := d.setLane l { d.lane l with ready := rest, blockErrs := [] }
      let n := b.length
      let f := meshParse (byteAt b 2) (sliceB b 3 7) (sliceB b 10 (n - 14))
      if n < 14 || 1486 < n || crc32 (b.take (n - 4)) != leAt b (n - 4) 4 then d
      else if f.ty != 0x01 && f.ty != 0x02 && !meshType f.ty then d
      else
        let d := errs.foldl (fun d e => noteLink l f.hopSrc e.1 e.2 d) d
        meshShow (meshReceive (bulkDeliver l f) l true f d)

def execBulkFrame (l : Fin 3) (s : State) : Out := onDev (bulkFrame l) s

/-- BROADCAST_COMMAND: a frame of type 0x18, each flood sequence number once (16 R481). -/
def broadcastCommand (l : Nat) (f : MeshFrame) (d : Dev) : Dev :=
  d.when (d.running && d.meshRole != 0 && f.ty == 0x18) (meshReceive (controlDeliver l f) l false f)

def execBroadcastCommand (l : Fin 3) (f : MeshFrame) (s : State) : Out := onMesh (broadcastCommand l f) s

/-! ## Records of the Hank port and their fences (19 R533, R552, R553) -/

/-- Whether every record that arrived on channel `v` up to place `n` has been acted on. -/
def Dev.actedTo (d : Dev) (v n : Nat) : Bool :=
  !((d.vc v).taken.any fun x => decide (x.1 ≤ n)) && !((d.vc v).fenced.any fun x => decide (x.no ≤ n))

/-- The reader that a record of type 0x61 names. -/
def StreamRec.reader (r : StreamRec) : Nat := r.word % 4

/-- Hand a card record to its reader: a release, a frame to the card held with the waiting time that the host names, or the answer that none is
held. -/
def cardRecord (r : StreamRec) (d : Dev) : Dev :=
  let c := r.reader
  readerShow c (if r.word.testBit 24 then cardRelease c d else cardSend c (field r.word 8 16) r.payload d)

/-- Whether a reader is still busy with an earlier card record. -/
def Dev.cardBusy (d : Dev) (c : Nat) : Bool := (d.reader c).exch.isSome || (d.vc 6).taken.any fun x => x.2.reader == c

/-- Act on a record of channel `v` (19 R553): each type on its own channel; a reserved type is dropped and counted. -/
def actRecord (v no : Nat) (r : StreamRec) (d : Dev) : Dev :=
  if v = 4 && r.ty = 0x40 then vehicleRecord r.word r.payload d
  else if v = 5 && r.ty = 0x50 then meshShow (meshSubmission r.word r.payload d)
  else if v = 6 && r.ty = 0x61 then
    if d.cardBusy r.reader then d.setVc 6 { d.vc 6 with taken := (d.vc 6).taken ++ [(no, r)] } else cardRecord r d
  else if v = 6 && r.ty = 0x64 then tagWrite r.word r.payload d
  else if v = 8 && r.ty = 0x80 then hankBlock r.word r.payload d
  else d.dropRecord v

/-- Act on the first held record of a channel whose markers have all been passed, so many times over the channels. -/
def releaseFences : Nat → Dev → Dev
  | 0, d => d
  | k + 1, d =>
    match (List.range 9).find? fun v => match (d.vc v).fenced with
        | x :: _ => x.holds.all fun h => d.actedTo h.1 h.2
        | [] => false with
    | none => d
    | some v =>
      match (d.vc v).fenced with
      | x :: rest => releaseFences k (actRecord v x.no x.rec' (d.setVc v { d.vc v with fenced := rest }))
      | [] => d

/-- Release what the fence markers no longer hold. -/
def settleFences (d : Dev) : Dev := releaseFences (sumN ((List.range 9).map fun v => (d.vc v).fenced.length)) d

/-- A marker that arrived as record `n` of channel `v`: what arrives from now on the named channels waits for channel `v` up to it. -/
def fenceMarker (v n mask : Nat) (d : Dev) : Dev :=
  if d.actedTo v n then d
  else each 9 (fun u d => d.when (mask.testBit u) fun d => d.setVc u { d.vc u with holds := (d.vc u).holds ++ [(v, n)] }) d

/-- Take a record of the host on channel `v`: a marker at once, another record unless markers or earlier held records hold it. -/
def takeRecord (v : Nat) (r : StreamRec) (d : Dev) : Dev :=
  let n := (d.vc v).got + 1
  let live := (d.vc v).holds.filter fun h => !d.actedTo h.1 h.2
  let d := d.setVc v { d.vc v with got := n, holds := live }
  if r.ty = 0x01 then fenceMarker v n (r.word % 65536) d
  else if live != [] || (d.vc v).fenced != [] then d.setVc v { d.vc v with fenced := (d.vc v).fenced ++ [{ no := n, holds := live, rec' := r }] }
  else settleFences (actRecord v n r d)

/-- FENCE_MARKER: a marker of the host on channel `v` that names a mask of channels. -/
def execFenceMarker (v : Fin 16) (mask : Nat) (s : State) : Out :=
  onDev (fun d => d.when (d.running && (vcBuffer v).isSome) (takeRecord v ⟨0x01, mask, []⟩)) s

/-- HANK_CELL. -/
def execHankCell (cell : Bytes) (s : State) : Out := onDev (fun d => d.when d.running (hankReceive takeRecord cell)) s

/-- Card records that wait behind an exchange that has ended are acted on in their order, until one waits for an answer again. -/
def nextCards (c : Nat) : Nat → Dev → Dev
  | 0, d => d
  | k + 1, d =>
    if (d.reader c).exch.isSome then d
    else
      match (d.vc 6).taken.find? fun x => x.2.reader == c with
      | none => d
      | some x => nextCards c k (cardRecord x.2 (d.setVc 6 { d.vc 6 with taken := (d.vc 6).taken.filter fun y => y.1 != x.1 }))

/-- Every reader goes on with its records, and the fences with what has been acted on. -/
def cardsGoOn (d : Dev) : Dev := settleFences (each 4 (fun c d => nextCards c (d.vc 6).taken.length d) d)

/-- CARD_FRAME: the answer of a card to the frame that waits, or a frame of the host with its waiting time and what is answered to it; the
next records follow (17 R495). -/
def cardExchange (c wait : Nat) (frame : Bytes) (a : CardAnswer) (d : Dev) : Dev :=
  let d := match (d.reader c).exch with
    | some x => d.when (x.1 == frame) (cardAnswer c a)
    | none => cardAnswer c a (cardSend c wait frame d)
  cardsGoOn d

def execCardFrame (c : Fin 4) (wait : Nat) (frame : Bytes) (a : CardAnswer) (s : State) : Out := onReader c (cardExchange c wait frame a) s

end Sys2Proof.Machine
end

