-- ==== Sys2Proof/Machine/Debug.lean ====
section
/-! DEFINITION. The debug port, breakpoints, boundary scan, and the errors of the memories (21 R599 to R610, R614, R615). -/
namespace Sys2Proof.Machine

/-! ## Exchanges (21 R599 to R602) -/

/-- Whether the debug port answers: the Loom die is supplied and not in reset. -/
def Dev.debugAwake (d : Dev) : Bool := d.loom == .started || d.loom == .running || d.loom == .recovery

/-- The debug record of the part changed. -/
def Dev.withDbg (f : DbgRec → DbgRec) (d : Dev) : Dev := { d with dbg := f d.dbg }

/-- Show the debug port in 0x2440.01: clock active, authenticated, halted. -/
def debugShow (active : Bool) (d : Dev) : Dev := d.set 0x2440 1 (maskOf [active, d.dbg.auth, d.dbg.halted])

/-- A response: status, the tag echoed, length, payload, CRC-16. -/
def debugResponse (st : Nat) (tag : Byte) (payload : Bytes) : Bytes :=
  let b := natLE 1 st ++ [tag] ++ natLE 2 payload.length ++ payload
  b ++ natLE 2 (crc16 b)

/-- One exchange: a request that is not well formed has status 0x01 and no effect; a status other than 0 has no payload. -/
def debugExchange (good : Bool) (tag : Byte) (f : Dev → Nat × Bytes × Dev) (d : Dev) : Dev :=
  d.when d.debugAwake fun d =>
    let z := if good then f d else (1, [], d)
    debugShow true (z.2.2.withDbg fun x => { x with resp := debugResponse z.1 tag (if z.1 = 0 then z.2.1 else []) })

/-- Whether Halt, Resume, Step and breakpoints are permitted (21 R602). -/
def Dev.mayHalt (d : Dev) : Bool := d.life == 0 || (d.dbg.auth && (d.life == 1 || d.life == 3))
/-- Whether every read is permitted. -/
def Dev.mayReadAll (d : Dev) : Bool := d.life == 0 || d.dbg.auth
/-- Whether writes are permitted. -/
def Dev.mayDebugWrite (d : Dev) : Bool := d.mayHalt
/-- Whether Reset is permitted. -/
def Dev.mayReset (d : Dev) : Bool := d.life == 0 || (d.dbg.auth && d.life != 4)

/-- DEBUG_IDENTIFY. -/
def debugIdentify (d : Dev) : Nat × Bytes × Dev :=
  (0, natLE 4 (d.get 0x1018 2) ++ natLE 4 (d.get 0x1018 3) ++ natLE 4 (d.get 0x1018 4) ++ natLE 1 d.life ++ natLE 1 (b2n d.dbg.auth), d)

def execDebugIdentify (good : Bool) (tag : Byte) (s : State) : Out := onDev (debugExchange good tag debugIdentify) s

/-- A new challenge of 16 free bytes. -/
def newChallenge (d : Dev) : Bytes × Dev :=
  let z := d.freshBytes 16
  (z.1, z.2.withDbg fun x => { x with challenge := some z.1 })

/-- DEBUG_CHALLENGE. -/
def debugChallenge (d : Dev) : Nat × Bytes × Dev := (0, newChallenge d)

def execDebugChallenge (good : Bool) (tag : Byte) (s : State) : Out := onDev (debugExchange good tag debugChallenge) s

/-- Whether a CMAC is that of slot 19 over the challenge and the serial number. -/
def Dev.debugMacRight (d : Dev) (mac : Bytes) : Bool :=
  match d.dbg.challenge, d.key 19 with
  | some c, some k => mac == padTo 16 (aesCmac k (c ++ natLE 4 (d.get 0x1018 4)))
  | _, _ => false

/-- DEBUG_AUTHENTICATE (21 R601): a failure renews the challenge, is counted and raises EV7; after 8 it is not permitted. -/
def debugAuthenticate (mac : Bytes) (d : Dev) : Nat × Bytes × Dev :=
  if mac.length ≠ 16 then (1, [], d)
  else if 8 ≤ d.dbg.fails then (3, [], d)
  else if d.debugMacRight mac then (0, [], d.withDbg fun x => { x with auth := true })
  else (3, [], (((newChallenge d).2.withDbg fun x => { x with fails := x.fails + 1 }).inc 0x2440 4).raiseEv 7)

def execDebugAuthenticate (good : Bool) (tag : Byte) (mac : Bytes) (s : State) : Out := onDev (debugExchange good tag (debugAuthenticate mac)) s

/-- DEBUG_AUTHENTICATION_IDLE: the clock has been idle for 1 s. -/
def execDebugAuthenticationIdle (s : State) : Out :=
  onDev (fun d => d.when d.debugAwake fun d => debugShow false (d.withDbg fun x => { x with auth := false })) s

/-! ## Halt, step and resume (21 R603 to R606) -/

/-- The conditions of a halt (21 R604). -/
def Dev.haltable (d : Dev) : Bool :=
  ((List.range 32).all fun o => decide (d.step o ≤ 1)) && ((List.range 4).all fun a => !d.bitO (axisIx a) 1 0 || d.ax a 0)
    && !d.supply.warning && !d.activating

/-- DEBUG_HALT: effective at the end of the tick. -/
def debugHalt (d : Dev) : Nat × Bytes × Dev :=
  if !d.mayHalt then (3, [], d)
  else if !d.haltable then (5, [], d)
  else if d.dbg.halted || d.dbg.pending then (0, [], d)
  else (0, [], d.withDbg fun x => { x with pending := true, cause := 0, index := 0, addr := 0, data := 0, cycle := 0 })

def execDebugHalt (good : Bool) (tag : Byte) (s : State) : Out := onDev (debugExchange good tag debugHalt) s

/-- DEBUG_RESUME: work restarts at the next tick edge. -/
def debugResume (d : Dev) : Nat × Bytes × Dev :=
  if !d.mayHalt then (3, [], d)
  else (0, [], d.withDbg fun x => { x with resuming := x.halted || x.pending })

def execDebugResume (good : Bool) (tag : Byte) (s : State) : Out := onDev (debugExchange good tag debugResume) s

/-- DEBUG_STEP: one tick of work; refused outside a halt and under a supply warning (log entry 31). -/
def debugStep (d : Dev) : Nat × Bytes × Dev :=
  if !d.mayHalt then (3, [], d)
  else if d.supply.warning || !(d.dbg.halted || d.dbg.pending) then (5, [], d)
  else (0, [], d.withDbg fun x => { x with stepping := true })

def execDebugStep (good : Bool) (tag : Byte) (s : State) : Out := onDev (debugExchange good tag debugStep) s

/-- DEBUG_STATUS. -/
def debugStatus (d : Dev) : Nat × Bytes × Dev :=
  let x := d.dbg
  (0, natLE 1 (maskOf [x.halted, x.pending, x.stepping]) ++ natLE 1 x.cause ++ natLE 1 x.index ++ zeros 1 ++ natLE 8 d.now
    ++ natLE 4 x.addr ++ natLE 4 x.data ++ natLE 2 x.cycle, d)

def execDebugStatus (good : Bool) (tag : Byte) (s : State) : Out := onDev (debugExchange good tag debugStatus) s

/-! ## Breakpoints (21 R607, R608) -/

/-- SET_BREAKPOINT. -/
def setBreakpoint (i : Nat) (desc : Bytes) (d : Dev) : Nat × Bytes × Dev :=
  if !d.mayHalt then (3, [], d)
  else if 15 < i || desc.length ≠ 16 then (1, [], d)
  else (0, [], d.withDbg fun x => { x with points := tset x.points i desc })

def execSetBreakpoint (good : Bool) (tag : Byte) (i : Nat) (desc : Bytes) (s : State) : Out :=
  onDev (debugExchange good tag (setBreakpoint i desc)) s

/-- CLEAR_BREAKPOINT. -/
def clearBreakpoint (i : Nat) (d : Dev) : Nat × Bytes × Dev :=
  if !d.mayHalt then (3, [], d)
  else if 15 < i then (1, [], d)
  else (0, [], d.withDbg fun x => { x with points := tdel x.points i })

def execClearBreakpoint (good : Bool) (tag : Byte) (i : Nat) (s : State) : Out := onDev (debugExchange good tag (clearBreakpoint i)) s

/-- Whether an address is in SRAM or MRAM (21 R602). -/
def inSram (a : Nat) : Bool := decide (a < 0x01800000)
/-- MRAM. -/
def inMram (a : Nat) : Bool := decide (0x20000000 ≤ a ∧ a < 0x20800000)
/-- The Store die. -/
def inStore (a : Nat) : Bool := decide (0x40000000 ≤ a ∧ a < 0x50000000)
/-- Fabric registers. -/
def inFabric (a : Nat) : Bool := decide (0x60000000 ≤ a ∧ a < 0x60010000)

/-- Whether a descriptor matches an access, or an event source that is raised. -/
def Dev.pointMatches (d : Dev) (desc : Bytes) (write : Bool) (addr data : Nat) : Bool :=
  let kind := byteAt desc 12
  let low := 2 ^ min 24 (byteAt desc 13)
  if kind = 4 then d.evPending (byteAt desc 14)
  else
    (if write then kind == 2 || kind == 3 else kind == 1 || kind == 3) && (inSram addr || inMram addr)
      && addr / low == leAt desc 0 4 / low && Nat.land (data ^^^ leAt desc 4 4) (leAt desc 8 4) == 0

/-- BREAKPOINT_MATCH: a halt at the end of the tick with the lowest cycle and index, or a count. -/
def breakpointMatch (i : Nat) (write : Bool) (addr data cycle : Nat) (d : Dev) : Dev :=
  match tfind d.dbg.points i with
  | none => d
  | some desc =>
    d.when (d.running && !d.dbg.halted && d.pointMatches desc write addr data) fun d =>
      if !d.haltable then d.inc 0x2440 3
      else
        let x := d.dbg
        let first := !x.pending || (x.cause == 1 && decide (cycle < x.cycle ∨ (cycle = x.cycle ∧ i < x.index)))
        d.when first fun d => d.withDbg fun x =>
          { x with pending := true, cause := 1, index := i, addr := addr % 2 ^ 32, data := data % 2 ^ 32, cycle := cycle % 65536 }

def execBreakpointMatch (i : Fin 16) (write : Bool) (addr data cycle : Nat) (s : State) : Out :=
  onDev (breakpointMatch i write addr data cycle) s

/-! ## Reads, writes and the reset (21 R600, R602) -/

/-- Whether an address lies in the mirror window. -/
def inMirror (a : Nat) : Bool := decide (Config.mirrorBase ≤ a ∧ a < Config.mirrorBase + 0x10000)

/-- A byte of the mirror window. -/
def Dev.mirrorByte (d : Dev) (o : Nat) : Byte := (tget [] d.tick.mirror (o / 256)).getD (o % 256) 0

/-- Whether every address of a run satisfies a test. -/
def runAll (p : Nat → Bool) (a n : Nat) : Bool := (List.range n).all fun i => p (a + i)

/-- Whether a run of addresses can be read: one memory, and no Bobbin slot storage. -/
def readable (a n : Nat) : Bool :=
  runAll inSram a n || runAll inStore a n || runAll inFabric a n || runAll (fun x => inMram x && Config.mramPartition x != 3) a n

/-- The data of a run of addresses: the fabric registers' are free (log entry 32). -/
def debugData (a n : Nat) (s : State) : Bytes × Dev :=
  if inFabric a then s.dev.freshBytes n
  else ((List.range n).map fun i => if inMirror (a + i) then s.dev.mirrorByte (a + i - Config.mirrorBase) else memGet s.mem (a + i), s.dev)

/-- Whether the length of a read or write is one of R600. -/
def debugLen (n : Nat) : Bool := decide (4 ≤ n ∧ n ≤ 1024 ∧ n % 4 = 0)

/-- DEBUG_READ. -/
def debugRead (a n : Nat) (s : State) (d : Dev) : Nat × Bytes × Dev :=
  if !debugLen n then (1, [], d)
  else if !readable a n then (4, [], d)
  else if !d.mayReadAll && !runAll inMirror a n then (3, [], d)
  else (0, debugData a n { s with dev := d })

def execDebugRead (good : Bool) (tag : Byte) (addr len : Nat) (s : State) : Out := onDev (debugExchange good tag (debugRead addr len s)) s

/-- Whether a run of addresses can be written: SRAM or the configuration partition of MRAM. -/
def debugWritable (a n : Nat) : Bool := runAll inSram a n || runAll (fun x => inMram x && Config.mramPartition x == 0) a n

/-- The status of a write: the address is judged before the rights (log entry 31). -/
def debugWriteStatus (a n : Nat) (d : Dev) : Nat :=
  if !debugLen n then 1 else if !debugWritable a n then 4 else if !d.mayDebugWrite then 3 else 0

/-- DEBUG_WRITE. -/
def debugWrite (good : Bool) (tag : Byte) (a : Nat) (data : Bytes) (s : State) : Out :=
  let st := debugWriteStatus a data.length s.dev
  let d := debugExchange good tag (fun d => (st, [], d)) s.dev
  if s.dev.debugAwake && good && st = 0 then .next { s with dev := d, mem := memPut s.mem a data } else .next { s with dev := d }

def execDebugWrite (good : Bool) (tag : Byte) (addr : Nat) (data : Bytes) (s : State) : Out := debugWrite good tag addr data s

/-- DEBUG_RESET: the response is sent before a warm reset with cause 8. -/
def debugReset (good : Bool) (tag : Byte) (d : Dev) : Dev :=
  let ok := d.mayReset
  let e := debugExchange good tag (fun d => (if ok then 0 else 3, [], d)) d
  if d.debugAwake && good && ok then (warmReset 8 e).withDbg fun x => { x with resp := e.dbg.resp } else e

def execDebugReset (good : Bool) (tag : Byte) (s : State) : Out := onDev (debugReset good tag) s

/-! ## Boundary scan (21 R609, R610) -/

/-- The boundary-scan record of the part changed. -/
def Dev.withJtag (f : JtagRec → JtagRec) (d : Dev) : Dev := { d with jtag := f d.jtag }

/-- An instruction that leaves the Loom die running: one that held it is left, and a warm start with cause 8 is due. -/
def scanFree (code : Nat) (shift : Bytes) (d : Dev) : Dev :=
  d.withJtag fun j => { j with instr := code, shift := shift, hold := false }

/-- An instruction of the scan port, which works while the part is supplied. -/
def onScan (f : Dev → Dev) (s : State) : Out := onDev (fun d => d.when (d.loom != .unpowered) f) s

def execBypass (s : State) : Out := onScan (scanFree 0xFF [0#8]) s

/-- The bytes of IDCODE as they are shifted out. -/
def idcodeBytes : Bytes := natLE 4 0x13240A4F

def execIdcode (s : State) : Out := onScan (scanFree 1 idcodeBytes) s

/-- SAMPLE_PRELOAD: what the boundary register captures and what is preloaded. -/
def samplePreload (captured preload : Bytes) (d : Dev) : Dev :=
  (scanFree 2 captured d).withJtag fun j => { j with captured := captured, preload := preload }

def execSamplePreload (captured preload : Bytes) (s : State) : Out := onScan (samplePreload captured preload) s

/-- EXTEST, CLAMP and HIGHZ: in the Factory state the Loom die is held in reset, a warm reset to the Mill die; else BYPASS. -/
def scanHold (code : Nat) (shift : Bytes) (d : Dev) : Dev :=
  if d.life != 0 then scanFree 0xFF [0#8] d
  else
    let d := if d.jtag.hold then d else warmReset 8 d
    d.withJtag fun j => { j with instr := code, shift := shift, hold := true }

def execExtest (s : State) : Out := onScan (fun d => scanHold 3 d.jtag.captured d) s
def execClamp (s : State) : Out := onScan (scanHold 4 [0#8]) s
def execHighz (s : State) : Out := onScan (scanHold 5 [0#8]) s

/-! ## Memory errors (21 R614, R615) -/

/-- The effect of an uncorrectable codeword by what it holds; `data` are its 32 bytes as stored. -/
def memEffect (place : MemPlace) (data : Bytes) (d : Dev) : Dev :=
  match place with
  | .whorl p => pairFault p d
  | .fabric => warmReset 6 d
  | .saveBuffer => d.when d.supply.writing.isSome fun d => { d with supply := { d.supply with writing := none, toProvisional := false } }.setBitO 0x2100 4 1 false
  | .endpoint a => meshShow (d.withMesh fun m => { m with table := tdel m.table a })
  | .frame l => d.setLane l { d.lane l with ready := (d.lane l).ready.drop 1 }
  | .capture c => effCapture c 0 d
  | .record v n => d.setVc v { d.vc v with out := (d.vc v).out.eraseIdx n }
  | .mirror k => { d with tick := { d.tick with
      mirror := tset d.tick.mirror (k.val / 8) (patchBytes (padTo 256 (tget [] d.tick.mirror (k.val / 8))) (32 * (k.val % 8)) data) } }
  | .display p k => d.setDisp p { d.disp p with
      image := (List.range 64).foldl (fun t i => setLevel t (64 * k.val + i) (field (byteAt data (i / 2)) (4 * (i % 2)) 4)) (d.disp p).image }
  | .crcRecord ix sub o => d.setB ix sub (patchBytes (d.getB ix sub) o data)
  | .object ix sub => { d with objs := tdel d.objs (okey ix sub), blobs := tdel d.blobs (okey ix sub) }
  | .bobbin t pend =>
    let r := d.keyRec t
    d.setKey t (if pend then { r with pend := none } else { r with active := none })
  | .image _ => d

/-- MEMORY_SCRUB: a codeword of memory `m` as stored at `addr`, and whether a pass ends with it. -/
def memoryScrub (m : Nat) (place : MemPlace) (addr : Nat) (word : Bytes) (pass : Bool) (d : Dev) : Dev :=
  d.when (d.debugAwake && word.length == 40) fun d =>
    let ix := 0x2420 + m
    let d := d.when pass fun d => d.incWrap ix 6
    match rsBytes 8 word [] with
    | some w => d.when (w != word) fun d => ((d.inc ix 1).set ix 3 (addr % 2 ^ 32)).raiseEv 0
    | none =>
      let d := (((d.inc ix 2).set ix 4 (addr % 2 ^ 32)).set ix 5 d.now).raiseEv 1
      let slot := match place with
        | .endpoint a => a
        | _ => 0
      memEffect place (word.take 32) (d.skein { kind := 2, ev := some 1, ix := ix, sub := 2, before := natLE 4 m ++ natLE 4 addr, after := natLE 4 slot })

def execMemoryScrub (mem : Fin 3) (place : MemPlace) (addr : Nat) (word : Bytes) (pass : Bool) (s : State) : Out :=
  onDev (memoryScrub mem place addr word pass) s

end Sys2Proof.Machine
end

