-- ==== Sys2Proof/Machine/Tick.lean ====
section
/-! DEFINITION. The Warp tick: the hard windows and the per-tick tasks in their order, the tick monitor, the mirror window, and a tick of
a debug halt (01 R21 to R36, R44; 19 R541; 21 R603 to R606). -/
namespace Sys2Proof.Machine

/-! ## The mirror window (19 R541) -/

/-- A line of 256 bytes from pieces in rising order of their offset. -/
def mirrorLine (ps : List (Nat × Bytes)) : Bytes :=
  padTo 256 (ps.foldl (fun acc x => acc ++ zeros (x.1 - acc.length) ++ x.2) [])

/-- The part with lines of the mirror window put. -/
def Dev.putLine (d : Dev) (i : Nat) (ps : List (Nat × Bytes)) : Dev :=
  { d with tick := { d.tick with mirror := tset d.tick.mirror i (mirrorLine ps) } }

/-- Objects of consecutive sub-indices at consecutive places of `w` bytes. -/
def Dev.objRun (d : Dev) (off w ix sub n : Nat) : List (Nat × Bytes) :=
  (List.range n).map fun i => (off + w * i, padTo w (d.objBytes ix (sub + i)))

/-- The values of a meter. -/
def mirrorMeter (d : Dev) (m : Nat) : List (Nat × Bytes) :=
  let b := meterIx m
  [(0, d.objBytes (b + 5) 1), (4, d.objBytes (b + 5) 2), (6, d.objBytes (b + 5) 6), (7, d.objBytes (b + 7) 1), (8, d.objBytes (b + 5) 3),
    (0x10, d.objBytes (b + 5) 4), (0x18, d.objBytes (b + 5) 5)]
    ++ d.objRun 0x20 8 (b + 5) 7 4 ++ d.objRun 0x40 4 (b + 5) 0xB 4 ++ d.objRun 0x50 4 (b + 5) 0xF 4
    ++ [(0x60, d.objBytes (b + 5) 0x13), (0x64, d.objBytes (b + 5) 0x14), (0x68, d.objBytes (b + 8) 5)] ++ d.objRun 0x70 12 (b + 6) 1 8

/-- The values of an outlet. -/
def mirrorOutlet (d : Dev) (o : Nat) : List (Nat × Bytes) :=
  let v := outletIx o
  [(0, d.objBytes (v + 3) 1), (2, d.objBytes (v + 3) 2), (4, d.objBytes (v + 3) 3), (8, d.objBytes (v + 3) 4), (0xC, d.objBytes (v + 3) 5),
    (0xE, d.objBytes (v + 4) 2), (0x10, d.objBytes (v + 4) 1), (0x14, d.objBytes (protIx o) 0x12), (0x16, d.objBytes (insIx o) 0xD),
    (0x18, d.objBytes (protIx o) 0x10), (0x1C, d.objBytes (protIx o) 0x11), (0x20, d.objBytes (insIx o) 0xC)]

/-- The values of an axis. -/
def mirrorAxis (d : Dev) (a : Nat) : List (Nat × Bytes) :=
  let x := axisIx a
  [(0, d.objBytes x 0x30), (2, d.objBytes x 0x36), (3, d.objBytes x 0x37), (8, d.objBytes x 0x31), (0x10, d.objBytes x 0x32),
    (0x18, d.objBytes x 0x33), (0x1C, d.objBytes x 0x34), (0x20, d.objBytes x 0x35)]

/-- The values of a load channel. -/
def mirrorLoad (d : Dev) (n : Nat) : List (Nat × Bytes) :=
  let x := loadIx n
  [(0, d.objBytes x 0x10), (2, d.objBytes x 0x11), (4, d.objBytes x 0x12), (6, d.objBytes x 0x13), (8, d.objBytes x 0x14), (0xA, d.objBytes x 0x20)]

/-- The word of a channel: its latest calibrated main-path sample, settling, saturated in the filter or in its calibration, invalid. -/
def mirrorChannel (d : Dev) (c : Nat) : Bytes :=
  let y := (d.cal c).main.headD {}
  let w := (d.chan c).main.headD {}
  natLE 4 (spat 24 y.y + 2 ^ 29 * maskOf [w.settling, (d.cal c).mainSat, !y.valid])

/-- So many entries of a kind, each `w` bytes after the one before. -/
def mirrorRun (w first n : Nat) (f : Nat → List (Nat × Bytes)) : List (Nat × Bytes) :=
  (List.range n).flatMap fun i => (f (first + i)).map fun x => (w * i + x.1, x.2)

/-- The head of the window: device time, UTC, fraction and flags. -/
def mirrorHead (d : Dev) : List (Nat × Bytes) :=
  [(0, natLE 8 d.now), (8, natLE 8 d.utc), (0x10, natLE 4 (if d.civil.valid then (d.civilAt d.now).2 else 0)),
    (0x14, natLE 4 (b2n d.civil.valid + 2 * b2n d.supply.warning + 4 * (d.get 0x2000 2 % 4)))]

/-- MIRROR_REFRESH in H8 (01 R44). -/
def mirrorRefresh (d : Dev) : Dev :=
  let d := d.putLine 0 (mirrorHead d)
  let d := each 36 (fun m d => d.putLine (1 + m) (mirrorMeter d m)) d
  let d := each 8 (fun i d => d.putLine (0x28 + i) (mirrorRun 0x40 (4 * i) 4 (mirrorOutlet d))) d
  let d := d.putLine 0x30 (mirrorRun 0x40 0 4 (mirrorAxis d))
  let d := each 4 (fun i d => d.putLine (0x31 + i) (mirrorRun 0x10 (16 * i) 16 (mirrorLoad d))) d
  let d := each 5 (fun i d => d.putLine (0x38 + i) (mirrorRun 4 (64 * i) (min 64 (288 - 64 * i)) fun c => [(0, mirrorChannel d c)])) d
  d.putLine 0x3D (d.objRun 0 4 0x5811 1 4)

/-! ## The tick monitor (01 R34 to R36) -/

/-- The high-water marks: H10 only in the tick after a supply warning. -/
def highWater (f : StatusFrame) (d : Dev) : Dev :=
  each 14 (fun i d =>
    let was := d.get 0x2000 (0x10 + i)
    d.when (i != 9 || d.supply.seenAt == some d.now) fun d => d.set 0x2000 (0x10 + i) (max was (min 30720 (f.cycles.getD i 0)))) d

/-- One window or task late at its deadline: counted, recorded, EV4, Skein, and event 0x0005 for H1, H2 and H4. -/
def overrun (w : Nat) (d : Dev) : Dev :=
  let d := (((d.inc 0x2000 4).set 0x2000 5 w).raiseEv 4).skein { kind := 2, ev := some 4, ix := 0x2000, sub := 5, after := natLE 4 w }
  d.when (w == 1 || w == 2 || w == 4) fun d => d.event 0x0005 0xFF w [] []

/-- The monitor of a tick; a window or task late twice in a row is a fabric fault (01 R35). -/
def tickMonitor (f : StatusFrame) (d : Dev) : Dev :=
  let late := f.late.filter fun w => decide ((1 ≤ w ∧ w ≤ 10) ∨ (0x11 ≤ w ∧ w ≤ 0x14))
  let twice := late.any fun w => d.tick.late.contains w
  let d := late.foldl (fun d w => overrun w d) (highWater f d)
  let d := { d with tick := { d.tick with late := late } }
  if twice then warmReset 6 d else d

/-! ## The work of a tick -/

/-- H1 and H2 with the gains formed at cycle 0 (04 R124; 06 R159, R203), and the capture of the Hank port. -/
def sampleWindows (d : Dev) : Dev :=
  hankCapTick (each 288 takeConfig (calibrationWindow (sampleHandover (each 288 gainUpdate d))))

/-- The sequencers (10 R326); frozen in the pause of the application, their times moved on (20 R591). -/
def sequencers (d : Dev) : Dev :=
  each 32 (fun o d =>
    let d := pilotTick o d
    let r := d.out o
    if d.pausing 1 then
      d.setOut o { r with since := r.since + 1, limitsAt := r.limitsAt.map (· + 1), frameAt := r.frameAt + 1, reqAt := r.reqAt + 1 }
    else sequencerTick o d) d

/-- H6: held in the pause of the application, but for tripped outlets and the master's shares (20 R591). -/
def powerWindow (d : Dev) : Dev :=
  if d.pausing 1 then
    let d := each 32 (fun o d => d.when (d.tripHeld o || d.warned) fun d => d.setOut o { d.out o with current := 0 }) d
    d.when (d.onRing && d.isMaster) masterShares
  else allocationTick d

/-- H7: the ring report, the frames to the heads, the command frame with its heartbeat, permits, hold actions and zero bands (01 R21). -/
def outputCommit (d : Dev) : Dev :=
  let d := permitOut (safetyFrame (permitTick (headFrames (reportTick d))))
  let d := { d with tick := { d.tick with framed := true }, hold := { d.hold with
    actions := (List.range 64).map fun n => (n, d.get 0x2110 (n + 1)), bands := (List.range 8).map fun g => (g, d.get 0x2111 (g + 1)) } }
  if d.pausing 1 then d else each 32 (fun o d => d.when (d.canOpen o || d.etherOpen o) fun d => d.setOut o { d.out o with out := (d.out o).out.drop 1 }) d

/-- The tasks of the processors, the reader, the Hank port and the arbiter's rank of staged records (14 R420; 17 R493; 07 R263). -/
def tickTasks (d : Dev) : Dev :=
  let d := if d.pausing 1 then d else each 2 rowDrive d
  stagedRank (settleReadings (cardsGoOn (activationTick (hankTick (readerTick d)))))

/-- The windows and tasks of tick `d.now` by its status frame. 01 R30 gives the processors' tasks no place among the windows: AP0's sequencers
run between H2 and H3, the other tasks after H9: the model's choice (log entry 88). -/
def tickWork (f : StatusFrame) (d : Dev) : Dev :=
  let d := if d.supply.warning && d.supply.seenAt.isNone then { d with supply := { d.supply with seenAt := some d.now, saved := false } } else d
  let d := slewTick (each 4 pulseEmit (ocFrame f (loadDiagnostics f d)))
  let d := protectionTick (sequencers (sampleWindows d))
  let d := meteringWindow d
  let d := motionTick f (d.when (!f.late.contains 4) Dev.bankNow)
  let d := mirrorRefresh (outputCommit (powerWindow d))
  tickMonitor f (tickTasks (meshTick (twistTick f d)))

/-! ## Debug halts (21 R603 to R606) -/

/-- A halt begins: the panels blank, the Twist drivers are released and the reader fields go off; a run of invalid samples begins. -/
def enterHalt (d : Dev) : Dev :=
  let d := each 2 (fun p d => d.setDisp p { d.disp p with drives := [] }) d
  let d := each 3 abandonSending d
  let d := each 4 (fun c d => readerShow c (if (d.reader c).phase != 0 then fieldOff c d else d)) d
  let d := each 288 (fun c d => d.when (d.cal c).wasValid fun d => d.setCal c { d.cal c with wasValid := false, haltRuns := (d.cal c).haltRuns + 1 }) d
  d.withDbg fun x => { x with halted := true, pending := false }

/-- Work resumes: EV2, the count of halts, and the events of the runs that the halts began. -/
def leaveHalt (d : Dev) : Dev :=
  let d := (d.inc 0x2440 2).raiseEv 2
  each 288 (fun c d =>
    let n := (d.cal c).haltRuns
    d.when (n != 0) fun d => (each n (fun _ => invalidRun c) d).setCal c { d.cal c with haltRuns := 0 }) d

/-- A halted tick: the Mill die works on, the filter units run without handing over, the metering engines take an invalid sample, and
no heartbeat is sent. No window is late in it, so that a late one after the halt is the first of a run (01 R35). -/
def haltedTick (f : StatusFrame) (d : Dev) : Dev :=
  let d := each 288 takeConfig (sampleHandover (ocFrame f (loadDiagnostics f d)))
  let d := each 288 (fun c d => d.setCal c { d.cal c with main := push 127 {} (d.cal c).main, locked := none }) d
  let d := (meteringWindow d).when (!f.late.contains 4) Dev.bankNow
  { d with whorl := { d.whorl with silent := d.whorl.silent + 1 }, tick := { d.tick with late := [] } }

/-- WARP_TICK: the Mill die works in every tick while it has power; device time counts on in every tick (01 R24, R28); its work is done but in a debug halt; a step halts again at its end; a
warm reset that was commanded follows the H4 of the tick. -/
def warpTick (f : StatusFrame) (d : Dev) : Dev :=
  if !d.ticking then d.when (d.loom != .unpowered) (millTick f) else
    let n := d.now + 1
    let e := if d.dbg.halted || d.dbg.pending then d else closeReadings d
    let e := if e.dbg.pending then enterHalt e else e
    let resumes := e.dbg.halted && (e.dbg.resuming || e.supply.warning)
    let steps := e.dbg.halted && !resumes && e.dbg.stepping
    let e := ringTick { e.clockRead f.battery with now := n }
    let e :=
      if e.dbg.halted && !resumes && !steps then haltedTick f e
      else
        let e := e.withDbg fun x => { x with halted := false, stepping := false, resuming := false }
        let e := tickWork f (if resumes then leaveHalt e else e)
        let e := if e.supply.resetDue && !f.late.contains 4 then warmReset 4 e else e
        if steps && e.ticking then enterHalt e else e
    let e := if e.ticking then e.setBitO 0x2440 1 2 e.dbg.halted else e
    { e with now := n }

def execWarpTick (f : StatusFrame) (s : State) : Out := onDev (warpTick f) s

end Sys2Proof.Machine
end

