-- ==== Sys2Proof/Machine/Dispatch.lean ====
section
/-! DEFINITION. The meaning of each command: one arm per constructor. -/
namespace Sys2Proof.Machine

open Sys2Proof

def exec (i : Instr) (s : State) : Host.Outcome State Fault Refusal :=
  match i with
  | .warpTick f => Sys2Proof.Machine.execWarpTick f s
  | .forcedQuantumClose m => Sys2Proof.Machine.execForcedQuantumClose m s
  | .quantumRegistration m => Sys2Proof.Machine.execQuantumRegistration m s
  | .pilotStateChange o => Sys2Proof.Machine.execPilotStateChange o s
  | .clockFault => Sys2Proof.Machine.execClockFault s
  | .holdoverEntry => Sys2Proof.Machine.execHoldoverEntry s
  | .masterTakeover => Sys2Proof.Machine.execMasterTakeover s
  | .masterRestore => Sys2Proof.Machine.execMasterRestore s
  | .shareFallback => Sys2Proof.Machine.execShareFallback s
  | .supplyWarning => Sys2Proof.Machine.execSupplyWarning s
  | .powerFailSaveStart => Sys2Proof.Machine.execPowerFailSaveStart s
  | .supplyWarningHold => Sys2Proof.Machine.execSupplyWarningHold s
  | .saveCommit => Sys2Proof.Machine.execSaveCommit s
  | .stagedRecordsWrite => Sys2Proof.Machine.execStagedRecordsWrite s
  | .supplyWarningClear => Sys2Proof.Machine.execSupplyWarningClear s
  | .brownOutRecovery => Sys2Proof.Machine.execBrownOutRecovery s
  | .supplyReset => Sys2Proof.Machine.execSupplyReset s
  | .powerOnReset => Sys2Proof.Machine.execPowerOnReset s
  | .powerOnResetRelease => Sys2Proof.Machine.execPowerOnResetRelease s
  | .warmReset => Sys2Proof.Machine.execWarmReset s
  | .watchdogExpiry => Sys2Proof.Machine.execWatchdogExpiry s
  | .coldStart x => Sys2Proof.Machine.execColdStart x s
  | .warmStart x => Sys2Proof.Machine.execWarmStart x s
  | .firstTickAfterStart => Sys2Proof.Machine.execFirstTickAfterStart s
  | .resetHoldExpiry => Sys2Proof.Machine.execResetHoldExpiry s
  | .groupCurrentConfirmed seen => Sys2Proof.Machine.execGroupCurrentConfirmed seen s
  | .contactorReleaseDelay g => Sys2Proof.Machine.execContactorReleaseDelay g s
  | .groupConfirmTimeout g => Sys2Proof.Machine.execGroupConfirmTimeout g s
  | .controlReclaim micros => Sys2Proof.Machine.execControlReclaim micros s
  | .commandWarmReset role v => Sys2Proof.Machine.execCommandWarmReset role v s
  | .islandHeartbeatTimeout => Sys2Proof.Machine.execIslandHeartbeatTimeout s
  | .dictionaryRequest q frame => Sys2Proof.Machine.execDictionaryRequest q frame s
  | .dictionaryRead => Sys2Proof.Machine.execDictionaryRead s
  | .dictionaryWrite => Sys2Proof.Machine.execDictionaryWrite s
  | .writeTakesEffect => Sys2Proof.Machine.execWriteTakesEffect s
  | .mramCommit => Sys2Proof.Machine.execMramCommit s
  | .segmentWrite => Sys2Proof.Machine.execSegmentWrite s
  | .segmentRead => Sys2Proof.Machine.execSegmentRead s
  | .segmentTransferTimeout k => Sys2Proof.Machine.execSegmentTransferTimeout k s
  | .sourceRecordRelease r => Sys2Proof.Machine.execSourceRecordRelease r s
  | .ethernetDatagram e v6 ip ports fragmented frame => Sys2Proof.Machine.execEthernetDatagram e v6 ip ports fragmented frame s
  | .canEnvelopeDownload p fd client load => Sys2Proof.Machine.execCanEnvelopeDownload p fd client load s
  | .canSdoUpload p fd client ix sub => Sys2Proof.Machine.execCanSdoUpload p fd client ix sub s
  | .compactRequest l f => Sys2Proof.Machine.execCompactRequest l f s
  | .mailboxSubmit q len frame => Sys2Proof.Machine.execMailboxSubmit q len frame s
  | .mailboxRelease q => Sys2Proof.Machine.execMailboxRelease q s
  | .hstatClear mask => Sys2Proof.Machine.execHstatClear mask s
  | .evpendClear k mask => Sys2Proof.Machine.execEvpendClear k mask s
  | .mirrorWrite addr data => Sys2Proof.Machine.execMirrorWrite addr data s
  | .clearEvents role v => Sys2Proof.Machine.execClearEvents role v s
  | .upstreamFrame l arrival frame => Sys2Proof.Machine.execUpstreamFrame l arrival frame s
  | .coreMissing l => Sys2Proof.Machine.execCoreMissing l s
  | .linkAcquire l => Sys2Proof.Machine.execLinkAcquire l s
  | .characterAlignmentHeld l => Sys2Proof.Machine.execCharacterAlignmentHeld l s
  | .capabilityTrainingSet l set => Sys2Proof.Machine.execCapabilityTrainingSet l set s
  | .alignComplete l arrival => Sys2Proof.Machine.execAlignComplete l arrival s
  | .rateSwitchTick l => Sys2Proof.Machine.execRateSwitchTick l s
  | .gen2AcquisitionTimeout l => Sys2Proof.Machine.execGen2AcquisitionTimeout l s
  | .fourFramesWithoutCore l => Sys2Proof.Machine.execFourFramesWithoutCore l s
  | .markerOutOfTime l => Sys2Proof.Machine.execMarkerOutOfTime l s
  | .alignmentLost l => Sys2Proof.Machine.execAlignmentLost l s
  | .recoverSuccess l => Sys2Proof.Machine.execRecoverSuccess l s
  | .recoverTimeout l => Sys2Proof.Machine.execRecoverTimeout l s
  | .linkDisable role l => Sys2Proof.Machine.execLinkDisable role l s
  | .linkEnable role l => Sys2Proof.Machine.execLinkEnable role l s
  | .acceptNewHead role l v => Sys2Proof.Machine.execAcceptNewHead role l v s
  | .headRegisterAccess role l v => Sys2Proof.Machine.execHeadRegisterAccess role l v s
  | .channelConfigurationWritten role c sub v => Sys2Proof.Machine.execChannelConfigurationWritten role c sub v s
  | .filterBankWritten role p stage bank v => Sys2Proof.Machine.execFilterBankWritten role p stage bank v s
  | .bankSwap role p v => Sys2Proof.Machine.execBankSwap role p v s
  | .loadDefaults role p v => Sys2Proof.Machine.execLoadDefaults role p v s
  | .lockGroupWrite role g sub v => Sys2Proof.Machine.execLockGroupWrite role g sub v s
  | .meterConfigurationWrite role m off sub v => Sys2Proof.Machine.execMeterConfigurationWrite role m off sub v s
  | .pulseWidthExpiry j => Sys2Proof.Machine.execPulseWidthExpiry j s
  | .pulseOutputConfiguration role j sub v => Sys2Proof.Machine.execPulseOutputConfiguration role j sub v s
  | .calibrationConstantWritten role c sub v => Sys2Proof.Machine.execCalibrationConstantWritten role c sub v s
  | .captureStart role c v => Sys2Proof.Machine.execCaptureStart role c v s
  | .captureCancel role c => Sys2Proof.Machine.execCaptureCancel role c s
  | .captureComplete c => Sys2Proof.Machine.execCaptureComplete c s
  | .temperatureSourceFailure c => Sys2Proof.Machine.execTemperatureSourceFailure c s
  | .calibrationRecordCheck => Sys2Proof.Machine.execCalibrationRecordCheck s
  | .boundaryStep => Sys2Proof.Machine.execBoundaryStep s
  | .subintervalDeviceTimeClose m => Sys2Proof.Machine.execSubintervalDeviceTimeClose m s
  | .heldBoundaryStep => Sys2Proof.Machine.execHeldBoundaryStep s
  | .stagedRecordCommit => Sys2Proof.Machine.execStagedRecordCommit s
  | .stepCivilTime role v => Sys2Proof.Machine.execStepCivilTime role v s
  | .slewCivilTime role v => Sys2Proof.Machine.execSlewCivilTime role v s
  | .batteryClockCopy => Sys2Proof.Machine.execBatteryClockCopy s
  | .billingControlWrite role m sub v => Sys2Proof.Machine.execBillingControlWrite role m sub v s
  | .passiveCalendarWrite role k v => Sys2Proof.Machine.execPassiveCalendarWrite role k v s
  | .activationTimeWrite role k v => Sys2Proof.Machine.execActivationTimeWrite role k v s
  | .commandSnapshot role => Sys2Proof.Machine.execCommandSnapshot role s
  | .commandSnapshotResetMaxima role => Sys2Proof.Machine.execCommandSnapshotResetMaxima role s
  | .sessionRecordClose o => Sys2Proof.Machine.execSessionRecordClose o s
  | .requestReading role m v => Sys2Proof.Machine.execRequestReading role m v s
  | .periodicReading m => Sys2Proof.Machine.execPeriodicReading m s
  | .readingSigned => Sys2Proof.Machine.execReadingSigned s
  | .readingGivenOut => Sys2Proof.Machine.execReadingGivenOut s
  | .readingReissue => Sys2Proof.Machine.execReadingReissue s
  | .tamperInputChange k level battery => Sys2Proof.Machine.execTamperInputChange k level battery s
  | .tamperRecordCopy r => Sys2Proof.Machine.execTamperRecordCopy r s
  | .batteryLow => Sys2Proof.Machine.execBatteryLow s
  | .tamperDomainStop => Sys2Proof.Machine.execTamperDomainStop s
  | .tamperConfigurationWritten role ix sub v => Sys2Proof.Machine.execTamperConfigurationWritten role ix sub v s
  | .cmSlacParmReq o mac run => Sys2Proof.Machine.execCmSlacParmReq o mac run s
  | .cmStartAttenCharInd o mac run sounds => Sys2Proof.Machine.execCmStartAttenCharInd o mac run sounds s
  | .cmMnbcSoundInd o mac run atten => Sys2Proof.Machine.execCmMnbcSoundInd o mac run atten s
  | .cmAttenCharInd o => Sys2Proof.Machine.execCmAttenCharInd o s
  | .cmSlacMatchReq o mac run => Sys2Proof.Machine.execCmSlacMatchReq o mac run s
  | .vehicleLinkTimeout o => Sys2Proof.Machine.execVehicleLinkTimeout o s
  | .vehicleCanFrame o id data => Sys2Proof.Machine.execVehicleCanFrame o id data s
  | .chademoVehicleFrame o data => Sys2Proof.Machine.execChademoVehicleFrame o data s
  | .gbtBcl o data => Sys2Proof.Machine.execGbtBcl o data s
  | .gbtBst frame => Sys2Proof.Machine.execGbtBst frame s
  | .canRequestTimeout o => Sys2Proof.Machine.execCanRequestTimeout o s
  | .ceLow o => Sys2Proof.Machine.execCeLow o s
  | .hostLimitsWrite role o sub v => Sys2Proof.Machine.execHostLimitsWrite role o sub v s
  | .limitsStale o => Sys2Proof.Machine.execLimitsStale o s
  | .stepTimeout o => Sys2Proof.Machine.execStepTimeout o s
  | .weldedContactor o => Sys2Proof.Machine.execWeldedContactor o s
  | .startPermit role o v => Sys2Proof.Machine.execStartPermit role o v s
  | .endRequestNormal role o => Sys2Proof.Machine.execEndRequestNormal role o s
  | .endRequestVehicle role o => Sys2Proof.Machine.execEndRequestVehicle role o s
  | .endRequestHost role o => Sys2Proof.Machine.execEndRequestHost role o s
  | .returnToService role o v => Sys2Proof.Machine.execReturnToService role o v s
  | .outletConfigurationWrite role o sub v => Sys2Proof.Machine.execOutletConfigurationWrite role o sub v s
  | .curtailmentWrite role v => Sys2Proof.Machine.execCurtailmentWrite role v s
  | .curtailmentStart => Sys2Proof.Machine.execCurtailmentStart s
  | .curtailmentExpiry => Sys2Proof.Machine.execCurtailmentExpiry s
  | .comparatorTrip g level => Sys2Proof.Machine.execComparatorTrip g level s
  | .selfTestFirstCheck o => Sys2Proof.Machine.execSelfTestFirstCheck o s
  | .selfTestSecondCheck o => Sys2Proof.Machine.execSelfTestSecondCheck o s
  | .insulationStateSwitch o => Sys2Proof.Machine.execInsulationStateSwitch o s
  | .insulationMeasurement o => Sys2Proof.Machine.execInsulationMeasurement o s
  | .clearLatch role g v => Sys2Proof.Machine.execClearLatch role g v s
  | .clearTrip role o v => Sys2Proof.Machine.execClearTrip role o v s
  | .automaticClear o => Sys2Proof.Machine.execAutomaticClear o s
  | .protectionConfigurationWrite role o insulation sub v => Sys2Proof.Machine.execProtectionConfigurationWrite role o insulation sub v s
  | .encoderChannelFault a y kind => Sys2Proof.Machine.execEncoderChannelFault a y kind s
  | .stoApply role a => Sys2Proof.Machine.execStoApply role a s
  | .stoRelease role a => Sys2Proof.Machine.execStoRelease role a s
  | .ss1Start role a => Sys2Proof.Machine.execSs1Start role a s
  | .ss1End a => Sys2Proof.Machine.execSs1End a s
  | .degradedTimeExpiry a => Sys2Proof.Machine.execDegradedTimeExpiry a s
  | .reference role a v => Sys2Proof.Machine.execReference role a v s
  | .indexEdge a y latched => Sys2Proof.Machine.execIndexEdge a y latched s
  | .axisClearTrip role a v => Sys2Proof.Machine.execAxisClearTrip role a v s
  | .safetyParameterWrite role a sub v => Sys2Proof.Machine.execSafetyParameterWrite role a sub v s
  | .stoTestPulse line => Sys2Proof.Machine.execStoTestPulse line s
  | .stoOutputFault a => Sys2Proof.Machine.execStoOutputFault a s
  | .whorlPairFault p => Sys2Proof.Machine.execWhorlPairFault p s
  | .spareKnownAnswerTest passed => Sys2Proof.Machine.execSpareKnownAnswerTest passed s
  | .takeoverComplete => Sys2Proof.Machine.execTakeoverComplete s
  | .pairSelfTest p passed => Sys2Proof.Machine.execPairSelfTest p passed s
  | .loadChannelCommand role n v => Sys2Proof.Machine.execLoadChannelCommand role n v s
  | .loadChannelConfiguration role n sub v => Sys2Proof.Machine.execLoadChannelConfiguration role n sub v s
  | .rampComplete n => Sys2Proof.Machine.execRampComplete n s
  | .thermalShutdown n => Sys2Proof.Machine.execThermalShutdown n s
  | .thermalRestart n => Sys2Proof.Machine.execThermalRestart n s
  | .absoluteLimit n => Sys2Proof.Machine.execAbsoluteLimit n s
  | .currentLimitEntry n => Sys2Proof.Machine.execCurrentLimitEntry n s
  | .loadClearLatch role n v => Sys2Proof.Machine.execLoadClearLatch role n v s
  | .bankUndervoltageEntry b => Sys2Proof.Machine.execBankUndervoltageEntry b s
  | .bankUndervoltageExit b => Sys2Proof.Machine.execBankUndervoltageExit b s
  | .budgetShed => Sys2Proof.Machine.execBudgetShed s
  | .budgetRestore => Sys2Proof.Machine.execBudgetRestore s
  | .openLoadTestPhase n above => Sys2Proof.Machine.execOpenLoadTestPhase n above s
  | .frameBoundary p => Sys2Proof.Machine.execFrameBoundary p s
  | .regionUpdate role p r v => Sys2Proof.Machine.execRegionUpdate role p r v s
  | .waveformTableWrite role p band v => Sys2Proof.Machine.execWaveformTableWrite role p band v s
  | .regionDefinitionWrite role p sub v => Sys2Proof.Machine.execRegionDefinitionWrite role p sub v s
  | .portDisable role p => Sys2Proof.Machine.execPortDisable role p s
  | .portEnable role p => Sys2Proof.Machine.execPortEnable role p s
  | .controlFrame l code erasures => Sys2Proof.Machine.execControlFrame l code erasures s
  | .bulkBlock l rows erasures => Sys2Proof.Machine.execBulkBlock l rows erasures s
  | .bulkFrame l => Sys2Proof.Machine.execBulkFrame l s
  | .controlFrameTransmit l => Sys2Proof.Machine.execControlFrameTransmit l s
  | .bulkBurstTransmit l => Sys2Proof.Machine.execBulkBurstTransmit l s
  | .laneStateChange l => Sys2Proof.Machine.execLaneStateChange l s
  | .laneWrite role l sub v => Sys2Proof.Machine.execLaneWrite role l sub v s
  | .pendingMapWrite role w v => Sys2Proof.Machine.execPendingMapWrite role w v s
  | .mapActivation => Sys2Proof.Machine.execMapActivation s
  | .meshRoleWrite role sub v => Sys2Proof.Machine.execMeshRoleWrite role sub v s
  | .beacon l f => Sys2Proof.Machine.execBeacon l f s
  | .beaconTransmit => Sys2Proof.Machine.execBeaconTransmit s
  | .joinRequest l f => Sys2Proof.Machine.execJoinRequest l f s
  | .joinAccept l f => Sys2Proof.Machine.execJoinAccept l f s
  | .joinTimeout => Sys2Proof.Machine.execJoinTimeout s
  | .keepAlive l f => Sys2Proof.Machine.execKeepAlive l f s
  | .subtreeRefresh l f => Sys2Proof.Machine.execSubtreeRefresh l f s
  | .acknowledgement l f => Sys2Proof.Machine.execAcknowledgement l f s
  | .acknowledgementTimeout => Sys2Proof.Machine.execAcknowledgementTimeout s
  | .routeError l f => Sys2Proof.Machine.execRouteError l f s
  | .mapDistribution l f => Sys2Proof.Machine.execMapDistribution l f s
  | .broadcastCommand l f => Sys2Proof.Machine.execBroadcastCommand l f s
  | .downwardEntryExpiry dst => Sys2Proof.Machine.execDownwardEntryExpiry dst s
  | .parentChange => Sys2Proof.Machine.execParentChange s
  | .bulkQueueFlush l => Sys2Proof.Machine.execBulkQueueFlush l s
  | .endpointUnreachable addr => Sys2Proof.Machine.execEndpointUnreachable addr s
  | .listingEntry role v => Sys2Proof.Machine.execListingEntry role v s
  | .rebuildEnd => Sys2Proof.Machine.execRebuildEnd s
  | .readJobWrite role j v => Sys2Proof.Machine.execReadJobWrite role j v s
  | .readJobCycle j => Sys2Proof.Machine.execReadJobCycle j s
  | .meshSubmission tag payload => Sys2Proof.Machine.execMeshSubmission tag payload s
  | .submissionDeadline tag => Sys2Proof.Machine.execSubmissionDeadline tag s
  | .metrologyImagePiece l payload => Sys2Proof.Machine.execMetrologyImagePiece l payload s
  | .antennaVisit c x => Sys2Proof.Machine.execAntennaVisit c x s
  | .dwellExpiry c => Sys2Proof.Machine.execDwellExpiry c s
  | .presenceCheck c answered => Sys2Proof.Machine.execPresenceCheck c answered s
  | .cardFrame c wait frame a => Sys2Proof.Machine.execCardFrame c wait frame a s
  | .cardRelease c => Sys2Proof.Machine.execCardRelease c s
  | .halt c => Sys2Proof.Machine.execHalt c s
  | .redraw c tags => Sys2Proof.Machine.execRedraw c tags s
  | .getRandom c a => Sys2Proof.Machine.execGetRandom c a s
  | .unlock c a => Sys2Proof.Machine.execUnlock c a s
  | .auth1 c a => Sys2Proof.Machine.execAuth1 c a s
  | .auth2 c a => Sys2Proof.Machine.execAuth2 c a s
  | .tagRead c block count a => Sys2Proof.Machine.execTagRead c block count a s
  | .writeCmd c a => Sys2Proof.Machine.execWriteCmd c a s
  | .writeData c a => Sys2Proof.Machine.execWriteData c a s
  | .commit c a => Sys2Proof.Machine.execCommit c a s
  | .confirm c a => Sys2Proof.Machine.execConfirm c a s
  | .tagWrite tag payload => Sys2Proof.Machine.execTagWrite tag payload s
  | .fieldCollapse x => Sys2Proof.Machine.execFieldCollapse x s
  | .reEntryWindowExpiry k => Sys2Proof.Machine.execReEntryWindowExpiry k s
  | .readerChannelDisable role c => Sys2Proof.Machine.execReaderChannelDisable role c s
  | .serviceRequest q v locked units dt => Sys2Proof.Machine.execServiceRequest q v locked units dt s
  | .transferComplete v more dt => Sys2Proof.Machine.execTransferComplete v more dt s
  | .creditRefill => Sys2Proof.Machine.execCreditRefill s
  | .withdrawal q v dt => Sys2Proof.Machine.execWithdrawal q v dt s
  | .rankWeightWrite role q sub v => Sys2Proof.Machine.execRankWeightWrite role q sub v s
  | .waitThresholdReached q v => Sys2Proof.Machine.execWaitThresholdReached q v s
  | .occupancyRefresh => Sys2Proof.Machine.execOccupancyRefresh s
  | .statisticsClear role v => Sys2Proof.Machine.execStatisticsClear role v s
  | .sourceFence q tid v => Sys2Proof.Machine.execSourceFence q tid v s
  | .globalFence q tid v => Sys2Proof.Machine.execGlobalFence q tid v s
  | .fenceMarker v mask => Sys2Proof.Machine.execFenceMarker v mask s
  | .hankCell cell => Sys2Proof.Machine.execHankCell cell s
  | .hankLinkRun => Sys2Proof.Machine.execHankLinkRun s
  | .hankLinkDown => Sys2Proof.Machine.execHankLinkDown s
  | .hankResendTimeout => Sys2Proof.Machine.execHankResendTimeout s
  | .creditCell cell => Sys2Proof.Machine.execCreditCell cell s
  | .creditCellTransmit => Sys2Proof.Machine.execCreditCellTransmit s
  | .vehicleLinkRecord word payload => Sys2Proof.Machine.execVehicleLinkRecord word payload s
  | .captureRequest role v => Sys2Proof.Machine.execCaptureRequest role v s
  | .ringPing p => Sys2Proof.Machine.execRingPing p s
  | .ringEcho p rtt turnaround position => Sys2Proof.Machine.execRingEcho p rtt turnaround position s
  | .ringPortRun p => Sys2Proof.Machine.execRingPortRun p s
  | .ringPortDown p => Sys2Proof.Machine.execRingPortDown p s
  | .tickMarker p marker offset => Sys2Proof.Machine.execTickMarker p marker offset s
  | .ringFrame p frame => Sys2Proof.Machine.execRingFrame p frame s
  | .demandReport payload source => Sys2Proof.Machine.execDemandReport payload source s
  | .siteShares payload => Sys2Proof.Machine.execSiteShares payload s
  | .curtailmentForward payload => Sys2Proof.Machine.execCurtailmentForward payload s
  | .masterClaim payload => Sys2Proof.Machine.execMasterClaim payload s
  | .loadPending role slot v => Sys2Proof.Machine.execLoadPending role slot v s
  | .generate role slot v => Sys2Proof.Machine.execGenerate role slot v s
  | .proof role slot v => Sys2Proof.Machine.execProof role slot v s
  | .destroy role slot v => Sys2Proof.Machine.execDestroy role slot v s
  | .provision role => Sys2Proof.Machine.execProvision role s
  | .enterService role => Sys2Proof.Machine.execEnterService role s
  | .seal role => Sys2Proof.Machine.execSeal role s
  | .retire role => Sys2Proof.Machine.execRetire role s
  | .lifecycleTransition => Sys2Proof.Machine.execLifecycleTransition s
  | .imageBlock role v => Sys2Proof.Machine.execImageBlock role v s
  | .imageVerification k => Sys2Proof.Machine.execImageVerification k s
  | .updateBlock p src payload => Sys2Proof.Machine.execUpdateBlock p src payload s
  | .updateAcknowledgement src payload => Sys2Proof.Machine.execUpdateAcknowledgement src payload s
  | .ringBlockResend => Sys2Proof.Machine.execRingBlockResend s
  | .activate role v => Sys2Proof.Machine.execActivate role v s
  | .activationPause => Sys2Proof.Machine.execActivationPause s
  | .activationConfirmed micros => Sys2Proof.Machine.execActivationConfirmed micros s
  | .activationRevert => Sys2Proof.Machine.execActivationRevert s
  | .debugIdentify good tag => Sys2Proof.Machine.execDebugIdentify good tag s
  | .debugChallenge good tag => Sys2Proof.Machine.execDebugChallenge good tag s
  | .debugAuthenticate good tag mac => Sys2Proof.Machine.execDebugAuthenticate good tag mac s
  | .debugAuthenticationIdle => Sys2Proof.Machine.execDebugAuthenticationIdle s
  | .debugHalt good tag => Sys2Proof.Machine.execDebugHalt good tag s
  | .debugResume good tag => Sys2Proof.Machine.execDebugResume good tag s
  | .debugStep good tag => Sys2Proof.Machine.execDebugStep good tag s
  | .debugStatus good tag => Sys2Proof.Machine.execDebugStatus good tag s
  | .setBreakpoint good tag k desc => Sys2Proof.Machine.execSetBreakpoint good tag k desc s
  | .clearBreakpoint good tag k => Sys2Proof.Machine.execClearBreakpoint good tag k s
  | .debugRead good tag addr len => Sys2Proof.Machine.execDebugRead good tag addr len s
  | .debugWrite good tag addr data => Sys2Proof.Machine.execDebugWrite good tag addr data s
  | .debugReset good tag => Sys2Proof.Machine.execDebugReset good tag s
  | .breakpointMatch k write addr data cycle => Sys2Proof.Machine.execBreakpointMatch k write addr data cycle s
  | .bypass => Sys2Proof.Machine.execBypass s
  | .idcode => Sys2Proof.Machine.execIdcode s
  | .samplePreload captured preload => Sys2Proof.Machine.execSamplePreload captured preload s
  | .extest => Sys2Proof.Machine.execExtest s
  | .clamp => Sys2Proof.Machine.execClamp s
  | .highz => Sys2Proof.Machine.execHighz s
  | .memoryScrub mem place addr word pass => Sys2Proof.Machine.execMemoryScrub mem place addr word pass s
  | .tamperDomainRestart battery => Sys2Proof.Machine.execTamperDomainRestart battery s
  | .currentLimitExit n => Sys2Proof.Machine.execCurrentLimitExit n s
  | .vehicleEthernetFrame o frame => Sys2Proof.Machine.execVehicleEthernetFrame o frame s
  | .producerHeartbeat => Sys2Proof.Machine.execProducerHeartbeat s
  | .ethernetLinkChange e sync up => Sys2Proof.Machine.execEthernetLinkChange e sync up s
  | .keepAliveTransmit => Sys2Proof.Machine.execKeepAliveTransmit s

end Sys2Proof.Machine
end

