-- ==== Sys2Proof/Safety.lean ====
section
/-! DEFINITION. The terms that the statements about the block use: a command that completes, what it leaves as it was, a write that every
check admits, and the form that every state keeps. -/
namespace Sys2Proof

/-- Whether a command is a write of one object by a role, a proof of possession apart (20 R571). -/
def Instr.isWrite : Instr → Bool
  | .commandWarmReset _ _ | .clearEvents _ _ | .linkDisable _ _ | .linkEnable _ _ | .acceptNewHead _ _ _ | .headRegisterAccess _ _ _
  | .channelConfigurationWritten _ _ _ _ | .filterBankWritten _ _ _ _ _ | .bankSwap _ _ _ | .loadDefaults _ _ _
  | .lockGroupWrite _ _ _ _ | .meterConfigurationWrite _ _ _ _ _ | .pulseOutputConfiguration _ _ _ _
  | .calibrationConstantWritten _ _ _ _ | .captureStart _ _ _ | .captureCancel _ _ | .stepCivilTime _ _ | .slewCivilTime _ _
  | .billingControlWrite _ _ _ _ | .passiveCalendarWrite _ _ _ | .activationTimeWrite _ _ _ | .commandSnapshot _
  | .commandSnapshotResetMaxima _ | .requestReading _ _ _ | .tamperConfigurationWritten _ _ _ _ | .hostLimitsWrite _ _ _ _
  | .startPermit _ _ _ | .endRequestNormal _ _ | .endRequestVehicle _ _ | .endRequestHost _ _ | .returnToService _ _ _
  | .outletConfigurationWrite _ _ _ _ | .curtailmentWrite _ _ | .clearLatch _ _ _ | .clearTrip _ _ _
  | .protectionConfigurationWrite _ _ _ _ _ | .stoApply _ _ | .stoRelease _ _ | .ss1Start _ _ | .reference _ _ _ | .axisClearTrip _ _ _
  | .safetyParameterWrite _ _ _ _ | .loadChannelCommand _ _ _ | .loadChannelConfiguration _ _ _ _ | .loadClearLatch _ _ _
  | .regionUpdate _ _ _ _ | .waveformTableWrite _ _ _ _ | .regionDefinitionWrite _ _ _ _ | .portDisable _ _ | .portEnable _ _
  | .laneWrite _ _ _ _ | .pendingMapWrite _ _ _ | .meshRoleWrite _ _ _ | .listingEntry _ _ | .readJobWrite _ _ _
  | .readerChannelDisable _ _ | .rankWeightWrite _ _ _ _ | .statisticsClear _ _ | .captureRequest _ _ | .loadPending _ _ _
  | .generate _ _ _ | .destroy _ _ _ | .provision _ | .enterService _ | .seal _ | .retire _ | .imageBlock _ _
  | .activate _ _ => true
  | _ => false

end Sys2Proof

namespace Sys2Proof.Machine

open Sys2Proof

/-- Command `c` completes on `s`: the answer is a next state with the queue and the debug memory as they were, and the part satisfies
`p`. -/
def Completes (c : Instr) (s : State) (p : Dev → Prop) : Prop := ∃ e : Dev, exec c s = .next { s with dev := e } ∧ p e

/-- Every numeric object but those listed, by index and sub-index, keeps its value. -/
def KeepsObjs (but : List (Nat × Nat)) (d e : Dev) : Prop := ∀ ix sub, sub < 256 → (ix, sub) ∉ but → e.get ix sub = d.get ix sub

/-- The billing engine has switched its banks to the state now present, unless H4 of this tick was late (09 R299). -/
def BankFollows (d e : Dev) : Prop :=
  e.supply = if d.tick.late.contains 4 then d.supply else { d.supply with bank := e.saveImage }

/-- Whether an index lies in the slots of the Skein log or of the metrology event log. -/
def logSlot (ix : Nat) : Bool := decide ((0x2480 ≤ ix ∧ ix < 0x2500) ∨ (0x4D00 ≤ ix ∧ ix < 0x4D40))

/-- Every byte-string object but those listed and the slots of the logs keeps its value. -/
def KeepsBlobs (but : List (Nat × Nat)) (d e : Dev) : Prop :=
  ∀ ix sub, sub < 256 → (ix, sub) ∉ but → logSlot ix = false → e.getB ix sub = d.getB ix sub

/-- The object that holds the pending bit of event source EV`n` (21 R616). -/
def evObj (n : Nat) : Nat × Nat := (0x2410, n / 32 + 1)

/-- The numeric objects that a Skein entry may change: the latest number, the count of entries overwritten, and EV6 (21 R611). -/
def skeinObjs : List (Nat × Nat) := [(0x2400, 1), (0x2400, 6), (0x2410, 1)]

/-- The numeric objects that a metrology event may change: the latest, the oldest and the count overwritten (08 R280). -/
def eventObjs : List (Nat × Nat) := [(0x4D40, 1), (0x4D40, 2), (0x4D40, 3)]

/-- The numeric objects that show the state of the mesh after each of its events (16 R486). -/
def meshObjs : List (Nat × Nat) := [0x11, 0x14, 0x15, 0x18, 0x19, 0x1A, 0x1E].map fun sub => (0x7A00, sub)

/-- The numeric objects of the arbiter that show credits, waits and holders, and count cycles (18 R535, R536). -/
def arbObjs : List (Nat × Nat) :=
  (List.range 38).flatMap (fun q => [(reqIx q, 3), (reqIx q, 0xA), (reqIx q, 0xB)]) ++ (List.range 6).flatMap fun v => [(svcIx v, 1), (svcIx v, 2)]

/-- Beyond `d`, only the arbiter's record, its credits and counts, and the numeric objects listed differ. -/
def OnlyArb (but : List (Nat × Nat)) (d e : Dev) : Prop := KeepsObjs (arbObjs ++ but) d e ∧ e = { d with objs := e.objs, arb := e.arb }

/-- The objects that a change of the billing engine's rank may move: the arbiter's, its grants and pre-emptions, and the Hank port's aborted
cells. -/
def rankObjs : List (Nat × Nat) := arbObjs ++ (List.range 38).flatMap (fun q => [(reqIx q, 4), (reqIx q, 5)]) ++ [(0x2610, 5)]

/-- Beyond `d`, only what a change of the billing engine's rank may move differs, and the numeric objects listed: the contest runs again, and a
block on the Hank port may be cut off (18 R515, R520). -/
def OnlyRank (but : List (Nat × Nat)) (d e : Dev) : Prop :=
  KeepsObjs (rankObjs ++ but) d e ∧ e = { d with objs := e.objs, arb := e.arb, hank := e.hank, vcs := e.vcs }

/-- Beyond `d`, only the mesh's own record, now `m`, and what 0x7A00 shows of it differ. -/
def OnlyMesh (m : MeshRec) (d e : Dev) : Prop := KeepsObjs meshObjs d e ∧ e = { d with objs := e.objs, mesh := m }

/-- Record `r` has gone out last on stream channel `v`. -/
def Streamed (v : Nat) (r : StreamRec) (d e : Dev) : Prop := (tget {} e.vcs v).out = (tget {} d.vcs v).out ++ [r]

/-- Beyond `d`, only reader channel `c` with what its status shows, the numeric objects listed and the streams differ. -/
def OnlyReader (c : Nat) (but : List (Nat × Nat)) (d e : Dev) : Prop :=
  (∀ k, k ≠ c → e.reader k = d.reader k) ∧ KeepsObjs ((readerIx c, 0x10) :: but) d e
  ∧ e = { d with objs := e.objs, readers := e.readers, vcs := e.vcs }

/-- Every check of a write passes: the part acts on it, and checks 6 to 12 of 02 R55 with the refusals `x` of the object's chapter give
status 0x00. -/
def Accepts (d : Dev) (role : Role) (ix sub : Nat) (v : Val) (x : Rules) : Prop :=
  d.acts ix = true ∧ writeStatus d role ix sub v x = 0

/-- Within `dt` cycles no locked run reaches its limit of 8 ticks, and no service is decided in a dead cycle (18 R522, R523). -/
def RunsHold (d : Dev) (dt : Nat) : Prop :=
  (∀ v g, v < 6 → (d.svc v).grant = some g → g.locked = true → d.arb.cycle + dt < (d.svc v).decided + runLimit)
  ∧ ∀ v k, v < 6 → d.dueOf v = some k → d.arb.cycle + dt < k

/-- Bit `i` of an object is `b`, and its other bits are as they were. -/
def SetsBit (ix sub i : Nat) (b : Bool) (d e : Dev) : Prop := ∀ j, e.bitO ix sub j = if j = i then b else d.bitO ix sub j

/-- Beyond `d`, only the object store differs. -/
def OnlyObjs (d e : Dev) : Prop := e = { d with objs := e.objs }

/-- Beyond `d`, only what an entry of a log writes differs: numeric objects, the logs' slots and state, and the streams. -/
def OnlyLogged (d e : Dev) : Prop :=
  e = { d with objs := e.objs, blobs := e.blobs, log := e.log, vcs := e.vcs } ∧ KeepsBlobs [] d e

/-- A read request that enters an empty dictionary queue and passes checks 1 to 3 with nothing holding it back. -/
def ReadAdmitted (d : Dev) (r : DReq) : Prop :=
  d.dict.queue = [] ∧ d.pauseHolds r = false ∧ d.trans = none ∧ r.op ≠ 2 ∧ r.op ≠ 3 ∧ r.phase = .queued ∧ (d.front r).1 = 0

/-- The request alone is in the queue, accepted with the key and the role that check 2 gave; the high-water mark of the queue counts it
and nothing else differs. -/
def QueuedAlone (r : DReq) (d e : Dev) : Prop :=
  e.dict.queue = [{ r with key := (d.front r).2.1, role := (d.front r).2.2, phase := .accepted }]
  ∧ e.get 0x1100 6 = max (d.get 0x1100 6) 1 ∧ KeepsObjs [(0x1100, 6)] d e
  ∧ e = { d with objs := e.objs, dict := { d.dict with queue := e.dict.queue } }

/-- A write request that enters an empty dictionary queue and passes checks 1 to 4 under a new number, with nothing holding it back. -/
def WriteAdmitted (d : Dev) (r : DReq) : Prop :=
  d.dict.queue = [] ∧ d.pauseHolds r = false ∧ d.trans = none ∧ r.op = 2 ∧ r.phase = .queued ∧ (d.front r).1 = 0 ∧ r.trans ≠ 0
  ∧ d.inWindow r = none ∧ d.srcHigh r < r.trans ∧ (d.srcTake r).isSome = true

/-- One request waits in the dictionary queue of a working part, in the given phase, with nothing holding it back. -/
def WaitsAlone (d : Dev) (r : DReq) (p : DPhase) : Prop :=
  d.running = true ∧ d.dict.queue = [r] ∧ r.phase = p ∧ d.pauseHolds r = false

/-- The queue is empty again and the response frame is in the mailbox of host queue `q`, with EV9; of the objects only those listed and
the event bit differ. -/
def AnsweredTo (q : Nat) (frame : Bytes) (but : List (Nat × Nat)) (d e : Dev) : Prop :=
  e.dict.queue = [] ∧ (e.mb q).ready = some frame ∧ e.evPending 9 = true ∧ KeepsObjs (evObj 9 :: but) d e

/-- No reading of the present tick is still to be captured at its end. -/
def ReadingsDone (d : Dev) : Prop := d.reads.starts = [] ∧ d.reads.periodic = [] ∧ d.reads.asked = []

/-- No boundary can fall in the next step: civil time is invalid, nothing is held, commanded, staged or to be retaken, no change of a
subinterval waits, and no reading. -/
def QuietStep (d : Dev) : Prop :=
  d.civil.valid = false ∧ d.stepWaits = false ∧ d.bill.deferred = false ∧ d.bill.commanded = none ∧ d.bill.retake = []
  ∧ d.bill.staging = [] ∧ ReadingsDone d ∧ ∀ m, m < 36 → (d.meter m).closeNow = none

/-- The debug port has answered with status `st`, tag and payload, its record now `x`; beyond `d`, only that and what 0x2440.01 shows of
it differ (21 R599). -/
def Responds (st : Nat) (tag : Byte) (payload : Bytes) (x : DbgRec) (d e : Dev) : Prop :=
  e.dbg = { x with resp := debugResponse st tag payload } ∧ e.get 0x2440 1 = maskOf [true, x.auth, x.halted] ∧ KeepsObjs [(0x2440, 1)] d e
  ∧ e = { d with objs := e.objs, dbg := e.dbg }

/-- A state in the form that every step keeps: the debug memory is canonical. -/
def State.canonical (s : State) : Prop := memWf s.mem = true

/-- A safe run: no step of it stops. -/
def Safe (s : State) : Prop := ∃ t, step s = .next t

end Sys2Proof.Machine
end

