-- ==== Sys2Proof/Certificates/Slice0/Obligations.lean ====
section
/-! DEFINITION. The statements about the block. -/

open Sys2Proof Sys2Proof.Machine

/-- A step runs the command at the front of the queue on the state with the rest of the queue (R28, 01_architecture_and_warp_tick.md). -/
def Obligations.StepRunsTheFrontCommand : Prop :=
  (∀ (c : Instr) (rest : List Instr) (s : State), step { s with pending := c :: rest } = exec c { s with pending := rest })
  ∧ (∀ s : State, s.pending = [] → step s = .next s)

/-- Every command answers a next state, the queue stays, and only three commands change the debug memory (R298, R602,
09_supply_loss_and_reset.md). -/
def Obligations.EveryCommandAnswers : Prop :=
  ∀ (c : Instr) (s : State), ∃ t : State, exec c s = .next t ∧ t.pending = s.pending ∧
    (t.mem = s.mem ∨ (∃ good tag addr data, c = .debugWrite good tag addr data) ∨ c = .supplyReset ∨ c = .powerOnReset)

/-- Every step keeps the debug memory in its canonical form (R602, 21_debug_log_and_memory_protection.md). -/
def Obligations.StepKeepsMemoryCanonical : Prop :=
  ∀ s t : State, s.canonical → step s = .next t → t.canonical

/-- The state before any supply is canonical, waits for no command, and holds the default of every object (R298, R43, R576, R310). -/
def Obligations.ResetStateHolds : Prop :=
  State.reset.canonical ∧ State.reset.pending = [] ∧ State.reset.mem = [] ∧ State.reset.dev.loom = .unpowered ∧ State.reset.dev.now = 0
  ∧ (∀ ix sub, State.reset.dev.get ix sub = objDefault ix sub ∧ State.reset.dev.getB ix sub = blobDefault ix sub)

/-- A write is done as a whole or refused as a whole (R55, R58, R69). -/
def Obligations.WritesAreCheckedFirst : Prop :=
  ∀ (c : Instr) (s : State), c.isWrite = true →
    Completes c s fun e => e = s.dev ∨ (e.status ≠ 0 ∧ e = s.dev.answer e.status) ∨ e.status = 0

/-- Checks 6 to 12 of a write run in the order of R55 and give the first refusal (R55, R47, R48, R46). -/
def Obligations.ChecksOfAWrite : Prop :=
  ∀ (d : Dev) (role : Role) (ix sub : Nat) (v : Val),
    (objIndexExists ix = false → writeStatus d role ix sub v {} = 0x01)
    ∧ (objIndexExists ix = true → objRow ix sub = none → writeStatus d role ix sub v {} = if sub = 0 then 0x05 else 0x02)
    ∧ (∀ r, objIndexExists ix = true → objRow ix sub = some r →
        (r.dir = .ro → writeStatus d role ix sub v {} = 0x05)
        ∧ (r.dir ≠ .ro → roleOk r.roles role = false → writeStatus d role ix sub v {} = 0x03)
        ∧ (r.dir ≠ .ro → roleOk r.roles role = true → (d.life = 4 ∨ (r.cls = .metrology ∧ d.life ≠ 3)) →
            writeStatus d role ix sub v {} = 0x04)
        ∧ (r.dir ≠ .ro → roleOk r.roles role = true → d.life ≠ 4 → (r.cls = .metrology → d.life = 3) →
            writeStatus d role ix sub v {} = if lenStatus r.ty v ≠ 0 then 0x07 else if rangeStatus r.ty r.chk v ≠ 0 then 0x08 else 0x00))

/-- The supply warning follows its comparator, and 0x2100.04 bit 0 shows it (R292, R310). -/
def Obligations.SupplyWarningLevels : Prop :=
  (∀ s : State, s.dev.loom ≠ .unpowered → Completes .supplyWarning s fun e =>
    SetsBit 0x2100 4 0 true s.dev e ∧ KeepsObjs [(0x2100, 4)] s.dev e
    ∧ e = { s.dev with supply := { s.dev.supply with warning := true }, objs := e.objs })
  ∧ (∀ s : State, s.dev.loom ≠ .unpowered → Completes .supplyWarningClear s fun e =>
    SetsBit 0x2100 4 0 false s.dev e ∧ KeepsObjs [(0x2100, 4)] s.dev e
    ∧ e = { s.dev with supply := { s.dev.supply with warning := false }, objs := e.objs })
  ∧ (∀ s : State, s.dev.loom = .unpowered → exec .supplyWarning s = .next s ∧ exec .supplyWarningClear s = .next s)

/-- The power-fail save: its area, its commit, the hold of records, and the staged records after it (R32, R294, R295, R297, R265, R309,
R310). -/
def Obligations.PowerFailSave : Prop :=
  (∀ s : State, s.dev.running = true → s.dev.supply.seenAt = some s.dev.now → s.dev.supply.writing = none →
    Completes .powerFailSaveStart s fun e =>
      let i := if s.dev.latestSave = some 0 then 1 else 0
      e.supply.writing = some i ∧ e.area i = { s.dev.supply.bank with header := true, committed := false, provisional := false }
      ∧ e.area (1 - i) = s.dev.area (1 - i) ∧ e.supply.hold = s.dev.supply.hold ∧ e.supply.seenAt = s.dev.supply.seenAt
      ∧ SetsBit 0x2100 4 1 true s.dev e ∧ e.arb.top = true ∧ OnlyRank [(0x2100, 4)] { s.dev with supply := e.supply } e)
  ∧ (∀ s : State, s.dev.running = true → s.dev.supply.seenAt ≠ none → Completes .supplyWarningHold s fun e =>
      e = { s.dev with supply := { s.dev.supply with hold := true } })
  ∧ (∀ (s : State) (i t : Nat), s.dev.running = true → s.dev.supply.writing = some i → s.dev.supply.seenAt = some t →
    Completes .saveCommit s fun e =>
      (e.area i).committed = true ∧ (e.area i).provisional = false ∧ e.supply.writing = none
      ∧ e.bitO 0x2100 4 1 = false ∧ e.get 0x2100 6 = satAdd 32 (s.dev.get 0x2100 6) 1
      ∧ e.get 0x2100 7 = (s.dev.area i).point ∧ e.get 0x2100 8 = 1 ∧ e.get 0x4D40 1 = s.dev.get 0x4D40 1 + 1
      ∧ e.supply.saved = (s.dev.bill.staging != []) ∧ KeepsBlobs [] s.dev e
      ∧ KeepsObjs (rankObjs ++ [(0x2100, 4), (0x2100, 6), (0x2100, 7), (0x2100, 8)] ++ eventObjs) s.dev e
      ∧ e = { s.dev with supply := e.supply, objs := e.objs, blobs := e.blobs, log := e.log, vcs := e.vcs, arb := e.arb, hank := e.hank })
  ∧ (∀ s : State, s.dev.running = true → s.dev.supply.writing = none → s.dev.supply.saved = true → s.dev.supply.marked ≠ some s.dev.now →
    Completes .stagedRecordsWrite s fun e => e.bill = { s.dev.bill with staging := [] } ∧ e.arb.top = false
      ∧ e.supply = { s.dev.supply with saved := false, index := e.supply.index }
      ∧ OnlyRank [] { s.dev with bill := { s.dev.bill with staging := [] }, supply := e.supply } e)

/-- A dip that recovers ends the hold, marks a committed save provisional, counts the dip, and runs the held step (R296, R297, R309, R310,
R251). -/
def Obligations.RecoveryFromADip : Prop :=
  (∀ s : State, s.dev.running = true → s.dev.supply.seenAt ≠ none → s.dev.supply.warning = false →
      s.dev.bill.deferred = false → s.dev.supply.hold = false → Completes .brownOutRecovery s fun e => e = dipRecovered s.dev)
  ∧ (∀ s : State, s.dev.running = true → s.dev.supply.seenAt ≠ none → s.dev.supply.warning = false →
      (s.dev.bill.deferred = true ∨ s.dev.supply.hold = true) → Completes .brownOutRecovery s fun e => e = boundaryStep (dipRecovered s.dev))
  ∧ (∀ d : Dev, (∀ t, d.trans = some t → t.owed = false) → d.reads.switchDue = false →
      let e := dipRecovered d
      e.bill = { d.bill with deferred := d.bill.deferred || d.supply.hold } ∧ e.get 0x2100 5 = satAdd 32 (d.get 0x2100 5) 1
      ∧ (∀ i, d.supply.writing = some i →
          e.supply = { d.supply with seenAt := none, hold := false, toProvisional := true } ∧ e.get 0x4D40 1 = d.get 0x4D40 1 + 1
          ∧ KeepsObjs ([(0x2100, 5)] ++ eventObjs) d e ∧ e.arb = d.arb ∧ e.hank = d.hank)
      ∧ (∀ i, d.supply.writing = none → d.latestSave = some i →
          (e.area i).provisional = true ∧ (e.area i).committed = (d.area i).committed ∧ e.supply.seenAt = none ∧ e.supply.hold = false
          ∧ e.bitO 0x2100 4 2 = true ∧ e.get 0x2100 8 = 2 ∧ e.get 0x4D40 1 = d.get 0x4D40 1 + 2 ∧ e.arb.top = true
          ∧ KeepsObjs (rankObjs ++ [(0x2100, 4), (0x2100, 5), (0x2100, 8)] ++ eventObjs) d e)
      ∧ (d.supply.writing = none → d.latestSave = none →
          e.supply = { d.supply with seenAt := none, hold := false } ∧ KeepsObjs ([(0x2100, 5)] ++ eventObjs) d e ∧ e.arb = d.arb ∧ e.hank = d.hank)
      ∧ OnlyLogged { d with supply := e.supply, bill := e.bill, arb := e.arb, hank := e.hank } e)

/-- What each kind of reset leaves: the Loom die in reset with its cause, and the reset-hold window of the Mill die (R298, R302, R303, R25,
R301, 09_supply_loss_and_reset.md). -/
def Obligations.ResetsOfTheLoomDie : Prop :=
  (∀ (s : State) (c : Instr) (k : Nat), (c, k) ∈ [(.warmReset, 3), (.watchdogExpiry, 7), (.clockFault, 5)] → s.dev.loom = .running → s.dev.dbg.halted = false →
      s.dev.dict.queue = [] → ∃ e : Dev, exec c s = .next { s with dev := e } ∧ e.loom = .inReset ∧ e.supply.cause = k ∧ e.now = s.dev.now
        ∧ e.hold.active = true ∧ e.hold.safe = (s.dev.hold.active && s.dev.hold.safe)
        ∧ e.supply.areas = s.dev.supply.areas ∧ e.tamper = s.dev.tamper ∧ e.civil = s.dev.civil ∧ e.bill.staging = [])
  ∧ (∀ s : State, s.dev.loom = .running → Completes .warmReset s fun e => e.loom = .inReset ∧ e.supply.cause = 3)
  ∧ (∀ s : State, s.dev.loom = .running → s.dev.dbg.halted = false → Completes .watchdogExpiry s fun e => e.loom = .inReset ∧ e.supply.cause = 7)
  ∧ (∀ s : State, s.dev.loom = .running → Completes .clockFault s fun e => e.loom = .inReset ∧ e.supply.cause = 5)
  ∧ (∀ s : State, s.dev.loom = .running → ∃ e : Dev, exec .supplyReset s = .next { s with dev := e, mem := sramLost s.mem }
        ∧ e.loom = .inReset ∧ e.supply.cause = 2)
  ∧ (∀ s : State, s.dev.loom = .running → s.dev.dict.queue = [] →
      ∃ e : Dev, exec .supplyReset s = .next { s with dev := e, mem := sramLost s.mem }
        ∧ e.hold.active = true ∧ e.hold.safe = true ∧ e.whorl.permits = 0 ∧ e.whorl.sto = 0xFF
        ∧ e.tamper = s.dev.tamper ∧ e.civil = s.dev.civil ∧ e.supply.areas = s.dev.supply.areas)
  ∧ (∀ s : State, ∃ e : Dev, exec .powerOnReset s = .next { s with dev := e, mem := sramLost s.mem } ∧ e.loom = .unpowered ∧ e.supply.cause = 1
        ∧ e.hold = {} ∧ e.loads = [] ∧ e.dbg.fails = 0)
  ∧ (∀ s : State, s.dev.dict.queue = [] → s.dev.tamper.stopped = false → ∃ e : Dev, exec .powerOnReset s = .next { s with dev := e, mem := sramLost s.mem }
        ∧ e.tamper = s.dev.tamper ∧ e.civil = s.dev.civil ∧ e.supply.areas = s.dev.supply.areas)
  ∧ (∀ (m : List Host.Cell) (a : Nat), memWf m = true → memGet (sramLost m) a = if a < 0x20000000 then memDefault else memGet m a)
  ∧ (∀ (s : State) (role : Role) (v : Nat), Accepts s.dev role 0x2100 9 (.num v) { atRange := if v = 1 then 0 else 8 } →
      Completes (.commandWarmReset role v) s fun e => e = { s.dev with supply := { s.dev.supply with resetDue := true }, status := 0 })

/-- A power-on reset keeps every configuration, metrology, billing and key object and returns the others to their defaults (R48, R298). -/
def Obligations.ResetKeepsPersistentObjects : Prop :=
  ∀ (s t : State) (ix sub : Nat) (r : ObjRow), exec .powerOnReset s = .next t → sub < 256 → objRow ix sub = some r →
    s.dev.bill.staging = [] → s.dev.dict.queue = [] → s.dev.reads.starts = [] → s.dev.reads.snaps = [] →
    ((r.cls = .config ∨ r.cls = .metrology ∨ r.cls = .key ∨ r.cls = .billing) → t.dev.get ix sub = s.dev.get ix sub)
    ∧ (r.cls = .vol → ix ∈ [0x2000, 0x2440, 0x2668] → t.dev.get ix sub = objDefault ix sub)

/-- The release of the power-on reset, the starts, and the first tick after a start (R288, R290, R299, R300, R594, R73). -/
def Obligations.StartsOfTheLoomDie : Prop :=
  (∀ s : State, (s.dev.loom = .unpowered ∨ (s.dev.loom = .inReset ∧ s.dev.supply.cause = 2)) → Completes .powerOnResetRelease s fun e =>
      e.loom = .released ∧ e.supply.warning = false ∧ SetsBit 0x2100 4 0 false s.dev e ∧ KeepsObjs [(0x2100, 4)] s.dev e
      ∧ e = { s.dev with loom := .released, supply := { s.dev.supply with warning := false }, objs := e.objs })
  ∧ (∀ (s : State) (x : StartInputs), s.dev.loom = .released → s.dev.jtag.hold = false → Completes (.coldStart x) s fun e => e = startDev x s.dev)
  ∧ (∀ (s : State) (x : StartInputs), s.dev.loom = .inReset → 3 ≤ s.dev.supply.cause → s.dev.jtag.hold = false →
      Completes (.warmStart x) s fun e => e = startDev x s.dev)
  ∧ (∀ (s : State) (x : StartInputs), s.dev.loom = .released → s.dev.jtag.hold = false → x.activeBad = [1] → x.otherBad = [1] →
      Completes (.coldStart x) s fun e => e.loom = .recovery
        ∧ e.get 0x1100 1 = (if s.dev.get 0x1100 1 = 65535 then 1 else s.dev.get 0x1100 1 + 1)
        ∧ KeepsObjs [(0x1100, 1)] s.dev e ∧ e = { s.dev with loom := .recovery, objs := e.objs })
  ∧ (∀ s : State, s.dev.loom = .started → Completes .firstTickAfterStart s fun e =>
      e = boundaryStep ((each 36 savedQuanta ({ s.dev with loom := .running, whorl := { s.dev.whorl with islandDue := false } }.when
        s.dev.whorl.islandDue fun d => d.raiseEv 70)).setDeferred true))

/-- A start with every image good leaves the Loom die started (R290, R299, R310). -/
def Obligations.StartFromReset : Prop :=
  (∀ (s : State) (x : StartInputs), s.dev.loom = .released → s.dev.jtag.hold = false → x.activeBad = [] →
      Completes (.coldStart x) s fun e => e.loom = .started ∧ e.supply.live = true)
  ∧ (∀ (s : State) (x : StartInputs), s.dev.loom = .inReset → 3 ≤ s.dev.supply.cause → s.dev.jtag.hold = false → x.activeBad = [] →
      Completes (.warmStart x) s fun e => e.loom = .started ∧ e.supply.live = true)

/-- The reset-hold window: its expiry, the groups' confirmations, the opening of groups, and the reclaim (R302, R303, R304, R310, R393). -/
def Obligations.ResetHoldWindow : Prop :=
  (∀ s : State, s.dev.hold.active = true → s.dev.hold.safe = false → Completes .resetHoldExpiry s fun e =>
      e.hold.safe = true ∧ e.whorl.permits = 0 ∧ e.whorl.sto = 0xFF ∧ e.hold.active = true ∧ e.loom = s.dev.loom ∧ e.now = s.dev.now)
  ∧ (∀ (s : State) (g : Fin 8) (l : List Int), s.dev.hold.active = true → s.dev.hold.safe = true → s.dev.hold.opened.testBit g = false →
      s.dev.inZeroBand g l = true → Completes (.groupCurrentConfirmed (g, l)) s fun e =>
        e.hold.confirmed.testBit g = true ∧ (∀ j, j ≠ g.val → e.hold.confirmed.testBit j = s.dev.hold.confirmed.testBit j)
        ∧ e = { s.dev with hold := { s.dev.hold with confirmed := e.hold.confirmed } })
  ∧ (∀ (s : State) (g : Fin 8), s.dev.hold.active = true → s.dev.hold.confirmed.testBit g = true →
      s.dev.hold.opened.testBit g = false → Completes (.contactorReleaseDelay g) s fun e =>
        e.hold.opened.testBit g = true ∧ e.hold.unconfirmed = s.dev.hold.unconfirmed ∧ e.hold.confirmed = s.dev.hold.confirmed
        ∧ e = { s.dev with hold := e.hold, loads := e.loads, objs := e.objs })
  ∧ (∀ (s : State) (g : Fin 8), s.dev.hold.active = true → s.dev.hold.safe = true → s.dev.hold.confirmed.testBit g = false →
      s.dev.hold.opened.testBit g = false → Completes (.groupConfirmTimeout g) s fun e =>
        e.hold.opened.testBit g = true ∧ e.hold.unconfirmed.testBit g = true
        ∧ e = { s.dev with hold := e.hold, loads := e.loads, objs := e.objs })
  ∧ (∀ (s : State) (n : Nat), s.dev.running = true → s.dev.hold.active = true → Completes (.controlReclaim n) s fun e =>
        e.hold.active = false ∧ e.hold.safe = false ∧ e.hold.micros = n ∧ e.hold.actions = s.dev.hold.actions ∧ e.hold.bands = s.dev.hold.bands
        ∧ e.get 0x2112 1 = (if s.dev.hold.safe = false then 1 else if s.dev.hold.unconfirmed = 0 then 2 else 3)
        ∧ e.get 0x2112 2 = n % 2 ^ 32 ∧ e.get 0x2112 3 = s.dev.hold.unconfirmed
        ∧ e = { s.dev with hold := e.hold, loads := e.loads, objs := e.objs })

/-- Every Warp tick counts device time on by one, and its work is that of the status frame (R24, R28, R301, R603, R604, R409). -/
def Obligations.WarpTickCounts : Prop :=
  (∀ (s : State) (f : StatusFrame), s.dev.loom = .running → Completes (.warpTick f) s fun e => e.now = s.dev.now + 1)
  ∧ (∀ (s : State) (f : StatusFrame), s.dev.loom = .running → s.dev.dbg.halted = false → s.dev.dbg.pending = false →
      Completes (.warpTick f) s fun e =>
        let u := ringTick { (closeReadings s.dev).clockRead f.battery with now := s.dev.now + 1 }
        let v := tickWork f (u.withDbg fun x => { x with halted := false, stepping := false, resuming := false })
        let w := if v.supply.resetDue && !f.late.contains 4 then warmReset 4 v else v
        e = { (if w.ticking then w.setBitO 0x2440 1 2 w.dbg.halted else w) with now := s.dev.now + 1 })
  ∧ (∀ (s : State) (f : StatusFrame), s.dev.loom ≠ .running → s.dev.loom ≠ .unpowered → Completes (.warpTick f) s fun e => e = millTick f s.dev)
  ∧ (∀ (s : State) (f : StatusFrame), s.dev.loom = .unpowered → exec (.warpTick f) s = .next s)

/-- P0's 64 missed ticks give both roles to the lowest position on the ring, and a restored P0 takes them back (R40). -/
def Obligations.RingMastership : Prop :=
  (∀ s : State, s.dev.loom = .running → s.dev.position ≠ 0 → s.dev.master = 0 → (s.dev.portRun 0 = true ∨ s.dev.portRun 1 = true) → 64 ≤ s.dev.tick.p0Miss →
      Completes .masterTakeover s fun e =>
        (∃ p, p ≠ 0 ∧ p < 8 ∧ (p = s.dev.position ∨ (s.dev.bitO 0x2668 1 p = true ∧ s.dev.ring.gone.testBit p = false))
          ∧ (∀ q, q ≠ 0 → q < p → q ≠ s.dev.position ∧ (s.dev.bitO 0x2668 1 q = false ∨ s.dev.ring.gone.testBit q = true))
          ∧ e.master = p ∧ e.isMaster = (p == e.position))
        ∧ e.position = s.dev.position ∧ (e.isMaster = true → e.get 0x2000 2 = 0 ∧ e.get 0x2000 3 = 0)
        ∧ e = { s.dev with objs := e.objs, ports := e.ports, ring := e.ring, tick := { s.dev.tick with slewNs := e.tick.slewNs } })
  ∧ (∀ s : State, s.dev.loom = .running → s.dev.tick.p0Back = true → s.dev.master ≠ 0 → (s.dev.now + 1) % 32000 = 0 → s.dev.tick.p0Miss < 64 →
      Completes .masterRestore s fun e => e.master = 0 ∧ (s.dev.position = 0 → e.get 0x2000 2 = 0 ∧ e.get 0x2000 3 = 0)
        ∧ e.position = s.dev.position ∧ e = { s.dev with objs := e.objs, tick := e.tick, ports := e.ports, ring := e.ring })
  ∧ (∀ s : State, (s.dev.now + 1) % 32000 ≠ 0 → exec .masterRestore s = .next s)
  ∧ (∀ s : State, s.dev.tick.p0Miss < 64 → exec .masterTakeover s = .next s)

/-- Holdover after 64 ticks without a marker, the fallback after 64 without a share, and what the ring's frames bring (R39, R41, R42, R560,
R341, R340). -/
def Obligations.HoldoverAndShares : Prop :=
  (∀ s : State, s.dev.loom = .running → s.dev.isMaster = false → 64 ≤ s.dev.tick.markerMiss → s.dev.get 0x2000 2 ≠ 2 →
      Completes .holdoverEntry s fun e => e.get 0x2000 2 = 2 ∧ e.get 0x2000 3 = 0 ∧ e.evPending 5 = true
        ∧ KeepsObjs [(0x2000, 2), (0x2000, 3), evObj 5] s.dev e ∧ e = { s.dev with objs := e.objs, tick := { s.dev.tick with slewNs := 0 } })
  ∧ (∀ s : State, s.dev.running = true → s.dev.isMaster = false → 64 ≤ s.dev.tick.shareMiss →
      Completes .shareFallback s fun e => e = { s.dev with alloc := { s.dev.alloc with shares := none } })
  ∧ (∀ (s : State) (b : Bytes), s.dev.running = true → s.dev.isMaster = false → Completes (.siteShares b) s fun e =>
      (∃ w, e.alloc.shares = some w ∧ w.length = 32 ∧ ∀ o, o < 32 → w[o]? = some (leAt b (4 + 4 * o) 4)) ∧ e.tick.shareMiss = 0
        ∧ e = { s.dev with alloc := { s.dev.alloc with shares := e.alloc.shares }, tick := { s.dev.tick with shareMiss := 0 } })
  ∧ (∀ (s : State) (b : Bytes) (p : Fin 8), s.dev.running = true → s.dev.isMaster = true → Completes (.demandReport b p) s fun e =>
      (p.val, b) ∈ e.alloc.reports ∧ (∀ x ∈ e.alloc.reports, x.1 = p.val → x.2 = b)
        ∧ (∀ x ∈ s.dev.alloc.reports, x.1 ≠ p.val → x ∈ e.alloc.reports)
        ∧ e = { s.dev with alloc := { s.dev.alloc with reports := e.alloc.reports } })
  ∧ (∀ (s : State) (b : Bytes), s.dev.loom = .running → s.dev.refused = false → Completes (.masterClaim b) s fun e =>
      e.master = byteAt b 0 % 8 ∧ e.bitO 0x2668 1 (byteAt b 0 % 8) = true
        ∧ KeepsObjs [(0x2000, 7), (0x2668, 1), evObj 14] s.dev e
        ∧ e = { s.dev with objs := e.objs, ring := { s.dev.ring with gone := setBit s.dev.ring.gone (byteAt b 0 % 8) false } })
  ∧ (∀ (s : State) (b : Bytes), s.dev.running = true → s.dev.isMaster = true → b.length = 16 →
      Completes (.curtailmentForward b) s fun e => e.getB 0x5810 0 = b ∧ (leAt b 0 4 = 0xFFFFFFFF → e.alloc.inForce = false
          ∧ e.alloc.waiting = false ∧ e.get 0x5811 1 = 0)
        ∧ (leAt b 0 4 ≠ 0xFFFFFFFF → leAt b 8 8 = 0 → e.alloc.inForce = true ∧ e.alloc.waiting = false ∧ e.get 0x5811 1 = 1
            ∧ e.alloc.ends = if leAt b 4 4 = 0 then none else some (s.dev.now + 1 + 32000 * leAt b 4 4))
        ∧ (e.alloc.inForce ≠ s.dev.alloc.inForce → e.evPending 45 = true)
        ∧ KeepsBlobs [(0x5810, 0)] s.dev e ∧ OnlyLogged { s.dev with alloc := e.alloc, blobs := e.blobs } e)

/-- A curtailment written, started and expired at the allocation master (R340, R341, R339). -/
def Obligations.CurtailmentOfTheSite : Prop :=
  (∀ (s : State) (role : Role) (v : Bytes), Accepts s.dev role 0x5810 0 (.raw v) {} → s.dev.isMaster = true →
      Completes (.curtailmentWrite role v) s fun e => e.getB 0x5810 0 = v ∧ e.status = 0
        ∧ (leAt v 0 4 = 0xFFFFFFFF → e.alloc.inForce = false ∧ e.alloc.waiting = false ∧ e.get 0x5811 1 = 0)
        ∧ (leAt v 0 4 ≠ 0xFFFFFFFF → leAt v 8 8 = 0 → e.alloc.inForce = true ∧ e.alloc.waiting = false ∧ e.get 0x5811 1 = 1
            ∧ e.alloc.ends = if leAt v 4 4 = 0 then none else some (s.dev.now + 1 + 32000 * leAt v 4 4))
        ∧ (e.alloc.inForce ≠ s.dev.alloc.inForce → e.evPending 45 = true)
        ∧ KeepsBlobs [(0x5810, 0)] s.dev e ∧ OnlyLogged { s.dev with alloc := e.alloc, blobs := e.blobs, status := 0 } e)
  ∧ (∀ (s : State) (role : Role) (v : Bytes), Accepts s.dev role 0x5810 0 (.raw v) {} → s.dev.isMaster = false →
      Completes (.curtailmentWrite role v) s fun e => e.getB 0x5810 0 = v ∧ KeepsBlobs [(0x5810, 0)] s.dev e
        ∧ e = { s.dev with alloc := { s.dev.alloc with forward := some v }, blobs := e.blobs, status := 0 })
  ∧ (∀ s : State, s.dev.running = true → s.dev.alloc.waiting = true → s.dev.civil.valid = true → s.dev.curtail.2.2 ≤ s.dev.utcNext →
      s.dev.curtail.2.1 = 0 → s.dev.alloc.inForce = false → Completes .curtailmentStart s fun e =>
        e.alloc.inForce = true ∧ e.alloc.waiting = false ∧ e.get 0x5811 1 = 1 ∧ e.evPending 45 = true
        ∧ KeepsObjs ([(0x5811, 1), evObj 45] ++ skeinObjs) s.dev e ∧ OnlyLogged { s.dev with alloc := e.alloc } e)
  ∧ (∀ (s : State) (t : Nat), s.dev.running = true → s.dev.alloc.inForce = true → s.dev.alloc.ends = some t → t ≤ s.dev.now + 1 →
      Completes .curtailmentExpiry s fun e => e.alloc.inForce = false ∧ e.get 0x5811 1 = 0 ∧ e.evPending 45 = true
        ∧ KeepsObjs ([(0x5811, 1), evObj 45] ++ skeinObjs) s.dev e ∧ OnlyLogged { s.dev with alloc := e.alloc } e)

/-- Ring ports: ping, echo, entry to RUN and loss, and the tick marker of the master (R557, R558, R37, R38, R39, R564). -/
def Obligations.RingPorts : Prop :=
  (∀ (s : State) (p : Fin 2), s.dev.loom = .running → (s.dev.now + 1) % 1024 = 0 → s.dev.refused = false → (s.dev.port p).pings < 4 →
      Completes (.ringPing p) s fun e => (e.port p).pings = (s.dev.port p).pings + 1 ∧ e.ring.seq = s.dev.ring.seq + 1
        ∧ e = { s.dev with ports := e.ports, ring := { s.dev.ring with seq := s.dev.ring.seq + 1 } })
  ∧ (∀ (s : State) (p : Fin 2), s.dev.loom = .running → (s.dev.now + 1) % 1024 = 0 → s.dev.refused = false → 4 ≤ (s.dev.port p).pings →
      s.dev.portRun p = true → Completes (.ringPing p) s fun e => e.get (0x2660 + p) 1 = 0 ∧ e.evPending 11 = true ∧ (e.port p).pings = 1)
  ∧ (∀ (s : State) (p : Fin 2) (rtt turn pos : Nat), s.dev.loom = .running → pos % 8 ≠ s.dev.position →
      Completes (.ringEcho p rtt turn pos) s fun e => (e.port p).trips.head? = some (rtt - turn) ∧ (e.port p).pings = 0
        ∧ e.get (0x2660 + p) 2 = pos % 8 ∧ e.bitO 0x2668 1 (pos % 8) = true
        ∧ KeepsObjs [(0x2660 + p, 2), (0x2660 + p, 3), (0x2668, 1), evObj 14] s.dev e
        ∧ e = { s.dev with objs := e.objs, ports := e.ports,
                           ring := { s.dev.ring with hops := e.ring.hops, gone := setBit s.dev.ring.gone (pos % 8) false } })
  ∧ (∀ (s : State) (p : Fin 2) (rtt turn pos : Nat), s.dev.loom = .running → pos % 8 = s.dev.position →
      Completes (.ringEcho p rtt turn pos) s fun e => e.refused = true ∧ KeepsObjs [(0x2000, 6)] s.dev e ∧ OnlyObjs s.dev e)
  ∧ (∀ (s : State) (p : Fin 2), s.dev.loom = .running → s.dev.portRun p = false → (s.dev.port p).trips ≠ [] → s.dev.refused = false →
      Completes (.ringPortRun p) s fun e => e.get (0x2660 + p) 1 = 1 ∧ e.evPending 11 = true
        ∧ KeepsObjs [(0x2660 + p, 1), (0x2668, 1), evObj 11] s.dev e ∧ OnlyObjs s.dev e)
  ∧ (∀ (s : State) (p : Fin 2), s.dev.portRun p = true → Completes (.ringPortDown p) s fun e =>
        e.get (0x2660 + p) 1 = 0 ∧ e.get (0x2660 + p) 2 = 0xFF ∧ e.evPending 11 = true ∧ (e.port p).trips = []
        ∧ (s.dev.portRun (1 - p) = true → e.get 0x2668 1 = s.dev.get 0x2668 1)
        ∧ (s.dev.portRun (1 - p) = false → e.ring.lastSeen = s.dev.get 0x2668 1
            ∧ ∀ i, i < 8 → i ≠ s.dev.position → e.bitO 0x2668 1 i = false)
        ∧ (let n := s.dev.get (0x2660 + p) 2
           e.ring.gone = if n < 8 ∧ s.dev.get (0x2660 + (1 - p)) 2 ≠ n then setBit s.dev.ring.gone n true else s.dev.ring.gone)
        ∧ KeepsObjs [(0x2660 + p, 1), (0x2660 + p, 2), (0x2668, 1), evObj 11, evObj 14] s.dev e
        ∧ e = { s.dev with objs := e.objs, ports := e.ports, ring := { s.dev.ring with lastSeen := e.ring.lastSeen, gone := e.ring.gone } })
  ∧ (∀ (s : State) (p : Fin 2) (b : Bytes) (off : Int), s.dev.loom = .running → s.dev.isMaster = false → s.dev.refused = false →
      byteAt b 4 % 8 ≠ s.dev.position → (byteAt b 4 % 8 = 0 → s.dev.master = 0) → s.dev.ring.best = none → Completes (.tickMarker p b off) s fun e =>
        e.tick.markerMiss = 0 ∧ e.get 0x2000 2 = 1 ∧ e.master = byteAt b 4 % 8 ∧ e.ring.copies = s.dev.ring.copies + 1
        ∧ KeepsObjs [(0x2000, 2), (0x2000, 3), (0x2000, 7), (0x2668, 1), evObj 14] s.dev e
        ∧ e = { s.dev with objs := e.objs, ring := e.ring, tick := e.tick, ports := e.ports, freeIdx := e.freeIdx })
  ∧ (∀ (s : State) (p : Fin 2) (b : Bytes) (off : Int), s.dev.loom = .running → s.dev.refused = false → s.dev.position ≠ 0 →
      byteAt b 4 % 8 = 0 → s.dev.master ≠ 0 → Completes (.tickMarker p b off) s fun e =>
        e = { s.dev with tick := { s.dev.tick with p0Back := true, p0Miss := 0 } })
  ∧ (∀ (s : State) (p : Fin 2) (b : Bytes) (off : Int), s.dev.loom = .running → s.dev.refused = false → s.dev.position = 0 →
      byteAt b 4 % 8 ≠ 0 → s.dev.ring.best = none → Completes (.tickMarker p b off) s fun e =>
        e.tick.p0Back = true ∧ e.master = byteAt b 4 % 8 ∧ e.get 0x2000 2 = 1 ∧ e.get 0x2000 3 = 0)

/-- A Roving link's start: each state goes to the next, and the identity of its head is recorded (R103, R104, R105, R106, R102, R116). -/
def Obligations.LinkStartStates : Prop :=
  (∀ (s : State) (l : Fin 36), s.dev.loom = .running → s.dev.linkState l = 0 → s.dev.get (linkIx l) 9 = 1 →
      Completes (.linkAcquire l) s fun e => e.linkState l = 1 ∧ (e.link l).since = s.dev.now ∧ (e.link l).noCore = 0
        ∧ KeepsObjs [(linkIx l, 2)] s.dev e ∧ e = { s.dev with objs := e.objs, links := e.links })
  ∧ (∀ (s : State) (l : Fin 36), s.dev.loom = .running → s.dev.linkState l = 1 → (s.dev.link l).since + 64 ≤ s.dev.now →
      Completes (.characterAlignmentHeld l) s fun e => e.linkState l = 2 ∧ (e.link l).since = s.dev.now
        ∧ KeepsObjs [(linkIx l, 2)] s.dev e ∧ e = { s.dev with objs := e.objs, links := e.links })
  ∧ (∀ (s : State) (l : Fin 36) (b : Bytes), s.dev.loom = .running → s.dev.linkState l = 2 → (s.dev.link l).held = none →
      capSetOk b = true → ((s.dev.link l).identity = none ∨ s.dev.meteringLink l = false ∨ (s.dev.link l).identity = some (capIdentity b)) →
      Completes (.capabilityTrainingSet l b) s fun e => e.linkState l = 3 ∧ (e.link l).identity = some (capIdentity b)
        ∧ e.get (linkIx l) 4 = capIdentity b ∧ e.get (linkIx l) 0xA = byteAt b 1 + 256 * byteAt b 2 + 65536 * byteAt b 13
        ∧ (e.link l).turnaround = leAt b 3 2
        ∧ KeepsObjs [(linkIx l, 2), (linkIx l, 4), (linkIx l, 0xA)] s.dev e ∧ e = { s.dev with objs := e.objs, links := e.links })
  ∧ (∀ (s : State) (l : Fin 36) (b : Bytes) (old : Nat), s.dev.loom = .running → s.dev.linkState l = 2 → (s.dev.link l).held = none →
      capSetOk b = true → (s.dev.link l).identity = some old → old ≠ capIdentity b → s.dev.meteringLink l = true →
      Completes (.capabilityTrainingSet l b) s fun e => e.linkState l = 2 ∧ (e.link l).held = some (capIdentity b)
        ∧ (e.link l).identity = some old ∧ e.evPending 13 = true ∧ e.get 0x4D40 1 = s.dev.get 0x4D40 1 + 1
        ∧ KeepsObjs ([evObj 13] ++ eventObjs) s.dev e ∧ OnlyLogged { s.dev with links := e.links } e)
  ∧ (∀ (s : State) (l : Fin 36) (at' m : Nat) (b : Bytes), s.dev.loom = .running → s.dev.linkState l = 3 → (s.dev.link l).dAdj = 0 →
      (s.dev.link l).trips.length = 15 → Completes (.upstreamFrame l (at', m) b) s fun e =>
        let dl := (at' + sumN (s.dev.link l).trips - 64 * (s.dev.link l).turnaround) / 32
        e.get (linkIx l) 5 = min dl 8000 ∧ (e.link l).dAdj = (if dl ≤ 8000 then 10000 - dl else 0) ∧ (e.link l).trips = []
        ∧ e.linkState l = 3 ∧ KeepsObjs [(linkIx l, 5)] s.dev e ∧ e = { s.dev with objs := e.objs, links := e.links })
  ∧ (∀ (s : State) (l : Fin 36) (at' m : Nat) (b : Bytes), s.dev.loom = .running → s.dev.linkState l = 3 → (s.dev.link l).dAdj ≠ 0 →
      Completes (.upstreamFrame l (at', m) b) s fun e =>
        (e.link l).good = (if (s.dev.link l).inTime at' then (s.dev.link l).good + 1 else 0) ∧ e = { s.dev with links := e.links })
  ∧ (∀ (s : State) (l : Fin 36) (at' : Nat), s.dev.loom = .running → s.dev.linkState l = 3 → (s.dev.link l).inTime at' = true →
      16 ≤ (s.dev.link l).good → ¬((s.dev.link l).chosen = 2 ∧ (s.dev.link l).lineGen = 1) →
      Completes (.alignComplete l at') s fun e => e.linkState l = 5 ∧ e.get (linkIx l) 3 = (s.dev.link l).lineGen
        ∧ KeepsObjs [(linkIx l, 2), (linkIx l, 3)] s.dev e ∧ e = { s.dev with objs := e.objs, links := e.links })
  ∧ (∀ (s : State) (l : Fin 36) (at' : Nat), s.dev.loom = .running → s.dev.linkState l = 3 → (s.dev.link l).inTime at' = true →
      16 ≤ (s.dev.link l).good → (s.dev.link l).chosen = 2 → (s.dev.link l).lineGen = 1 →
      Completes (.alignComplete l at') s fun e => e.linkState l = 4 ∧ (e.link l).switchTick = s.dev.now + 9
        ∧ KeepsObjs [(linkIx l, 2)] s.dev e ∧ e = { s.dev with objs := e.objs, links := e.links })
  ∧ (∀ (s : State) (l : Fin 36), s.dev.loom = .running → s.dev.linkState l = 4 → (s.dev.link l).switchTick ≤ s.dev.now →
      Completes (.rateSwitchTick l) s fun e => e.linkState l = 1 ∧ (e.link l).lineGen = 2
        ∧ KeepsObjs [(linkIx l, 2)] s.dev e ∧ e = { s.dev with objs := e.objs, links := e.links })
  ∧ (∀ (s : State) (l : Fin 36), s.dev.loom = .running → s.dev.linkState l = 6 → 16 ≤ (s.dev.link l).good → Completes (.recoverSuccess l) s fun e =>
        e.linkState l = 5 ∧ KeepsObjs [(linkIx l, 2)] s.dev e ∧ e = { s.dev with objs := e.objs, links := e.links })

/-- What each fault of a Roving link does: RECOVER or DOWN as a relink, and the samples of the period invalid (R92, R93, R103, R105, R107,
R116). -/
def Obligations.LinkFaultsAndRelinks : Prop :=
  (∀ (s : State) (l : Fin 36), s.dev.loom = .running → s.dev.linkState l = 5 → 3 ≤ (s.dev.link l).noCore →
      Completes (.fourFramesWithoutCore l) s fun e => e.linkState l = 6 ∧ e.get (linkIx l) 8 = satAdd 32 (s.dev.get (linkIx l) 8) 1
        ∧ e.get (linkIx l) 7 = satAdd 32 (s.dev.get (linkIx l) 7) 1 ∧ e.evPending 12 = true ∧ (e.link l).core = none
        ∧ KeepsObjs ([(linkIx l, 2), (linkIx l, 7), (linkIx l, 8), evObj 12] ++ skeinObjs) s.dev e
        ∧ OnlyLogged { s.dev with links := e.links } e)
  ∧ (∀ (s : State) (l : Fin 36), s.dev.loom = .running → s.dev.linkState l = 5 → Completes (.markerOutOfTime l) s fun e =>
        e.linkState l = 6 ∧ e.get (linkIx l) 8 = satAdd 32 (s.dev.get (linkIx l) 8) 1 ∧ e.evPending 12 = true ∧ (e.link l).core = none
        ∧ KeepsObjs ([(linkIx l, 2), (linkIx l, 8), evObj 12] ++ skeinObjs) s.dev e ∧ OnlyLogged { s.dev with links := e.links } e)
  ∧ (∀ (s : State) (l : Fin 36), s.dev.loom = .running → 1 ≤ s.dev.linkState l → s.dev.linkState l ≤ 6 →
      Completes (.alignmentLost l) s fun e => e.linkState l = 0 ∧ e.get (linkIx l) 3 = 0 ∧ (e.link l).lineGen = 1
        ∧ e.get (linkIx l) 8 = satAdd 32 (s.dev.get (linkIx l) 8) 1 ∧ e.evPending 12 = true
        ∧ KeepsObjs ([(linkIx l, 2), (linkIx l, 3), (linkIx l, 8), evObj 12] ++ skeinObjs) s.dev e
        ∧ OnlyLogged { s.dev with links := e.links } e)
  ∧ (∀ (s : State) (l : Fin 36), s.dev.loom = .running → s.dev.linkState l = 6 → (s.dev.link l).since + 48 ≤ s.dev.now →
      Completes (.recoverTimeout l) s fun e => e.linkState l = 0 ∧ e.get (linkIx l) 3 = 0
        ∧ e.get (linkIx l) 8 = satAdd 32 (s.dev.get (linkIx l) 8) 1 ∧ e.evPending 12 = true
        ∧ KeepsObjs ([(linkIx l, 2), (linkIx l, 3), (linkIx l, 8), evObj 12] ++ skeinObjs) s.dev e
        ∧ OnlyLogged { s.dev with links := e.links } e)
  ∧ (∀ (s : State) (l : Fin 36), s.dev.loom = .running → (s.dev.link l).lineGen = 2 → (s.dev.linkState l = 1 ∨ s.dev.linkState l = 2) →
      (s.dev.link l).switchTick + 64 ≤ s.dev.now → Completes (.gen2AcquisitionTimeout l) s fun e =>
        e.linkState l = 0 ∧ (e.link l).gen2Failed = true ∧ (e.link l).lineGen = 1
        ∧ e.get (linkIx l) 8 = satAdd 32 (s.dev.get (linkIx l) 8) 1 ∧ e.evPending 12 = true
        ∧ KeepsObjs ([(linkIx l, 2), (linkIx l, 3), (linkIx l, 8), evObj 12] ++ skeinObjs) s.dev e
        ∧ OnlyLogged { s.dev with links := e.links } e)
  ∧ (∀ (s : State) (l : Fin 36), s.dev.loom = .running → s.dev.linkState l = 5 → (s.dev.link l).noCore < 3 →
      Completes (.coreMissing l) s fun e => e.linkState l = 5 ∧ e.get (linkIx l) 7 = satAdd 32 (s.dev.get (linkIx l) 7) 1
        ∧ (e.link l).noCore = (s.dev.link l).noCore + 1 ∧ (e.link l).core = none ∧ (e.link l).badPeriod = s.dev.now - 1 + 1
        ∧ KeepsObjs [(linkIx l, 7)] s.dev e ∧ e = { s.dev with objs := e.objs, links := e.links })
  ∧ (∀ (s : State) (l : Fin 36) (at' m : Nat) (b : Bytes), s.dev.loom = .running → s.dev.linkState l = 5 → (s.dev.link l).inTime at' = true →
      crc32 (sliceB b 1 299) = leAt b 300 4 → crc32 (sliceB b 304 299) = leAt b 603 4 →
      Completes (.upstreamFrame l (at', m) b) s fun e =>
        let h := parseCore s.dev.now (sliceB b 1 299)
        (e.link l).noCore = 0 ∧ (e.link l).core = some h ∧ (e.link l).good = (s.dev.link l).good + 1
        ∧ (h.period ∈ (s.dev.link l).cw4Sent → e.get (linkIx l) 0xC = leAt (sliceB b 1 299) 295 4)
        ∧ (e.link l).cw4Sent = (s.dev.link l).cw4Sent.filter (fun n => h.period < n)
        ∧ (h.period ∉ (s.dev.link l).cw4Sent → e.get (linkIx l) 0xC = s.dev.get (linkIx l) 0xC)
        ∧ KeepsObjs [(linkIx l, 0xC)] s.dev e ∧ e = { s.dev with objs := e.objs, links := e.links })
  ∧ (∀ (s : State) (l : Fin 36) (at' m : Nat) (b : Bytes), s.dev.loom = .running → s.dev.linkState l = 5 → (s.dev.link l).inTime at' = false →
      crc32 (sliceB b 1 299) = leAt b 300 4 → crc32 (sliceB b 304 299) = leAt b 603 4 → (s.dev.link l).cw4Sent = [] →
      Completes (.upstreamFrame l (at', m) b) s fun e => e.linkState l = 6 ∧ (e.link l).core = none
        ∧ e.get (linkIx l) 8 = satAdd 32 (s.dev.get (linkIx l) 8) 1 ∧ e.evPending 12 = true
        ∧ KeepsObjs ([(linkIx l, 2), (linkIx l, 8), evObj 12] ++ skeinObjs) s.dev e ∧ OnlyLogged { s.dev with links := e.links } e)

/-- Writes to a link: disable, enable, accept a new head, and a head-register access (R99, R103, R106, R107, R109, R116, R58). -/
def Obligations.LinkWrites : Prop :=
  (∀ (s : State) (role : Role) (l : Fin 36), Accepts s.dev role (linkIx l) 9 (.num 0) (linkRules s.dev l 9 0) →
      Completes (.linkDisable role l) s fun e => e.status = 0 ∧ e.get (linkIx l) 9 = 0 ∧ e.linkState l = 7 ∧ e.get (linkIx l) 3 = 0
        ∧ (e.link l).core = none ∧ (e.link l).badPeriod = s.dev.now + 1
        ∧ KeepsObjs [(linkIx l, 2), (linkIx l, 3), (linkIx l, 9)] s.dev e ∧ e = { s.dev with objs := e.objs, links := e.links, status := 0 })
  ∧ (∀ (s : State) (role : Role) (l : Fin 36), Accepts s.dev role (linkIx l) 9 (.num 1) (linkRules s.dev l 9 1) →
      Completes (.linkEnable role l) s fun e => e.status = 0 ∧ e.get (linkIx l) 9 = 1 ∧ (e.link l).gen2Failed = false
        ∧ e.linkState l = (if s.dev.linkState l = 7 then 0 else s.dev.linkState l)
        ∧ KeepsObjs [(linkIx l, 2), (linkIx l, 9)] s.dev e ∧ e = { s.dev with objs := e.objs, links := e.links, status := 0 })
  ∧ (∀ (s : State) (role : Role) (l : Fin 36) (i : Nat), Accepts s.dev role (linkIx l) 0xB (.num 1) (linkRules s.dev l 0xB 1) →
      s.dev.linkState l = 2 → (s.dev.link l).held = some i → Completes (.acceptNewHead role l 1) s fun e => e.status = 0 ∧ e.linkState l = 3
        ∧ (e.link l).identity = some i ∧ e.get (linkIx l) 4 = i ∧ (e.link l).held = none
        ∧ KeepsObjs [(linkIx l, 2), (linkIx l, 4), (linkIx l, 0xA)] s.dev e
        ∧ e = { s.dev with objs := e.objs, links := e.links, status := 0 })
  ∧ (∀ (s : State) (role : Role) (l : Fin 36), Accepts s.dev role (linkIx l) 0xB (.num 1) (linkRules s.dev l 0xB 1) →
      (s.dev.linkState l ≠ 2 ∨ (s.dev.link l).held = none) → Completes (.acceptNewHead role l 1) s fun e => e = { s.dev with status := 0 })
  ∧ (∀ (s : State) (role : Role) (l : Fin 36) (v : Nat), Accepts s.dev role (linkIx l) 0xC (.num v) (linkRules s.dev l 0xC v) →
      Completes (.headRegisterAccess role l v) s fun e => (e.link l).cw4 = v
        ∧ e = { s.dev with links := e.links, status := 0 })

/-- A request of every transport enters the dictionary queue and is judged by checks 1 to 3 (R51, R53, R55, R56, R72, R74, R75, R76, R78,
R83). -/
def Obligations.RequestsEnterTheQueue : Prop :=
  (∀ (s : State) (q : Fin 4) (b : Bytes),
      let r := parseRequest (.host q) (srcHost q) (s.dev.get 0x1121 (q + 1) == 1) false b
      s.dev.loom = .running → ReadAdmitted s.dev r → Completes (.dictionaryRequest q b) s (QueuedAlone r s.dev))
  ∧ (∀ (s : State) (e : Fin 2) (v6 : Bool) (ip own : Bytes) (port dst : Nat) (b : Bytes),
      let r := parseRequest (.ether e v6 ip port dst own []) (srcEther e v6 ip port) false false b
      s.dev.loom = .running → dst = s.dev.get 0x1120 1 → s.dev.ownAddress e v6 own = true → b.length ≤ 1472 → 2 ≤ b.length → leAt b 0 2 = 0x4A58 → ReadAdmitted s.dev r →
        Completes (.ethernetDatagram e v6 (ip, own) (port, dst) false b) s (QueuedAlone r s.dev))
  ∧ (∀ (s : State) (e : Fin 2) (v6 : Bool) (ip : Bytes × Bytes) (port dst : Nat) (b : Bytes), s.dev.loom = .running → dst = s.dev.get 0x1120 1 →
      s.dev.ownAddress e v6 ip.2 = true → Completes (.ethernetDatagram e v6 ip (port, dst) true b) s fun x => x.get 0x1100 7 = satAdd 32 (s.dev.get 0x1100 7) 1
          ∧ KeepsObjs [(0x1100, 7)] s.dev x ∧ OnlyObjs s.dev x)
  ∧ (∀ (s : State) (e : Fin 2) (v6 : Bool) (ip : Bytes × Bytes) (port dst : Nat) (f : Bool) (b : Bytes), (dst ≠ s.dev.get 0x1120 1 ∨ s.dev.ownAddress e v6 ip.2 = false) →
        Completes (.ethernetDatagram e v6 ip (port, dst) f b) s fun x => x = s.dev)
  ∧ (∀ (s : State) (p : Fin 2) (fd : Bool) (c : Fin 128) (b : Bytes),
      let r := parseRequest (.can p fd c) (srcCan p fd c) (s.dev.canBound p fd c) false b
      s.dev.loom = .running → s.dev.canServed fd c = true → b.length ≤ 1472 → ReadAdmitted s.dev r →
        Completes (.canEnvelopeDownload p fd c (0x1102, b)) s (QueuedAlone r s.dev))
  ∧ (∀ (s : State) (p : Fin 2) (fd : Bool) (c : Fin 128) (ix : Nat) (b : Bytes), s.dev.loom = .running → s.dev.canServed fd c = true → ix ≠ 0x1102 →
        Completes (.canEnvelopeDownload p fd c (ix, b)) s fun x => x.dict.sent.head? = some (.can p fd c, natLE 4 0x08000020)
          ∧ x = { s.dev with dict := { s.dev.dict with sent := x.dict.sent } })
  ∧ (∀ (s : State) (p : Fin 2) (c : Fin 128) (ix sub : Nat),
      let r : DReq := { dest := .can p true c, src := srcCan p true c, op := 5, entries := [{ ix := ix, sub := sub }] }
      s.dev.loom = .running → s.dev.canBound p true c = false → ReadAdmitted s.dev r →
        Completes (.canSdoUpload p true c ix sub) s fun x => QueuedAlone r s.dev x ∧ (x.dict.queue.map (·.role)) = [.P])
  ∧ (∀ (s : State) (l : Fin 3) (f : MeshFrame),
      let r := parseCompact (.twist l false f.hopSrc f.far (!f.up)) (padTo 32 f.payload)
      s.dev.running = true → s.dev.forPart f = true → ReadAdmitted s.dev r → Completes (.compactRequest l f) s (QueuedAlone r s.dev))

/-- The queue's work: a read is answered, a write is checked, committed, takes effect and is answered (R49, R55, R57, R58, R59, R60, R63,
R69, R71). -/
def Obligations.RequestsInTheQueueAreServed : Prop :=
  (∀ (s : State) (r : DReq) (q : Nat), WaitsAlone s.dev r .accepted → r.op = 1 → r.dest = .host q → (s.dev.mb q).ready = none →
      Completes .dictionaryRead s fun e =>
        AnsweredTo q (respFrame s.dev r (r.entries.map (readEntry s.dev r))) [] s.dev e
        ∧ e = { s.dev with objs := e.objs, mbox := e.mbox, dict := { s.dev.dict with queue := [] } })
  ∧ (∀ (s : State) (r : DReq), WaitsAlone s.dev r .accepted → r.op = 2 → (∀ x ∈ writeStatuses s.dev r, x = 0) →
      (∀ x ∈ r.entries, x.ranks = false) → Completes .dictionaryWrite s fun e =>
        e = { s.dev with status := 0, dict := { s.dev.dict with queue := [{ r with phase := if r.entries.any committed then .checked else .ready, olds := [] }] } })
  ∧ (∀ (s : State) (r : DReq), WaitsAlone s.dev r .checked → s.dev.granted 36 3 = true → Completes .mramCommit s fun e =>
        e = { s.dev with dict := { s.dev.dict with queue := [{ r with phase := .ready }] } })
  ∧ (∀ (s : State) (r : DReq) (q : Nat) (b : Bytes), WaitsAlone s.dev r .ready → r.op = 2 → r.dest = .host q → (s.dev.mb q).ready = none →
      r.entries = [{ ix := 0x1017, sub := 0, len := 2, data := b }] → ReadingsDone s.dev → Completes .writeTakesEffect s fun e =>
        e.get 0x1017 0 = leNat b ∧ e.status = 0 ∧ AnsweredTo q (respFrame s.dev r [(0, [])]) [(0x1017, 0)] s.dev e
        ∧ e = { s.dev with objs := e.objs, mbox := e.mbox, status := 0, dict := { s.dev.dict with queue := [], srcs := e.dict.srcs } })

/-- Segmented transfers: the first segment is staged, a read is copied whole, an idle transfer and an idle record are given up (R63, R68,
R79, R80, R81, R82, R632). -/
def Obligations.SegmentedTransfers : Prop :=
  (∀ (s : State) (q : Fin 4) (b : Bytes) (x : DEntry),
      let r := parseRequest (.host q) (srcHost q) (s.dev.get 0x1121 (q + 1) == 1) false b
      s.dev.loom = .running → s.dev.dict.queue = [] → s.dev.dict.segs = [] → s.dev.trans = none → s.dev.pauseHolds r = false → (s.dev.front r).1 = 0 →
      r.op = 3 → r.entries = [x] → x.off = 0 → s.dev.inWindow r = none → s.dev.srcHigh r < r.trans → s.dev.srcTake r ≠ none →
      Completes (.dictionaryRequest q b) s fun e =>
        e.dict.segs = [{ src := r.src, trans := r.trans, ix := x.ix, sub := x.sub, at' := s.dev.now }]
        ∧ e.dict.queue = [{ r with key := (s.dev.front r).2.1, role := (s.dev.front r).2.2, phase := .accepted }]
        ∧ KeepsObjs [(0x1100, 6), (0x1104, byteAt r.src 1)] s.dev e
        ∧ e = { s.dev with objs := e.objs, dict := { s.dev.dict with queue := e.dict.queue, srcs := e.dict.srcs, segs := e.dict.segs } })
  ∧ (∀ (s : State) (r : DReq) (q : Nat) (x : DEntry), WaitsAlone s.dev r .accepted → r.op = 3 → r.dest = .host q → (s.dev.mb q).ready = none →
      r.entries = [x] → x.off = 0 → x.flags = 0 → x.data.length ≤ 1200 →
      s.dev.dict.segs = [{ src := r.src, trans := r.trans, ix := x.ix, sub := x.sub }] → Completes .segmentWrite s fun e =>
        e.dict.segs = [{ src := r.src, trans := r.trans, ix := x.ix, sub := x.sub, data := x.data, segs := [(0, x.data.length)]
                         at' := s.dev.now }]
        ∧ AnsweredTo q (respFrame s.dev r [(0, [])]) [] s.dev e
        ∧ e = { s.dev with objs := e.objs, mbox := e.mbox, dict := { s.dev.dict with queue := [], segs := e.dict.segs } })
  ∧ (∀ (s : State) (r : DReq) (q : Nat) (x : DEntry) (v : Bytes), WaitsAlone s.dev r .accepted → r.op = 4 → r.dest = .host q →
      (s.dev.mb q).ready = none → r.entries = [x] → x.off = 0 → readEntry s.dev r x = (0, v) → s.dev.dict.copies = [] →
      Completes .segmentRead s fun e =>
        AnsweredTo q (respFrame s.dev r [(0, v.take x.len)]) [] s.dev e
        ∧ e.dict.copies = (if v.length < x.len then [] else [{ src := r.src, trans := r.trans, data := v, at' := s.dev.now }])
        ∧ e = { s.dev with objs := e.objs, mbox := e.mbox, dict := { s.dev.dict with queue := [], copies := e.dict.copies } })
  ∧ (∀ (s : State) (i : Fin 4) (t : SegRec), s.dev.running = true → s.dev.dict.segs[i.val]? = some t →
      t.at' + 32000 * s.dev.get 0x1120 3 ≤ s.dev.now → Completes (.segmentTransferTimeout i) s fun e =>
        e.dict.segs = s.dev.dict.segs.eraseIdx i ∧ e.get 0x2400 1 = (s.dev.get 0x2400 1 + 1) % 2 ^ 32
        ∧ KeepsObjs skeinObjs s.dev e ∧ OnlyLogged { s.dev with dict := e.dict } e)
  ∧ (∀ (s : State) (n : Fin 48) (x : SrcRec), s.dev.running = true → tfind s.dev.dict.srcs n = some x → 4 ≤ n.val →
      x.at' + 32000 * s.dev.get 0x1120 2 ≤ s.dev.now → Completes (.sourceRecordRelease n) s fun e =>
        tfind e.dict.srcs n = none ∧ (∀ m, m ≠ n.val → tfind e.dict.srcs m = tfind s.dev.dict.srcs m)
        ∧ e = { s.dev with dict := { s.dev.dict with srcs := e.dict.srcs } })

/-- The host port: mailboxes, status bits, event bits, the mirror window, and the reports of the other transports (R74, R83, R539, R542,
R543, R544, R563, R616). -/
def Obligations.HostPortCommands : Prop :=
  (∀ (s : State) (q : Fin 4) (n : Nat) (b : Bytes),
      let a := patchBytes (padTo 2048 (s.dev.mb q).area) 0 b
      let r := parseRequest (.host q) (srcHost q) (s.dev.get 0x1121 (q + 1) == 1) false (padTo n a)
      s.dev.loom = .running → 1 ≤ n → n ≤ 1472 → (s.dev.mb q).busy = false → (s.dev.mb q).waiting.length < 16 → ReadAdmitted s.dev r →
      Completes (.mailboxSubmit q n b) s fun e => (e.mb q).len = n ∧ (e.mb q).area = a ∧ e.dict.queue.length = 1
        ∧ QueuedAlone r { s.dev with mbox := e.mbox } e)
  ∧ (∀ (s : State) (q : Fin 4) (n : Nat) (b : Bytes), s.dev.loom = .running → 1 ≤ n → n ≤ 1472 → (s.dev.mb q).busy = true →
      Completes (.mailboxSubmit q n b) s fun e => e.host.overrun = true ∧ e.get 0x2600 2 = satAdd 32 (s.dev.get 0x2600 2) 1
        ∧ (e.mb q) = { s.dev.mb q with area := (e.mb q).area }
        ∧ KeepsObjs [(0x2600, 2)] s.dev e ∧ e = { s.dev with objs := e.objs, mbox := e.mbox, host := { s.dev.host with overrun := true } })
  ∧ (∀ (s : State) (q : Fin 4) (a b : Bytes) (rest : List Bytes), (s.dev.mb q).ready = some a → (s.dev.mb q).held = none →
      (s.dev.mb q).waiting = b :: rest → Completes (.mailboxRelease q) s fun e =>
        (e.mb q).ready = some b ∧ (e.mb q).waiting = rest ∧ e.evPending 9 = true
        ∧ KeepsObjs [evObj 9] s.dev e ∧ e = { s.dev with objs := e.objs, mbox := e.mbox })
  ∧ (∀ (s : State) (q : Fin 4) (a : Bytes), (s.dev.mb q).ready = some a → (s.dev.mb q).held = none → (s.dev.mb q).waiting = [] →
      Completes (.mailboxRelease q) s fun e => (e.mb q).ready = none ∧ e = { s.dev with mbox := e.mbox })
  ∧ (∀ (s : State) (m : Nat), Completes (.hstatClear m) s fun e =>
      e.host.mirrorSeen = (s.dev.host.mirrorSeen && !m.testBit 1) ∧ e.host.overrun = (s.dev.host.overrun && !m.testBit 2)
        ∧ e = { s.dev with host := e.host })
  ∧ (∀ (s : State) (i : Fin 8) (m : Nat), Completes (.evpendClear i m) s fun e =>
      (∀ j, e.bitO 0x2410 (i + 1) j = (s.dev.bitO 0x2410 (i + 1) j && !m.testBit j)) ∧ KeepsObjs [(0x2410, i + 1)] s.dev e
        ∧ OnlyObjs s.dev e)
  ∧ (∀ (s : State) (a v : Nat), a < 0x10000 → Completes (.mirrorWrite a v) s fun e =>
      e = { s.dev with host := { s.dev.host with mirrorSeen := true } })
  ∧ (∀ (s : State) (a v : Nat), 0x12000 ≤ a → a < 0x14000 → Completes (.mirrorWrite a v) s fun e => e = s.dev)
  ∧ (∀ (s : State) (role : Role) (v : Bytes), Accepts s.dev role 0x2410 9 (.raw v) {} → Completes (.clearEvents role v) s fun e =>
      (∀ (i : Fin 8) (j : Nat), e.bitO 0x2410 (i + 1) j = (s.dev.bitO 0x2410 (i + 1) j && !(leAt v (4 * i) 4).testBit j))
        ∧ KeepsObjs ((List.range 8).map fun i => (0x2410, i + 1)) s.dev e ∧ e = { s.dev with objs := e.objs, status := 0 })
  ∧ (∀ s : State, s.dev.running = true → s.dev.get 0x1017 0 ≠ 0 → s.dev.dict.sent = [] → Completes .producerHeartbeat s fun e =>
      (∃ b : Bytes, b.length = 1 ∧ e.dict.sent = [(.heartbeat 1, b), (.heartbeat 0, b)])
        ∧ e = { s.dev with freeIdx := s.dev.freeIdx + 1, dict := { s.dev.dict with sent := e.dict.sent } })
  ∧ (∀ (s : State) (p : Fin 2) (sync up : Bool), s.dev.loom = .running → Completes (.ethernetLinkChange p sync up) s fun e =>
      e.get (0x2640 + p) 6 = sync.toNat + 2 * up.toNat ∧ KeepsObjs [(0x2640 + p, 6)] s.dev e ∧ OnlyObjs s.dev e)

/-- Admitted writes to channels, coefficient banks, profiles and lock groups, each with its metrology event (R119, R131, R132, R135, R137,
R147, R153, R158, R58). -/
def Obligations.FilterChainWrites : Prop :=
  (∀ (s : State) (role : Role) (c : Fin 288) (sub v : Nat),
      Accepts s.dev role (0x3000 + c) sub (.num v) (chanRules (s.dev.set (0x3000 + c) sub v) c) → 1 ≤ sub → sub ≤ 8 →
      Completes (.channelConfigurationWritten role c sub v) s fun e => e.get (0x3000 + c) sub = v ∧ (e.chan c).changed = true
        ∧ e.status = 0 ∧ e.get 0x4D40 1 = s.dev.get 0x4D40 1 + 1
        ∧ KeepsObjs ([(0x3000 + c.val, sub), (0x3600 + c.val, 0xE)] ++ eventObjs) s.dev e ∧ KeepsBlobs [(0x3600 + c.val, 0xF)] s.dev e
        ∧ OnlyLogged { s.dev with chans := e.chans, cals := e.cals, blobs := e.blobs, status := 0 } e)
  ∧ (∀ (s : State) (role : Role) (p t : Fin 4) (b : Fin 2) (v : Bytes),
      let ix := 0x3400 + p.val * 16 + t.val * 2 + b.val
      Accepts s.dev role ix 0 (.raw v) (bankRules s.dev p t b v true) → Completes (.filterBankWritten role p t b v) s fun e =>
        e.getB ix 0 = v ∧ e.get (0x3480 + p) (3 + 2 * t + b) = crc32 v ∧ e.status = 0 ∧ e.get 0x4D40 1 = s.dev.get 0x4D40 1 + 1
        ∧ KeepsObjs ([(0x3480 + p.val, 3 + 2 * t.val + b.val)] ++ eventObjs) s.dev e ∧ KeepsBlobs [(ix, 0)] s.dev e
        ∧ OnlyLogged { s.dev with blobs := e.blobs, status := 0 } e)
  ∧ (∀ (s : State) (role : Role) (p : Fin 4) (v : Bytes), Accepts s.dev role (0x3480 + p) 2 (.raw v) (swapRules s.dev p v) →
      Completes (.bankSwap role p v) s fun e =>
        (∀ j, e.bitO (0x3480 + p) 1 j = (s.dev.bitO (0x3480 + p) 1 j ^^ (byteAt v 0 % 16).testBit j))
        ∧ e.get (0x3480 + p) 0xB = satAdd 32 (s.dev.get (0x3480 + p) 0xB) 1 ∧ e.get (0x3480 + p) 0xC = s.dev.now + 1
        ∧ e.evPending 22 = true ∧ e.status = 0 ∧ e.get 0x4D40 1 = s.dev.get 0x4D40 1 + 1
        ∧ KeepsObjs ([(0x3480 + p.val, 1), (0x3480 + p.val, 0xB), (0x3480 + p.val, 0xC), evObj 22] ++ eventObjs) s.dev e
        ∧ OnlyLogged { s.dev with status := 0 } e)
  ∧ (∀ (s : State) (role : Role) (p t : Fin 4),
      let b := 1 - ((s.dev.get (0x3480 + p) 1).testBit t).toNat
      let ix := 0x3400 + p.val * 16 + t.val * 2 + b
      Accepts s.dev role (0x3480 + p) 0xD (.num (2 ^ t.val)) { atLife := if s.dev.inService then 0 else 4 } →
      Completes (.loadDefaults role p (2 ^ t.val)) s fun e => e.getB ix 0 = blobDefault ix 0
        ∧ e.get (0x3480 + p) (3 + 2 * t + b) = crc32 (blobDefault ix 0) ∧ e.get 0x4D40 1 = s.dev.get 0x4D40 1 + 1
        ∧ KeepsObjs ([(0x3480 + p.val, 3 + 2 * t.val + b)] ++ eventObjs) s.dev e ∧ KeepsBlobs [(ix, 0)] s.dev e
        ∧ OnlyLogged { s.dev with blobs := e.blobs, status := 0 } e)
  ∧ (∀ (s : State) (role : Role) (g : Fin 4) (sub v : Nat), Accepts s.dev role (0x34C0 + g) sub (.num v) (lockRules s.dev sub v) →
      1 ≤ sub → sub ≤ 2 → Completes (.lockGroupWrite role g sub v) s fun e => e.get (0x34C0 + g) sub = v ∧ e.get (0x34C0 + g) 3 = 1
        ∧ (s.dev.get (0x34C0 + g) 3 ≠ 1 → e.evPending 20 = true) ∧ e.get 0x4D40 1 = s.dev.get 0x4D40 1 + 1
        ∧ KeepsObjs ([(0x34C0 + g.val, sub), (0x34C0 + g.val, 3), (0x34C0 + g.val, 6), evObj 20] ++ eventObjs) s.dev e
        ∧ OnlyLogged { s.dev with locks := e.locks, status := 0 } e)

/-- Calibration constants, captures, a failed temperature source and the sealed check (R198, R200, R205, R207, R208, R209, R223, R225, R58). -/
def Obligations.CalibrationAndCaptures : Prop :=
  (∀ (s : State) (role : Role) (c : Fin 288) (sub : Nat) (v : Bytes),
      Accepts s.dev role (0x3600 + c) sub (.raw v) (calRules (s.dev.store (0x3600 + c) sub (.raw v))) → 1 ≤ sub → sub ≤ 4 →
      Completes (.calibrationConstantWritten role c sub v) s fun e => e.get (0x3600 + c) sub = leNat v
        ∧ e.get (0x3600 + c) 0xA = satAdd 32 (s.dev.get (0x3600 + c) 0xA) 1 ∧ e.get (0x3600 + c) 0xB = s.dev.now + 1 ∧ e.status = 0
        ∧ e.getB (0x3600 + c) 0x10 = calRecord e c ∧ e.get 0x4D40 1 = s.dev.get 0x4D40 1 + 1
        ∧ KeepsObjs ([(0x3600 + c.val, sub), (0x3600 + c.val, 0xA), (0x3600 + c.val, 0xB), (0x3600 + c.val, 0xE)] ++ eventObjs) s.dev e
        ∧ KeepsBlobs [(0x3600 + c.val, 0x10), (0x3600 + c.val, 0xF)] s.dev e
        ∧ OnlyLogged { s.dev with cals := e.cals, blobs := e.blobs, status := 0 } e)
  ∧ (∀ (s : State) (role : Role) (c : Fin 288) (v : Nat), Accepts s.dev role (0x3600 + c) 0xD (.num v) {} → v ≠ 0 →
      Completes (.captureStart role c v) s fun e => e.get (0x3600 + c) 0xD = v ∧ e.get (0x3600 + c) 0xE = 1
        ∧ (e.cal c).cap = { start := s.dev.now + 1, len := v }
        ∧ KeepsObjs [(0x3600 + c.val, 0xD), (0x3600 + c.val, 0xE)] s.dev e
        ∧ e = { s.dev with objs := e.objs, cals := e.cals, status := 0 })
  ∧ (∀ (s : State) (role : Role) (c : Fin 288), Accepts s.dev role (0x3600 + c) 0xD (.num 0) {} →
      Completes (.captureCancel role c) s fun e => e.get (0x3600 + c) 0xE = 0 ∧ e.getB (0x3600 + c) 0xF = zeros 64 ∧ (e.cal c).cap = {}
        ∧ KeepsObjs [(0x3600 + c.val, 0xD), (0x3600 + c.val, 0xE)] s.dev e ∧ KeepsBlobs [(0x3600 + c.val, 0xF)] s.dev e
        ∧ e = { s.dev with objs := e.objs, blobs := e.blobs, cals := e.cals, status := 0 })
  ∧ (∀ (s : State) (c : Fin 288), s.dev.running = true → s.dev.get (0x3600 + c) 0xE % 4 = 1 →
      (s.dev.cal c).cap.start + (s.dev.cal c).cap.len ≤ s.dev.now + 1 → Completes (.captureComplete c) s fun e =>
        e.get (0x3600 + c) 0xE % 4 = 2 ∧ (∀ j, 2 ≤ j → e.bitO (0x3600 + c) 0xE j = s.dev.bitO (0x3600 + c) 0xE j)
        ∧ e.getB (0x3600 + c) 0xF = capResults (s.dev.cal c).cap
        ∧ KeepsObjs [(0x3600 + c.val, 0xE)] s.dev e ∧ KeepsBlobs [(0x3600 + c.val, 0xF)] s.dev e
        ∧ e = { s.dev with objs := e.objs, blobs := e.blobs })
  ∧ (∀ (s : State) (c : Fin 288), s.dev.running = true → s.dev.get (0x3600 + c) 5 < 288 →
      (s.dev.cal (s.dev.get (0x3600 + c) 5)).tempAt + 32000 ≤ s.dev.now → s.dev.bitO (0x3600 + c) 8 3 = false →
      Completes (.temperatureSourceFailure c) s fun e => e.bitO (0x3600 + c) 8 3 = true ∧ e.evPending 23 = true
        ∧ e.get 0x4D40 1 = s.dev.get 0x4D40 1 + 1
        ∧ KeepsObjs ([(0x3600 + c.val, 8), evObj 23] ++ eventObjs) s.dev e ∧ OnlyLogged s.dev e)
  ∧ (∀ s : State, s.dev.running = true → s.dev.isSealed = true → s.dev.tick.calCheck + 32000 ≤ s.dev.now →
      Completes .calibrationRecordCheck s fun e => e.tick.calCheck = s.dev.now
        ∧ e.get 0x4D40 1 = s.dev.get 0x4D40 1 + ((List.range 288).filter fun c => !calGood s.dev c).length
        ∧ e.evPending 3 = (s.dev.evPending 3 || (List.range 288).any fun c => !calGood s.dev c)
        ∧ KeepsObjs ([evObj 3] ++ eventObjs) s.dev e ∧ OnlyLogged { s.dev with tick := { s.dev.tick with calCheck := s.dev.now } } e)
  ∧ (∀ s : State, s.dev.running = true → s.dev.isSealed = false → Completes .calibrationRecordCheck s fun e => e = s.dev)

/-- Forced closes, registration, meter configuration and pulse outputs (R165, R170, R173, R174, R187, R189, R191, R192, R194, R299). -/
def Obligations.MetersAndPulses : Prop :=
  (∀ (s : State) (m : Fin 36) (q : Quantum), s.dev.running = true → (s.dev.meter m).due = some q →
      Completes (.forcedQuantumClose m) s fun e => (e.meter m).due = none ∧ (e.meter m).closed = (s.dev.meter m).closed ++ [q]
        ∧ e.get (meterIx m + 6) 0xB = satAdd 32 (s.dev.get (meterIx m + 6) 0xB) 1 ∧ e.evPending 26 = true
        ∧ KeepsObjs [(meterIx m + 6, 0xB), evObj 26] s.dev e ∧ BankFollows s.dev e
        ∧ e = { s.dev with objs := e.objs, meters := e.meters, supply := e.supply })
  ∧ (∀ (s : State) (m : Fin 36) (q : Quantum) (rest : List Quantum), s.dev.running = true → (s.dev.meter m).closed = q :: rest →
      q.regAt ≤ s.dev.now → 1 ≤ s.dev.get (meterIx m + 8) 5 → s.dev.get (meterIx m + 8) 5 ≤ 8 →
      Completes (.quantumRegistration m) s fun e => (e.meter m).closed = rest
        ∧ e.get (meterIx m + 5) 1 = (s.dev.get (meterIx m + 5) 1 + 1) % 2 ^ 32 ∧ e.get (meterIx m + 5) 2 = q.stop - q.first
        ∧ e.get (meterIx m + 6) 0xA = (s.dev.get (meterIx m + 6) 0xA + 1) % 2 ^ 64
        ∧ BankFollows s.dev e
        ∧ e = { s.dev with objs := e.objs, meters := e.meters, pulses := e.pulses, bill := e.bill, supply := e.supply })
  ∧ (∀ (s : State) (role : Role) (m : Fin 36) (off : Fin 5) (sub v : Nat),
      Accepts s.dev role (meterIx m + off) sub (.num v) (meterRules (s.dev.set (meterIx m + off) sub v)) →
      Completes (.meterConfigurationWrite role m off sub v) s fun e => e.get (meterIx m + off) sub = v ∧ e.status = 0
        ∧ (e.meter m).cur = none ∧ (e.meter m).due = none ∧ (e.meter m).armed = false ∧ e.get 0x4D40 1 = s.dev.get 0x4D40 1 + 1
        ∧ KeepsObjs ([(meterIx m + off.val, sub), (meterIx m + 6, 0xB), (meterIx m + 7, 1), evObj 26] ++ eventObjs) s.dev e
        ∧ OnlyLogged { s.dev with meters := e.meters, status := 0 } e)
  ∧ (∀ (s : State) (j : Fin 4) (t : Nat), (s.dev.pulse j).high = some t → t ≤ s.dev.now + 1 → Completes (.pulseWidthExpiry j) s fun e =>
        (e.pulse j).high = none ∧ (e.pulse j).lowFrom = t ∧ e = { s.dev with pulses := e.pulses })
  ∧ (∀ (s : State) (role : Role) (j : Fin 4) (sub v : Nat), Accepts s.dev role (0x49F0 + j) sub (.num v) {} → sub ≤ 4 →
      Completes (.pulseOutputConfiguration role j sub v) s fun e => e.get (0x49F0 + j) sub = v ∧ e.get (0x49F0 + j) 5 = 0
        ∧ e.get (0x49F0 + j) 6 = 0 ∧ (e.pulse j).high = none ∧ (e.pulse j).lowFrom = s.dev.now + 1
        ∧ KeepsObjs [(0x49F0 + j.val, sub), (0x49F0 + j.val, 5), (0x49F0 + j.val, 6), (0x49F0 + j.val, 7)] s.dev e
        ∧ e = { s.dev with objs := e.objs, pulses := e.pulses, status := 0 })

/-- The boundary step: rates selected, held under a supply warning, taken later, and the device-time close (R242, R243, R244, R245, R249,
R250, R251, R263, R264, R265, R591). -/
def Obligations.BoundarySteps : Prop :=
  (∀ s : State, s.dev.running = true → QuietStep s.dev → Completes .boundaryStep s fun e =>
      (∀ m, m < 36 → e.get (meterIx m + 8) 5 = if s.dev.get (meterIx m + 8) 4 ≠ 0 then s.dev.get (meterIx m + 8) 4
        else if (s.dev.meter m).rated = true then s.dev.get (meterIx m + 8) 5
        else byteAt (s.dev.getB (calendarIx (s.dev.get (meterIx m + 8) 1 % 4)) 1) 5)
      ∧ KeepsObjs ((List.range 36).map fun m => (meterIx m + 8, 5)) s.dev e
      ∧ e = { s.dev with objs := e.objs, meters := e.meters })
  ∧ (∀ s : State, s.dev.running = true → s.dev.stepWaits = true → s.dev.stepDue (s.dev.now + 1) = true →
      Completes .boundaryStep s fun e => e.bill.deferred = true ∧ (∀ m, m < 36 → e.bitO (meterIx m + 8) 6 1 = true)
        ∧ KeepsObjs ((List.range 36).map fun m => (meterIx m + 8, 6)) s.dev e
        ∧ e = { s.dev with objs := e.objs, bill := { s.dev.bill with deferred := true } })
  ∧ (∀ s : State, s.dev.running = true → s.dev.bill.deferred = true → QuietStep { s.dev with bill := { s.dev.bill with deferred := false } } →
      (∀ m, m < 36 → s.dev.deviceDue m (s.dev.now + 1) = false) → Completes .heldBoundaryStep s fun e => e.bill.deferred = false ∧ (∀ m, m < 36 → e.bitO (meterIx m + 8) 6 1 = false)
        ∧ KeepsObjs ((List.range 36).flatMap fun m => [(meterIx m + 8, 5), (meterIx m + 8, 6)]) s.dev e
        ∧ e = { s.dev with objs := e.objs, meters := e.meters, bill := { s.dev.bill with deferred := false } })
  ∧ (∀ (s : State) (m : Fin 36), s.dev.running = true → s.dev.civil.valid = false → s.dev.stepWaits = false → s.dev.bill.deferred = false →
      s.dev.get (meterIx m + 0x19) 1 + s.dev.subLen m * 32000 ≤ s.dev.now + 1 → Completes (.subintervalDeviceTimeClose m) s fun e =>
        e.get (meterIx m + 0x19) 1 = s.dev.now + 1 ∧ e.get (meterIx m + 0x19) 2 = 0 ∧ e.get (meterIx m + 0x19) 3 = 0
        ∧ e.get (meterIx m + 0x19) 4 = 0 ∧ e.get (meterIx m + 0x19) 5 = 0 ∧ s.dev.bill.staging.length < e.bill.staging.length
        ∧ ((e.meter m).window.head?.map (·.ticks)) = some (s.dev.get (meterIx m + 0x19) 2)
        ∧ (∃ r : SubRec, r.ticks = s.dev.get (meterIx m + 0x19) 2 ∧ r.e = (List.range 3).map (fun i => s.dev.get (meterIx m + 0x19) (3 + i))
            ∧ e.demands m = (demandBytes r :: s.dev.demands m).take 15 ∧ ∀ k, k ≠ m.val → e.demands k = s.dev.demands k)
        ∧ e = { s.dev with objs := e.objs, meters := e.meters, demand := e.demand, bill := { s.dev.bill with staging := e.bill.staging } })
  ∧ (∀ (s : State) (m : Fin 36), s.dev.running = true → s.dev.deviceDue m (s.dev.now + 1) = true → s.dev.stepWaits = true →
      Completes (.subintervalDeviceTimeClose m) s fun e => e.bill.deferred = true ∧ (∀ k, k < 36 → e.bitO (meterIx k + 8) 6 1 = true)
        ∧ KeepsObjs ((List.range 36).map fun k => (meterIx k + 8, 6)) s.dev e
        ∧ e = { s.dev with objs := e.objs, bill := { s.dev.bill with deferred := true } })
  ∧ (∀ s : State, s.dev.running = true → s.dev.granted 32 3 = true → Completes .stagedRecordCommit s fun e =>
        OnlyRank [] { s.dev with bill := { s.dev.bill with staging := s.dev.bill.staging.drop 1 }, supply := { s.dev.supply with index := e.supply.index } } e
        ∧ e.supply.index.1 = e.supply.index.2 ∧ e.arb.top = e.stagedTop)

/-- Civil time: a step, a slew and the hourly copy into the battery clock (R232, R233, R234, R235, R237, R244). -/
def Obligations.CivilTimeCommands : Prop :=
  (∀ (s : State) (role : Role) (v : Bytes), Accepts s.dev role 0x4A90 2 (.raw v) (stepRules s.dev v) →
      Completes (.stepCivilTime role v) s fun e => let u := effStep role v s.dev
        e = (stepNow u).answer 0
        ∧ u.civil = { valid := true, base := leAt v 0 8, secs := leAt v 8 8, frac := leAt v 16 4 }
        ∧ u.get 0x4A90 4 = 0 ∧ u.get 0x4A90 6 = satAdd 32 (s.dev.get 0x4A90 6) 1 ∧ u.get 0x4A90 7 = s.dev.now + 1
        ∧ (∀ m, m < 36 → (u.meter m).window = [] ∧ u.bitO (meterIx m + 8) 6 2 = true)
        ∧ OnlyLogged { s.dev with civil := u.civil, tamper := u.tamper, meters := u.meters } u)
  ∧ (∀ (s : State) (role : Role) (v : Nat), Accepts s.dev role 0x4A90 3 (.num v) {} → Completes (.slewCivilTime role v) s fun e =>
        e.get 0x4A90 4 = v ∧ e.civil.slewLeft = sval 32 v * 32000 ∧ e.status = 0 ∧ KeepsObjs ((0x4A90, 4) :: skeinObjs) s.dev e
        ∧ OnlyLogged { s.dev with civil := { s.dev.civil with slewLeft := e.civil.slewLeft }, status := 0 } e)
  ∧ (∀ s : State, s.dev.running = true → s.dev.civil.valid = true → s.dev.hourAt (s.dev.now + 1) = true →
      Completes .batteryClockCopy s fun e =>
        e = { s.dev with tamper := { s.dev.tamper with clock := some (clockOf (s.dev.civilAt (s.dev.now + 1))), rem := 0 } })

/-- Billing control, calendars, activation times and commanded snapshots (R229, R239, R240, R241, R246, R248, R252, R253, R254, R266). -/
def Obligations.TariffWritesAndSnapshots : Prop :=
  (∀ (s : State) (role : Role) (m : Fin 36) (sub v : Nat),
      Accepts s.dev role (meterIx m + 8) sub (.num v) (billingRules (s.dev.set (meterIx m + 8) sub v) m sub) → sub = 1 ∨ sub = 4 →
      QuietStep s.dev → Completes (.billingControlWrite role m sub v) s fun e => e.get (meterIx m + 8) sub = v ∧ e.status = 0
        ∧ (sub = 4 → v ≠ 0 → e.get (meterIx m + 8) 5 = v) ∧ e.get 0x4D40 1 = s.dev.get 0x4D40 1 + 1
        ∧ KeepsObjs ([(meterIx m + 8, sub)] ++ ((List.range 36).map fun k => (meterIx k + 8, 5)) ++ eventObjs) s.dev e
        ∧ OnlyLogged { s.dev with meters := e.meters, status := 0 } e)
  ∧ (∀ (s : State) (role : Role) (k : Fin 4) (v : Bytes), Accepts s.dev role (calendarIx k) 2 (.raw v) (calendarRules v true) →
      Completes (.passiveCalendarWrite role k v) s fun e => e.getB (calendarIx k) 2 = v ∧ e.get (calendarIx k) 5 = crc32 v ∧ e.status = 0
        ∧ e.get 0x4D40 1 = s.dev.get 0x4D40 1 + 1 ∧ KeepsObjs ((calendarIx k, 5) :: eventObjs) s.dev e
        ∧ KeepsBlobs [(calendarIx k, 2)] s.dev e ∧ OnlyLogged { s.dev with blobs := e.blobs, status := 0 } e)
  ∧ (∀ (s : State) (role : Role) (k : Fin 4) (v : Nat), Accepts s.dev role (calendarIx k) 3 (.num v) {} → QuietStep s.dev →
      Completes (.activationTimeWrite role k v) s fun e => e.get (calendarIx k) 3 = v ∧ e.status = 0
        ∧ KeepsObjs ([(calendarIx k, 3)] ++ ((List.range 36).map fun m => (meterIx m + 8, 5)) ++ eventObjs) s.dev e
        ∧ OnlyLogged { s.dev with meters := e.meters, status := 0 } e)
  ∧ (∀ (s : State) (role : Role), Accepts s.dev role 0x4C00 3 (.num 1) (snapshotRules s.dev) → s.dev.running = true →
      Completes (.commandSnapshot role) s fun e =>
        e = (boundaryStep { s.dev with bill := { s.dev.bill with commanded := some (max 1 (s.dev.bill.commanded.getD 0)) } }).answer 0)
  ∧ (∀ (s : State) (role : Role), Accepts s.dev role 0x4C00 3 (.num 2) (snapshotRules s.dev) → s.dev.running = true →
      Completes (.commandSnapshotResetMaxima role) s fun e =>
        e = (boundaryStep { s.dev with bill := { s.dev.bill with commanded := some (max 2 (s.dev.bill.commanded.getD 0)) } }).answer 0)
  ∧ (∀ (d : Dev) (b flags : Nat) (utc : Nat × Nat), let e := takeSnapshot b flags utc d
      e.bill.nextSnapshot = d.bill.nextSnapshot + 1 ∧ e.get 0x4C00 4 = d.bill.nextSnapshot
      ∧ (∀ m, m < 36 → (e.getB (0x4C10 + m) (d.bill.nextSnapshot % 36 + 1)).take 4 = natLE 4 d.bill.nextSnapshot))

/-- The close of a session record, and the queue of signed readings (R256, R257, R259, R268, R272, R273, R274, R275, R276, R278). -/
def Obligations.SessionRecordsAndReadings : Prop :=
  (∀ (s : State) (o : Fin 32) (x : SessRec) (t : Nat), s.dev.running = true → tfind s.dev.bill.sessions o = some x → x.ended = some t →
      t + 1086 ≤ s.dev.now → s.dev.stepWaits = false → s.dev.key 8 = none → Completes (.sessionRecordClose o) s fun e =>
        tfind e.bill.sessions o = none ∧ tfind e.bill.notBefore o = some (t + 1087)
        ∧ (e.getB (slotIx 0x4E20 (x.number % 4096)) (slotSub (x.number % 4096))).take 4 = natLE 4 x.number
        ∧ e.get 0x4E00 1 = max (s.dev.get 0x4E00 1) x.number ∧ e.bitO (meterIx o + 8) 6 4 = false
        ∧ KeepsObjs [(0x4E00, 1), (0x4E00, 2), (meterIx o + 8, 6)] s.dev e
        ∧ KeepsBlobs [(slotIx 0x4E20 (x.number % 4096), slotSub (x.number % 4096))] s.dev e
        ∧ BankFollows s.dev e
        ∧ e = { s.dev with objs := e.objs, blobs := e.blobs, bill := e.bill, vcs := e.vcs, supply := e.supply })
  ∧ (∀ (s : State) (role : Role) (m : Fin 36), Accepts s.dev role (0x4D90 + m) 2 (.num 1) (readingRules s.dev 1) →
      Completes (.requestReading role m 1) s fun e =>
        e = { s.dev with reads := { s.dev.reads with asked := s.dev.reads.asked ++ [(s.dev.now + 1, m.val)] }, status := 0 })
  ∧ (∀ (s : State) (m : Fin 36), s.dev.running = true → s.dev.get (0x4D90 + m) 3 ≠ 0 →
      s.dev.now % (s.dev.get (0x4D90 + m) 3 * 1920000) = 0 → s.dev.supply.hold = false → s.dev.pausing 3 = false → Completes (.periodicReading m) s fun e =>
        e = { s.dev with reads := { s.dev.reads with periodic := s.dev.reads.periodic.insert m.val } })
  ∧ (∀ (d : Dev) (m : Nat) (k : Bytes), d.reads.starts = [] → d.reads.periodic = [m] → d.reads.asked = [] → m < 36 → d.key 8 = some k → 1 ≤ d.life ∧ d.life ≤ 3 →
      d.upd.noMetrology = false → d.reads.queue.length < 1024 → let e := tickReadings d
        (e.reads.queue.getLast?.map fun r => (r.kind, r.meter, r.number, r.sig)) = some (5, m, d.reads.next, none)
        ∧ e.reads.queue.length = d.reads.queue.length + 1 ∧ e.reads.next = d.reads.next + 1 ∧ e.reads.periodic = []
        ∧ e.get 0x4D80 3 = d.reads.queue.length + 1 ∧ KeepsObjs [(0x4D80, 3), (0x4D80, 7)] d e
        ∧ e = { d with objs := e.objs, reads := e.reads })
  ∧ (∀ (s : State) (m : Fin 36), s.dev.running = true → s.dev.get (0x4D90 + m) 3 ≠ 0 →
      s.dev.now % (s.dev.get (0x4D90 + m) 3 * 1920000) = 0 → s.dev.supply.hold = true ∨ s.dev.pausing 3 = true → Completes (.periodicReading m) s fun e =>
        e.get 0x4D80 8 = satAdd 32 (s.dev.get 0x4D80 8) 1 ∧ KeepsObjs [(0x4D80, 8)] s.dev e ∧ OnlyObjs s.dev e)
  ∧ (∀ (s : State) (r : ReadingRec) (q : List ReadingRec), s.dev.running = true → s.dev.reads.queue = r :: q → r.sig = none →
      r.key ≠ [] → Completes .readingSigned s fun e =>
        e = { s.dev with reads := { s.dev.reads with
                queue := { r with sig := some (padTo 114 (ed448Sign r.key readingContext r.content)) } :: q } })
  ∧ (∀ (s : State) (r : ReadingRec) (q : List ReadingRec) (g : Bytes), s.dev.running = true → s.dev.reads.queue = r :: q → r.sig = some g →
      r.verified = true → (∀ x ∈ s.dev.dict.queue, x.phase ≠ .waiting) →
      s.dev.trans = none → s.dev.reads.switchDue = false → Completes .readingGivenOut s fun e => e.reads.queue = q ∧ e.get 0x4D80 3 = q.length
        ∧ e.getB (slotIx 0x4DC0 (r.number % 4096)) (slotSub (r.number % 4096)) = r.content ++ g
        ∧ (r.meter < 36 → e.getB (0x4D90 + r.meter) 1 = r.content ++ g) ∧ e.get 0x4D80 1 = max (s.dev.get 0x4D80 1) r.number
        ∧ KeepsObjs [(0x4D80, 1), (0x4D80, 3)] s.dev e
        ∧ KeepsBlobs [(slotIx 0x4DC0 (r.number % 4096), slotSub (r.number % 4096)), (0x4D90 + r.meter, 1)] s.dev e
        ∧ e = { s.dev with objs := e.objs, blobs := e.blobs, reads := { s.dev.reads with queue := q }, vcs := e.vcs })
  ∧ (∀ (s : State) (l : LostReading) (rest : List LostReading) (k : Bytes), s.dev.running = true → s.dev.reads.lost = l :: rest →
      s.dev.reads.queue = [] → s.dev.key 8 = some k → 1 ≤ s.dev.life ∧ s.dev.life ≤ 3 → l.meter < 36 → s.dev.supply.hold = false →
      s.dev.recordCommitted l = true →
      Completes .readingReissue s fun e => e.reads.lost = rest
        ∧ (e.reads.queue.map fun r => (r.meter, r.number)) = [(l.meter, s.dev.reads.next)] ∧ e.reads.next = s.dev.reads.next + 1
        ∧ e.get 0x4D40 1 = s.dev.get 0x4D40 1 + 1 ∧ KeepsObjs ([(0x4D80, 3), (0x4D80, 7)] ++ eventObjs) s.dev e
        ∧ OnlyLogged { s.dev with reads := e.reads } e)

/-- The tamper domain: a change of an enabled input, its copy, the battery, and the configuration (R283, R285, R286, R287). -/
def Obligations.TamperDomain : Prop :=
  (∀ (s : State) (i : Fin 8) (a : Bool) (n : Nat) (c : Nat × Nat) (r : Nat), s.dev.tamper.stopped = false → s.dev.bitO 0x4DE0 6 i ≠ a →
      s.dev.tamper.debounce.getD i 0x20 ≤ n → s.dev.tamper.enabled.testBit i = true → s.dev.tamperSlot = some r → r < 64 →
      Completes (.tamperInputChange i (a, n) c) s fun e =>
        SetsBit 0x4DE0 6 i a s.dev e ∧ e.tamper.next = s.dev.tamper.next + 1 ∧ leAt (e.tamperRec r) 8 4 = s.dev.tamper.next % 2 ^ 32
        ∧ e.get 0x4DE0 5 = satAdd 16 (s.dev.get 0x4DE0 5) 1 ∧ KeepsObjs [(0x4DE0, 5), (0x4DE0, 6)] s.dev e
        ∧ KeepsBlobs [(0x4DE2, r + 1)] s.dev e
        ∧ e = { s.dev with objs := e.objs, blobs := e.blobs, tamper := { clockOn (some c) s.dev.tamper with next := s.dev.tamper.next + 1 } })
  ∧ (∀ (s : State) (r : Fin 64), s.dev.running = true → s.dev.tamperDue r = true → (s.dev.tamperRec r).length = 16 →
      Completes (.tamperRecordCopy r) s fun e => e.tamperDue r = false ∧ e.evPending 29 = true
        ∧ e.get 0x4D40 1 = s.dev.get 0x4D40 1 + 1 ∧ KeepsObjs (evObj 29 :: eventObjs) s.dev e
        ∧ KeepsBlobs [(0x4DE2, r.val + 1)] s.dev e ∧ OnlyLogged { s.dev with blobs := e.blobs } e)
  ∧ (∀ s : State, s.dev.tamper.stopped = false → s.dev.bitO 0x4DE0 4 1 = false → s.dev.loom = .running → Completes .batteryLow s fun e =>
        SetsBit 0x4DE0 4 1 true s.dev e ∧ e.evPending 30 = true ∧ KeepsObjs [(0x4DE0, 4), evObj 30] s.dev e ∧ OnlyObjs s.dev e)
  ∧ (∀ s : State, s.dev.loom = .unpowered → Completes .tamperDomainStop s fun e => e.tamper = { stopped := true }
        ∧ (∀ r, r < 64 → e.tamperRec r = blobDefault 0x4DE2 (r + 1)) ∧ e.get 0x4DE0 4 = 0 ∧ e.get 0x4DE0 5 = 0 ∧ e.get 0x4DE0 6 = 0
        ∧ (∀ i, i < 8 → e.get 0x4DE3 (i + 1) = 0)
        ∧ KeepsObjs ([(0x4DE0, 4), (0x4DE0, 5), (0x4DE0, 6)] ++ (List.range 8).map fun i => (0x4DE3, i + 1)) s.dev e
        ∧ KeepsBlobs ((List.range 64).map fun r => (0x4DE2, r + 1)) s.dev e ∧ e = { s.dev with objs := e.objs, blobs := e.blobs, tamper := e.tamper })
  ∧ (∀ (s : State) (mv : Nat), s.dev.tamper.stopped = true → Completes (.tamperDomainRestart mv) s fun e =>
        e.tamper = { s.dev.tamper with stopped := false, restarted := true, restartMv := mv } ∧ e.bitO 0x4DE0 4 2 = true
        ∧ e.bitO 0x4DE0 4 1 = decide (mv < 2100) ∧ e.evPending 30 = (s.dev.evPending 30 || s.dev.ticking && decide (mv < 2100))
        ∧ KeepsObjs [(0x4DE0, 4), evObj 30] s.dev e ∧ e = { s.dev with objs := e.objs, tamper := e.tamper })
  ∧ (∀ (s : State) (role : Role) (i : Fin 2) (sub v : Nat), Accepts s.dev role (0x4DE0 + i) sub (.num v) {} →
      Completes (.tamperConfigurationWritten role i sub v) s fun e => e.get (0x4DE0 + i) sub = v ∧ e.status = 0
        ∧ e.get 0x4D40 1 = s.dev.get 0x4D40 1 + 1 ∧ KeepsObjs ((0x4DE0 + i.val, sub) :: eventObjs) s.dev e
        ∧ OnlyLogged { s.dev with status := 0 } e)

/-- A new pilot state, and the SLAC messages of a run up to the match with its free membership key (R314, R317, R318, R328). -/
def Obligations.PilotAndSlac : Prop :=
  (∀ (s : State) (o : Fin 32), s.dev.running = true → 2 ≤ (s.dev.out o).candRun → (s.dev.out o).cand ≠ s.dev.pilotState o →
      (s.dev.out o).cand < 8 → Completes (.pilotStateChange o) s fun e =>
        e.get (outletIx o + 3) 2 = s.dev.get (outletIx o + 3) 2 / 8 * 8 + (s.dev.out o).cand
        ∧ (e.out o).slac = (if (s.dev.out o).cand = 0 then {} else (s.dev.out o).slac)
        ∧ (e.out o).ask = (if (s.dev.pilotState o = 2 ∨ s.dev.pilotState o = 3) ∧ (s.dev.out o).cand = 1 ∧ s.dev.stepIn o 2 6 = true
            then setBit (s.dev.out o).ask 2 true else (s.dev.out o).ask)
        ∧ e.out o = { s.dev.out o with slac := (e.out o).slac, ask := (e.out o).ask } ∧ (∀ p, p ≠ o.val → e.out p = s.dev.out p)
        ∧ KeepsObjs [(outletIx o + 3, 2)] s.dev e ∧ e = { s.dev with objs := e.objs, outs := e.outs })
  ∧ (∀ (s : State) (o : Fin 32) (mac : Fin 281474976710656) (run : Nat), s.dev.slacOn o = true → (s.dev.out o).slac.stage ≠ 5 →
      Completes (.cmSlacParmReq o mac run) s fun e => e = s.dev.setSlac o { stage := 1, mac := mac, run := run })
  ∧ (∀ (s : State) (o : Fin 32) (mac : Fin 281474976710656) (run sounds : Nat), s.dev.slacOn o = true →
      (s.dev.out o).slac.mac = mac → (s.dev.out o).slac.run = run → (s.dev.out o).slac.stage = 1 →
      Completes (.cmStartAttenCharInd o mac run sounds) s fun e =>
        e = s.dev.setSlac o { (s.dev.out o).slac with stage := 2, left := sounds, sounds := 0, sums := [] })
  ∧ (∀ (s : State) (o : Fin 32) (mac : Fin 281474976710656) (run : Nat) (atten : List Nat), s.dev.slacOn o = true →
      (s.dev.out o).slac.mac = mac → (s.dev.out o).slac.run = run → (s.dev.out o).slac.stage = 2 → 1 ≤ (s.dev.out o).slac.left →
      Completes (.cmMnbcSoundInd o mac run atten) s fun e =>
        (e.out o).slac.left = (s.dev.out o).slac.left - 1 ∧ (e.out o).slac.sounds = (s.dev.out o).slac.sounds + 1
        ∧ sumN (e.out o).slac.sums = sumN (s.dev.out o).slac.sums + sumN atten
        ∧ e = s.dev.setSlac o { (s.dev.out o).slac with left := (e.out o).slac.left, sounds := (e.out o).slac.sounds, sums := (e.out o).slac.sums })
  ∧ (∀ (s : State) (o : Fin 32), s.dev.slacOn o = true → (s.dev.out o).slac.stage = 2 → 1 ≤ (s.dev.out o).slac.sounds →
      1 ≤ (s.dev.out o).slac.sums.length → Completes (.cmAttenCharInd o) s fun e =>
        (e.out o).slac.stage = 4
        ∧ (e.out o).slac.average = sumN (s.dev.out o).slac.sums / ((s.dev.out o).slac.sounds * (s.dev.out o).slac.sums.length)
        ∧ e = s.dev.setSlac o { (s.dev.out o).slac with stage := 4, average := (e.out o).slac.average })
  ∧ (∀ (s : State) (o : Fin 32) (mac : Fin 281474976710656) (run : Nat), s.dev.slacOn o = true → (s.dev.out o).slac.mac = mac →
      (s.dev.out o).slac.run = run → (s.dev.out o).slac.stage = 4 →
      (s.dev.get (outletIx o + 5) 2 < (s.dev.out o).slac.average → Completes (.cmSlacMatchReq o mac run) s fun e => e = s.dev)
      ∧ ((s.dev.out o).slac.average ≤ s.dev.get (outletIx o + 5) 2 → Completes (.cmSlacMatchReq o mac run) s fun e =>
          (e.out o).slac = { (s.dev.out o).slac with stage := 5, nmk := natLE 16 (Config.free s.dev.freeIdx) }
          ∧ e.get (outletIx o + 5) 3 = mac ∧ e.evPending 44 = true ∧ e.freeIdx = s.dev.freeIdx + 1
          ∧ (e.out o).frameAt = s.dev.now + 1 ∧ e.etherOpen o = s.dev.tunnel o ∧ (∀ p, p ≠ o.val → e.out p = s.dev.out p)
          ∧ KeepsObjs [(outletIx o + 5, 3), evObj 44] s.dev e
          ∧ e = { s.dev with objs := e.objs, outs := e.outs, freeIdx := e.freeIdx }))

/-- Vehicle frames and the host: Ethernet after the match, CAN with its decoded frames (layouts PRESUMED, log entry 20), and link losses
(R110, R318, R319, R320, R323, R325, R328, R331, R528). -/
def Obligations.VehicleFrames : Prop :=
  (∀ (s : State) (o : Fin 32) (b : Bytes),
      (s.dev.etherOpen o = false → Completes (.vehicleEthernetFrame o b) s fun e => e = s.dev)
      ∧ (s.dev.etherOpen o = true → Completes (.vehicleEthernetFrame o b) s fun e =>
          e = (s.dev.setOut o { s.dev.out o with frameAt := s.dev.now + 1 }).toHost o o b))
  ∧ (∀ (d : Dev) (o : Fin 32) (w : Nat) (b : Bytes), d.get 0x261C 1 = 1 →
      (d.frameBytes o + b.length ≤ Config.frameShare →
        (tget {} (d.toHost o w b).vcs 4).out = (tget {} d.vcs 4).out ++ [⟨0x40, w, b⟩]
        ∧ (∀ v, v ≠ 4 → tget {} (d.toHost o w b).vcs v = tget {} d.vcs v) ∧ d.toHost o w b = { d with vcs := (d.toHost o w b).vcs })
      ∧ (∀ (r : StreamRec) (rest : List StreamRec), (tget {} d.vcs 4).out = r :: rest → r.ty = 0x40 → r.word % 256 = o → Config.frameShare < d.frameBytes o + b.length →
          d.frameBytes o - r.payload.length + b.length ≤ Config.frameShare →
          (tget {} (d.toHost o w b).vcs 4).out = rest ++ [⟨0x40, w, b⟩]
          ∧ (d.toHost o w b).get (0x2510 + o) 0xC = satAdd 32 (d.get (0x2510 + o) 0xC) 1 ∧ KeepsObjs [(0x2510 + o.val, 0xC)] d (d.toHost o w b)
          ∧ d.toHost o w b = { d with objs := (d.toHost o w b).objs, vcs := (d.toHost o w b).vcs }))
  ∧ (∀ (s : State) (o : Fin 32), s.dev.running = true → ((2 ≤ s.dev.code o ∧ s.dev.code o ≤ 4) ∨ s.dev.code o = 7) →
      s.dev.stepIn o 2 6 = true → s.dev.pausing 1 = false → (s.dev.out o).frameAt + 320000 ≤ s.dev.now + 1 →
      Completes (.vehicleLinkTimeout o) s fun e =>
        e = s.dev.setOut o { s.dev.out o with ask := setBit (s.dev.out o).ask 3 true, linkLoss := true })
  ∧ (∀ (s : State) (o : Fin 32) (id : Nat) (b : Bytes), s.dev.canOpen o = true → id < 0x800 → id ≠ 0x102 →
      Completes (.vehicleCanFrame o id b) s fun e =>
        e = s.dev.toHost o (o + 256) (natLE 4 id ++ natLE 1 b.length ++ zeros 3 ++ b))
  ∧ (∀ (s : State) (o : Fin 32) (b : Bytes), s.dev.running = true → s.dev.code o = 5 → s.dev.tunnel o = true →
      Completes (.chademoVehicleFrame o b) s fun e =>
        (e.out o).reqV = 16 * leAt b 1 2 ∧ (e.out o).reqI = 16 * byteAt b 3 ∧ (e.out o).reqOn = (byteAt b 5).testBit 0
        ∧ (e.out o).reqAt = s.dev.now + 1
        ∧ (e.out o).ask = (if (s.dev.out o).reqOn = true ∧ (byteAt b 5).testBit 0 = false ∧ s.dev.stepIn o 2 6 = true
            then setBit (s.dev.out o).ask 2 true else (s.dev.out o).ask)
        ∧ (∀ p, p ≠ o.val → e.out p = s.dev.out p)
        ∧ e = { s.dev.toHost o (o + 256) (natLE 4 0x102 ++ natLE 1 b.length ++ zeros 3 ++ b) with outs := e.outs })
  ∧ (∀ (s : State) (o : Fin 32) (b : Bytes), s.dev.running = true → s.dev.code o = 6 → s.dev.tunnel o = true → Completes (.gbtBcl o b) s fun e =>
        (e.out o).reqV = leAt b 0 2 * 16 / 10 ∧ (e.out o).reqI = (4000 - leAt b 2 2) * 16 / 10 ∧ (e.out o).reqOn = true
        ∧ (e.out o).reqAt = s.dev.now + 1 ∧ (e.out o).ask = (s.dev.out o).ask
        ∧ (∀ p, p ≠ o.val → e.out p = s.dev.out p)
        ∧ e = { s.dev.toHost o (o + 256) (natLE 4 0x981056F4 ++ natLE 1 b.length ++ zeros 3 ++ b) with outs := e.outs })
  ∧ (∀ (s : State) (o : Fin 32) (b : Bytes), s.dev.running = true → s.dev.code o = 6 → s.dev.tunnel o = true → Completes (.gbtBst (o, b)) s fun e =>
        e = (s.dev.toHost o (o + 256) (natLE 4 0x901956F4 ++ natLE 1 b.length ++ zeros 3 ++ b)).setOut o { s.dev.out o with
              reqOn := false, reqAt := s.dev.now + 1, ask := (if s.dev.stepIn o 2 6 = true then setBit (s.dev.out o).ask 2 true else (s.dev.out o).ask) })
  ∧ (∀ (s : State) (o : Fin 32), s.dev.running = true → s.dev.code o = 5 ∨ s.dev.code o = 6 → s.dev.stepIn o 2 6 = true → s.dev.pausing 1 = false →
      (s.dev.out o).reqAt + 32 * s.dev.get (outletIx o + 6) 0xA ≤ s.dev.now + 1 → Completes (.canRequestTimeout o) s fun e =>
        e = s.dev.setOut o { s.dev.out o with ask := setBit (s.dev.out o).ask 3 true, linkLoss := true })
  ∧ (∀ (s : State) (o : Fin 32), s.dev.running = true → s.dev.code o = 7 → s.dev.stepIn o 5 6 = true →
      s.dev.pilotSample o < s.dev.get (outletIx o + 4) 8 → Completes (.ceLow o) s fun e =>
        e = s.dev.setOut o { s.dev.out o with ask := setBit (s.dev.out o).ask 2 true })

/-- A step that times out ends the session with reason 3, a welded contactor takes the outlet out of step 8, host limits grow stale (R324,
R326, R330, R331, R591). -/
def Obligations.SequencerTimeouts : Prop :=
  (∀ (s : State) (o : Fin 32), s.dev.running = true → s.dev.stepIn o 2 6 = true → s.dev.warned = false → s.dev.pausing 1 = false →
      s.dev.get (outletIx o + 6) (s.dev.step o) ≠ 0 →
      (s.dev.out o).since + s.dev.get (outletIx o + 6) (s.dev.step o) ≤ s.dev.now + 1 → Completes (.stepTimeout o) s fun e =>
        e.step o = 7 ∧ (e.out o).reason = 3 ∧ (e.out o).ask = 0 ∧ (e.out o).since = s.dev.now + 1 ∧ (e.out o).linkLoss = (s.dev.out o).linkLoss
        ∧ e.out o = { s.dev.out o with reason := 3, ask := 0, since := s.dev.now + 1, run := 0 }
        ∧ (∀ p, p ≠ o.val → e.out p = s.dev.out p) ∧ KeepsObjs [(outletIx o + 3, 1)] s.dev e
        ∧ e = { s.dev with objs := e.objs, outs := e.outs })
  ∧ (∀ (s : State) (o : Fin 32), s.dev.running = true → s.dev.step o = 8 → s.dev.pausing 1 = false → s.dev.get (outletIx o + 6) 8 ≠ 0 →
      (s.dev.out o).since + s.dev.get (outletIx o + 6) 8 ≤ s.dev.now + 1 → Completes (.weldedContactor o) s fun e =>
        e.step o = 0 ∧ SetsBit (outletIx o + 3) 2 5 true s.dev e ∧ e.evPending 42 = true
        ∧ e.out o = { s.dev.out o with waitAbsent := true, ask := 0, reason := 0, since := s.dev.now + 1, run := 0 }
        ∧ (∀ p, p ≠ o.val → e.out p = s.dev.out p)
        ∧ KeepsObjs [(outletIx o + 3, 1), (outletIx o + 3, 2), evObj 42] s.dev e ∧ e = { s.dev with objs := e.objs, outs := e.outs })
  ∧ (∀ (s : State) (o : Fin 32), s.dev.running = true → s.dev.pausing 1 = false → s.dev.limitsOld o (s.dev.now + 1) = true →
      (s.dev.bitO (outletIx o + 3) 2 3 = false → Completes (.limitsStale o) s fun e =>
        SetsBit (outletIx o + 3) 2 3 true s.dev e ∧ e.evPending 43 = true ∧ e.out o = { s.dev.out o with current := 0 }
        ∧ (∀ p, p ≠ o.val → e.out p = s.dev.out p) ∧ KeepsObjs [(outletIx o + 3, 2), evObj 43] s.dev e
        ∧ e = { s.dev with objs := e.objs, outs := e.outs })
      ∧ (s.dev.bitO (outletIx o + 3) 2 3 = true → Completes (.limitsStale o) s fun e => e = s.dev))
  ∧ (∀ (s : State) (o : Fin 32), s.dev.running = false ∨ s.dev.pausing 1 = true → Completes (.stepTimeout o) s (fun e => e = s.dev)
      ∧ Completes (.weldedContactor o) s (fun e => e = s.dev) ∧ Completes (.limitsStale o) s (fun e => e = s.dev))

/-- Admitted writes to an outlet: limits, start permit, end requests, return to service, configuration and disabling (R312, R319, R324,
R327, R328, R330, R334). -/
def Obligations.OutletWrites : Prop :=
  (∀ (s : State) (role : Role) (o : Fin 32) (sub v : Nat), Accepts s.dev role (outletIx o + 1) sub (.num v) {} →
      Completes (.hostLimitsWrite role o sub v) s fun e => e.get (outletIx o + 1) sub = v ∧ e.status = 0
        ∧ SetsBit (outletIx o + 3) 2 3 false s.dev e ∧ e.out o = { s.dev.out o with limitsAt := some (s.dev.now + 1) }
        ∧ (∀ p, p ≠ o.val → e.out p = s.dev.out p) ∧ KeepsObjs [(outletIx o + 1, sub), (outletIx o + 3, 2)] s.dev e
        ∧ e = { s.dev with objs := e.objs, outs := e.outs, status := 0 })
  ∧ (∀ (s : State) (role : Role) (o : Fin 32) (v : Nat), Accepts s.dev role (outletIx o + 2) 1 (.num v) (controlRules s.dev o 1 v) →
      Completes (.startPermit role o v) s fun e => e.get (outletIx o + 2) 1 = v ∧ e.status = 0
        ∧ KeepsObjs [(outletIx o + 2, 1)] s.dev e
        ∧ e = { s.dev.setProt o { s.dev.prot o with selfDone := false } with objs := e.objs, status := 0 })
  ∧ (∀ (s : State) (role : Role) (o : Fin 32), Accepts s.dev role (outletIx o + 2) 1 (.num 1) {} → s.dev.step o ≠ 1 →
      Completes (.startPermit role o 1) s fun e => e = { s.dev with status := 8 })
  ∧ (∀ (s : State) (role : Role) (o : Fin 32),
      let asked := fun r e => e = (if s.dev.stepIn o 2 6 = true then s.dev.askEnd o r else s.dev).answer 0
      (Accepts s.dev role (outletIx o + 2) 4 (.num 1) {} → Completes (.endRequestNormal role o) s (asked 1))
      ∧ (Accepts s.dev role (outletIx o + 2) 4 (.num 2) {} → Completes (.endRequestVehicle role o) s (asked 2))
      ∧ (Accepts s.dev role (outletIx o + 2) 4 (.num 4) {} → Completes (.endRequestHost role o) s (asked 4)))
  ∧ (∀ (s : State) (role : Role) (o : Fin 32), Accepts s.dev role (outletIx o + 2) 5 (.num 1) (controlRules s.dev o 5 1) →
      s.dev.life = 3 ∧ Completes (.returnToService role o 1) s fun e => SetsBit (outletIx o + 3) 2 5 false s.dev e ∧ e.status = 0
        ∧ KeepsObjs [(outletIx o + 3, 2)] s.dev e ∧ e = { s.dev with objs := e.objs, status := 0 })
  ∧ (∀ (s : State) (role : Role) (o : Fin 32), Accepts s.dev role (outletIx o + 2) 5 (.num 0) {} →
      Completes (.returnToService role o 0) s fun e => e = { s.dev with status := 0 })
  ∧ (∀ (s : State) (role : Role) (o : Fin 32) (sub v : Nat), Accepts s.dev role (outletIx o) sub (.num v) (outletRules s.dev s.dev o sub v) →
      Completes (.outletConfigurationWrite role o sub v) s fun e => e.get (outletIx o) sub = v ∧ e.status = 0
        ∧ e.get (outletIx o + 5) 4 = (if sub = 1 ∧ v % 16 = 6 then 0 else s.dev.get (outletIx o + 5) 4)
        ∧ e.step o = (if sub = 1 ∧ disables v = true ∧ s.dev.step o ≤ 1 then 0 else s.dev.step o)
        ∧ (e.out o).ask = (if sub = 1 ∧ disables v = true ∧ s.dev.stepIn o 2 6 = true then setBit (s.dev.out o).ask 4 true else (s.dev.out o).ask)
        ∧ e.out o = { s.dev.out o with ask := (e.out o).ask, slac := (e.out o).slac, waitAbsent := (e.out o).waitAbsent }
        ∧ (∀ p, p ≠ o.val → e.out p = s.dev.out p) ∧ (sub ≠ 1 ∨ disables v = false → e.outs = s.dev.outs)
        ∧ KeepsObjs [(outletIx o, sub), (outletIx o + 3, 1), (outletIx o + 5, 4)] s.dev e
        ∧ e = { s.dev with objs := e.objs, outs := e.outs, status := 0 })

/-- A trip of an outlet, a comparator that trips, and the two checks of the self-test (R328, R351, R352, R364, R365, R367, R50). -/
def Obligations.OutletTrips : Prop :=
  (∀ (d : Dev) (o n bit : Nat), o < 32 → bit ≠ 0 → bit ≠ 11 → bit < 16 → d.tripHeld o = false → let e := tripOutlet o n bit d
      e.bitO (protIx o) 0x12 0 = true ∧ e.bitO (protIx o) 0x12 bit = true ∧ e.get (protIx o) 0x13 = satAdd 32 (d.get (protIx o) 0x13) 1
      ∧ e.get (protIx o) 0x14 = n ∧ e.evPending (tripEvent bit) = true ∧ e.get 0x2400 1 = (d.get 0x2400 1 + 1) % 2 ^ 32
      ∧ (e.out o).current = 0 ∧ (d.stepIn o 2 6 = true → ((e.out o).ask).testBit 0 = true
        ∧ (e.out o).tripAt = (if ((d.out o).ask).testBit 0 = true then min (d.out o).tripAt n else n) ∧ (e.out o).tripped = true)
      ∧ (∀ p, (e.prot p).trips = if p = o then push 2 n (d.prot o).trips else (d.prot p).trips)
      ∧ (d.code o ≠ 1 → KeepsObjs ([(protIx o, 0x12), (protIx o, 0x13), (protIx o, 0x14), evObj (tripEvent bit)] ++ skeinObjs) d e)
      ∧ e.meters = d.meters ∧ e.axes = d.axes)
  ∧ (∀ (s : State) (g : Fin 8) (level : Int), s.dev.loom ≠ .unpowered →
      (4 * (s.dev.get (protIx g) 0x20 : Int) < level ∨ level < -(4 * (s.dev.get (protIx g) 0x21 : Int))) →
      Completes (.comparatorTrip g level) s fun e => 
        (∀ j, e.bitO (protIx g) 0x23 j = if j ≤ 1 then true else if j = 2 then false else s.dev.bitO (protIx g) 0x23 j)
        ∧ e.grp g = { out := true, unseen := (s.dev.grp g).unseen || !s.dev.bitO (protIx g) 0x23 0, enabled := (s.dev.grp g).enabled,
                      zeroRun := if level.natAbs ≤ 2 * s.dev.get 0x2111 (g + 1) then (s.dev.grp g).zeroRun else 0 }
        ∧ (∀ h, h ≠ g.val → e.grp h = s.dev.grp h) ∧ KeepsObjs [(protIx g, 0x23)] s.dev e
        ∧ e = { s.dev with objs := e.objs, groups := e.groups })
  ∧ (∀ (s : State) (o : Fin 32) (t : Nat), s.dev.running = true → (s.dev.prot o).selfTest = some t → (s.dev.prot o).firstDone = false →
      t + 3200 ≤ s.dev.now + 1 →
      dcAbove (windowSums (residualW s.dev o) (s.dev.prot o).win).1 (residualW s.dev o) (s.dev.get (protIx o) 0xE) 1 2 = true →
      Completes (.selfTestFirstCheck o) s fun e => e = s.dev.setProt o { s.dev.prot o with firstDone := true })
  ∧ (∀ (s : State) (o : Fin 32) (t : Nat), s.dev.running = true → (s.dev.prot o).selfTest = some t → (s.dev.prot o).firstDone = true →
      t + 6400 ≤ s.dev.now + 1 →
      let above := dcAbove (windowSums (residualW s.dev o) (s.dev.prot o).win).1 (residualW s.dev o) (bandLevel s.dev o 4) 1 2
      (above = false → Completes (.selfTestSecondCheck o) s fun e =>
        e = s.dev.setProt o { s.dev.prot o with selfTest := none, firstDone := false, selfDone := true })
      ∧ (above = true → s.dev.tripHeld o = false → Completes (.selfTestSecondCheck o) s fun e =>
        e.get (outletIx o + 2) 1 = 0 ∧ e.bitO (protIx o) 0x12 0 = true ∧ e.bitO (protIx o) 0x12 10 = true ∧ e.evPending 54 = true
        ∧ (e.prot o).selfTest = none ∧ e.get (protIx o) 0x14 = s.dev.now + 1))

/-- The insulation measurement, the clearing of latches and trips, and the protection settings (R360, R361, R362, R366, R367, R368). -/
def Obligations.InsulationAndClearing : Prop :=
  (∀ (s : State) (o : Fin 32), s.dev.running = true → (s.dev.prot o).ins.state = 1 →
      (s.dev.prot o).ins.start + s.dev.insTicks o ≤ s.dev.now + 1 → Completes (.insulationStateSwitch o) s fun e =>
        (e.prot o).ins.state = 2 ∧ (e.prot o).ins.start = s.dev.now + 1 ∧ (e.prot o).ins.vp1 = (s.dev.prot o).ins.vp
        ∧ (e.prot o).ins.vn1 = (s.dev.prot o).ins.vn ∧ (e.prot o).ins.vp = 0 ∧ (e.prot o).ins.vn = 0
        ∧ (e.prot o).ins.inBand = (s.dev.prot o).ins.inBand ∧ (e.prot o).ins.faults = (s.dev.prot o).ins.faults
        ∧ (e.prot o).ins.passed = (s.dev.prot o).ins.passed ∧ e.prot o = { s.dev.prot o with ins := (e.prot o).ins }
        ∧ (∀ p, p ≠ o.val → e.prot p = s.dev.prot p) ∧ e = { s.dev with prots := e.prots })
  ∧ (∀ (s : State) (o : Fin 32), s.dev.running = true → (s.dev.prot o).ins.state = 2 →
      (s.dev.prot o).ins.start + s.dev.insTicks o ≤ s.dev.now + 1 → let i := (s.dev.prot o).ins
      (i.vp1 - i.vn1 < 655360000 → Completes (.insulationMeasurement o) s fun e =>
        e.bitO (insIx o) 0xD 2 = true ∧ e.bitO (insIx o) 0xD 3 = false ∧ (e.prot o).ins.state = 1 ∧ (e.prot o).ins.start = s.dev.now + 1
        ∧ KeepsObjs [(insIx o, 0xD)] s.dev e ∧ e = { s.dev with objs := e.objs, prots := e.prots })
      ∧ (let u1 := i.vp1 - i.vn1
         let u2 := i.vp - i.vn
         let det := i.vp1 * i.vn - i.vn1 * i.vp
         let riso := s.dev.get (insIx o) 4 * det / (i.vp1 * u2)
         655360000 ≤ u1 → (u2 - u1).natAbs * 50 ≤ u1 → 0 < det → i.vn = 0 → 0 < i.vp1 * u2 → riso < 0xFFFFFFFF →
         s.dev.get (insIx o) 7 * s.dev.ratedV o < riso → Completes (.insulationMeasurement o) s fun e =>
           e.get (insIx o) 0xA = 0xFFFFFFFF ∧ (e.get (insIx o) 0xB : Int) = riso ∧ (e.get (insIx o) 0xC : Int) = riso
           ∧ e.get (insIx o) 0xD % 16 = 1 ∧ e.get (insIx o) 0xE = satAdd 32 (s.dev.get (insIx o) 0xE) 1
           ∧ (e.prot o).ins.faults = 0 ∧ ((e.prot o).ins.passed = (i.passed || (decide (s.dev.step o = 3) && i.inBand)))
           ∧ KeepsObjs [(insIx o, 0xA), (insIx o, 0xB), (insIx o, 0xC), (insIx o, 0xD), (insIx o, 0xE)] s.dev e
           ∧ e = { s.dev with objs := e.objs, prots := e.prots }))
  ∧ (∀ (s : State) (role : Role) (g : Fin 8), Accepts s.dev role (protIx g) 0x26 (.num 1) (protRules s.dev (s.dev.set (protIx g) 0x26 1) role g 0x26 1) →
      Completes (.clearLatch role g 1) s fun e => SetsBit (protIx g) 0x23 0 false s.dev e ∧ e.status = 0
        ∧ e.grp g = { s.dev.grp g with unseen := false } ∧ KeepsObjs [(protIx g, 0x23)] s.dev e
        ∧ e = { s.dev with objs := e.objs, groups := e.groups, status := 0 })
  ∧ (∀ (s : State) (role : Role) (o : Fin 32),
      (Accepts s.dev role (protIx o) 0x15 (.num 1) (protRules s.dev (s.dev.set (protIx o) 0x15 1) role o 0x15 1) → Completes (.clearTrip role o 1) s fun e =>
        e.get (protIx o) 0x12 = 0 ∧ e.status = 0 ∧ KeepsObjs [(protIx o, 0x12)] s.dev e ∧ e = { s.dev with objs := e.objs, status := 0 })
      ∧ (Accepts s.dev role (protIx o) 0x15 (.num 1) {} → 2 ≤ s.dev.step o → s.dev.bitO (protIx o) 0x12 11 = false →
          Completes (.clearTrip role o 1) s fun e => e = { s.dev with status := 8 }))
  ∧ (∀ (s : State) (o : Fin 32), s.dev.running = true → s.dev.tripHeld o = true → s.dev.get (protIx o) 0xF = 1 →
      s.dev.bitO (protIx o) 0x12 11 = false → tripClearable s.dev o = true → Completes (.automaticClear o) s fun e =>
        e.get (protIx o) 0x12 = 0 ∧ KeepsObjs [(protIx o, 0x12)] s.dev e ∧ OnlyObjs s.dev e)
  ∧ (∀ (s : State) (role : Role) (o : Fin 32) (sub v : Nat),
      (Accepts s.dev role (protIx o) sub (.num v) (protRules s.dev (s.dev.set (protIx o) sub v) role o sub v) → 1 ≤ sub → sub ≤ 0xF →
        Completes (.protectionConfigurationWrite role o false sub v) s fun e => e.get (protIx o) sub = v ∧ e.status = 0
          ∧ e.prot o = { trips := (s.dev.prot o).trips } ∧ (∀ p, p ≠ o.val → e.prot p = s.dev.prot p)
          ∧ KeepsObjs [(protIx o, sub)] s.dev e ∧ e = { s.dev with objs := e.objs, prots := e.prots, status := 0 })
      ∧ (Accepts s.dev role (protIx o) sub (.num v) (protRules s.dev (s.dev.set (protIx o) sub v) role o sub v) → 0x20 ≤ sub → sub ≤ 0x22 →
        Completes (.protectionConfigurationWrite role o false sub v) s fun e => e.get (protIx o) sub = v ∧ e.status = 0
          ∧ (∀ p, e.prot p = if p < 32 ∧ s.dev.get (protIx p) 1 = o then { trips := (s.dev.prot p).trips } else s.dev.prot p)
          ∧ KeepsObjs [(protIx o, sub)] s.dev e ∧ e = { s.dev with objs := e.objs, prots := e.prots, status := 0 })
      ∧ (Accepts s.dev role (insIx o) sub (.num v) (insRules s.dev (s.dev.set (insIx o) sub v) o sub v) →
        Completes (.protectionConfigurationWrite role o true sub v) s fun e => e.get (insIx o) sub = v ∧ e.status = 0
          ∧ e.prot o = { trips := (s.dev.prot o).trips } ∧ (∀ p, p ≠ o.val → e.prot p = s.dev.prot p)
          ∧ KeepsObjs [(insIx o, sub)] s.dev e ∧ e = { s.dev with objs := e.objs, prots := e.prots, status := 0 }))

/-- Admitted writes to an axis: STO applied and released, SS1, referencing, a trip cleared, a safety parameter (R380, R381, R382, R388,
R396, R397). -/
def Obligations.AxisCommands : Prop :=
  (∀ (s : State) (role : Role) (a : Fin 4), Accepts s.dev role (axisIx a) 0x20 (.num 1) {} → s.dev.ax a 4 = false →
      Completes (.stoApply role a) s fun e =>
        (∀ j, e.ax a j = if j ≤ 1 then true else if 3 ≤ j ∧ j ≤ 5 then false else s.dev.ax a j) ∧ e.get (axisIx a) 0x35 = 0 ∧ e.status = 0
        ∧ e.axis a = { s.dev.axis a with ss1 := none, entry := none, degradedAt := none } ∧ (∀ b, b ≠ a.val → e.axis b = s.dev.axis b)
        ∧ KeepsObjs [(axisIx a, 0x30), (axisIx a, 0x35)] s.dev e ∧ e = { s.dev with objs := e.objs, axes := e.axes, status := 0 })
  ∧ (∀ (s : State) (role : Role) (a : Fin 4), Accepts s.dev role (axisIx a) 0x20 (.num 1) {} → s.dev.ax a 4 = true → s.dev.ax a 2 = false →
      Completes (.stoApply role a) s fun e =>
        (∀ j, e.ax a j = if j ≤ 2 then true else if j ≤ 5 then false else s.dev.ax a j) ∧ e.get (axisIx a) 0x36 = 7 ∧ e.evPending 64 = true
        ∧ e.get (axisIx a) 0x39 = s.dev.now + 1 ∧ e.get (axisIx a) 0x38 = satAdd 32 (s.dev.get (axisIx a) 0x38) 1
        ∧ KeepsObjs ([(axisIx a, 0x30), (axisIx a, 0x35), (axisIx a, 0x36), (axisIx a, 0x38), (axisIx a, 0x39), evObj 64] ++ skeinObjs) s.dev e
        ∧ OnlyLogged { s.dev with axes := e.axes, outs := e.outs, status := 0 } e)
  ∧ (∀ (s : State) (role : Role) (a : Fin 4),
      (Accepts s.dev role (axisIx a) 0x20 (.num 2) (stoRules s.dev a 2) → Completes (.stoRelease role a) s fun e =>
        (∀ j, e.ax a j = if j ≤ 1 then false else s.dev.ax a j) ∧ e.status = 0
        ∧ KeepsObjs [(axisIx a, 0x30)] s.dev e ∧ e = { s.dev with objs := e.objs, status := 0 })
      ∧ (Accepts s.dev role (axisIx a) 0x20 (.num 2) {} → s.dev.ax a 2 = true → Completes (.stoRelease role a) s fun e =>
          e = { s.dev with status := 8 }))
  ∧ (∀ (s : State) (role : Role) (a : Fin 4), Accepts s.dev role (axisIx a) 0x20 (.num 3) {} → s.dev.ax a 0 = false → s.dev.ax a 3 = false →
      s.dev.get (axisIx a) 0x10 ≠ 0 → Completes (.ss1Start role a) s fun e =>
        SetsBit (axisIx a) 0x30 3 true s.dev e ∧ e.status = 0
        ∧ (e.axis a).ss1 = some ⟨s.dev.now + 1, (s.dev.axis a).x.delta (s.dev.win a), (s.dev.axis a).y.delta (s.dev.win a), true⟩
        ∧ e.axis a = { s.dev.axis a with ss1 := (e.axis a).ss1, standRun := 0 } ∧ (∀ b, b ≠ a.val → e.axis b = s.dev.axis b)
        ∧ KeepsObjs [(axisIx a, 0x30)] s.dev e ∧ e = { s.dev with objs := e.objs, axes := e.axes, status := 0 })
  ∧ (∀ (s : State) (role : Role) (a : Fin 4), Accepts s.dev role (axisIx a) 0x21 (.num 1) {} → Completes (.reference role a 1) s fun e =>
        (e.axis a).armed = true ∧ (e.axis a).x.edge = false ∧ (e.axis a).y.edge = false ∧ SetsBit (axisIx a) 0x30 6 false s.dev e
        ∧ e.status = 0 ∧ (∀ b, b ≠ a.val → e.axis b = s.dev.axis b) ∧ KeepsObjs [(axisIx a, 0x30)] s.dev e
        ∧ e = { s.dev with objs := e.objs, axes := e.axes, status := 0 })
  ∧ (∀ (s : State) (role : Role) (a : Fin 4), Accepts s.dev role (axisIx a) 0x22 (.num 1) (axisRules s.dev (s.dev.set (axisIx a) 0x22 1) role a 0x22 1) →
      s.dev.ax a 0 = true ∧ s.dev.ax a 7 = true ∧ Completes (.axisClearTrip role a 1) s fun e =>
        SetsBit (axisIx a) 0x30 2 false s.dev e ∧ e.get (axisIx a) 0x36 = 0 ∧ e.get (axisIx a) 0x37 = 0 ∧ e.status = 0
        ∧ e.axis a = { s.dev.axis a with service := false, outLow := false } ∧ (∀ b, b ≠ a.val → e.axis b = s.dev.axis b)
        ∧ KeepsObjs [(axisIx a, 0x30), (axisIx a, 0x36), (axisIx a, 0x37)] s.dev e
        ∧ e = { s.dev with objs := e.objs, axes := e.axes, status := 0 })
  ∧ (∀ (s : State) (role : Role) (a : Fin 4) (sub v : Nat), Accepts s.dev role (axisIx a) sub (.num v) (axisRules s.dev (s.dev.set (axisIx a) sub v) role a sub v) →
      1 ≤ sub → sub ≤ 0x18 → Completes (.safetyParameterWrite role a sub v) s fun e =>
        e.get (axisIx a) sub = v ∧ e.get (axisIx a) 0x3F = crc32 (axisParams a ((s.dev.set (axisIx a) sub v).get (axisIx a))) ∧ e.status = 0
        ∧ e.get 0x2400 1 = (s.dev.get 0x2400 1 + 1) % 2 ^ 32 ∧ KeepsObjs ([(axisIx a, sub), (axisIx a, 0x3F)] ++ skeinObjs) s.dev e
        ∧ (sub ≠ 0x16 ∨ s.dev.ax a 2 = false → e.outs = s.dev.outs)
        ∧ (∀ o, sub = 0x16 → s.dev.ax a 2 = true → o < 32 → v.testBit o = true → s.dev.stepIn o 2 6 = true → ((e.out o).ask).testBit 3 = true)
        ∧ OnlyLogged { s.dev with outs := e.outs, status := 0 } e)

/-- Events of an axis: a channel fault, the end of SS1, the end of degraded time, index edges and the STO outputs (R376, R380, R382, R383,
R387, R388). -/
def Obligations.AxisEvents : Prop :=
  (∀ (s : State) (a : Fin 4) (y : Bool) (k : Fin 3), s.dev.loom ≠ .unpowered → Completes (.encoderChannelFault a y k) s fun e =>
        e = s.dev.setAxis a { s.dev.axis a with pend := setBit (s.dev.axis a).pend (k + if y = true then 4 else 0) true })
  ∧ (∀ (s : State) (a : Fin 4) (r : StopRec), s.dev.running = true → (s.dev.axis a).ss1 = some r → r.host = true →
      s.dev.takingOver = false → s.dev.ax a 4 = false →
      (32 ≤ (s.dev.axis a).standRun → Completes (.ss1End a) s fun e =>
        (∀ j, e.ax a j = if j ≤ 1 then true else if 3 ≤ j ∧ j ≤ 5 then false else s.dev.ax a j) ∧ (e.axis a).ss1 = none
        ∧ KeepsObjs [(axisIx a, 0x30), (axisIx a, 0x35)] s.dev e ∧ e = { s.dev with objs := e.objs, axes := e.axes })
      ∧ ((s.dev.axis a).standRun < 32 → r.start + 32 * s.dev.get (axisIx a) 0x12 ≤ s.dev.now + 1 → s.dev.ax a 2 = false →
          Completes (.ss1End a) s fun e =>
            (∀ j, e.ax a j = if j ≤ 2 then true else if j ≤ 5 then false else s.dev.ax a j) ∧ e.get (axisIx a) 0x36 = 3
            ∧ e.evPending 64 = true ∧ (e.axis a).ss1 = none
            ∧ (∀ o, o < 32 → (s.dev.get (axisIx a) 0x16).testBit o = true → s.dev.stepIn o 2 6 = true → ((e.out o).ask).testBit 3 = true)))
  ∧ (∀ (s : State) (a : Fin 4) (t : Nat), s.dev.running = true → (s.dev.axis a).degradedAt = some t →
      t + 32000 * s.dev.get (axisIx a) 0x13 ≤ s.dev.now + 1 → s.dev.ax a 0 = false → s.dev.ax a 3 = false → s.dev.get (axisIx a) 0x10 ≠ 0 →
      s.dev.takingOver = false → Completes (.degradedTimeExpiry a) s fun e => SetsBit (axisIx a) 0x30 3 true s.dev e
        ∧ ((e.axis a).ss1.map fun r => (r.start, r.host)) = some (s.dev.now + 1, false) ∧ (∀ b, b ≠ a.val → e.axis b = s.dev.axis b)
        ∧ KeepsObjs [(axisIx a, 0x30)] s.dev e ∧ e = { s.dev with objs := e.objs, axes := e.axes })
  ∧ (∀ (s : State) (a : Fin 4) (t : Nat), s.dev.running = true → (s.dev.axis a).degradedAt = some t →
      t + 32000 * s.dev.get (axisIx a) 0x13 ≤ s.dev.now + 1 → s.dev.ax a 0 = true → s.dev.ax a 2 = false → s.dev.takingOver = false →
      Completes (.degradedTimeExpiry a) s fun e => e.ax a 0 = true ∧ e.ax a 2 = true ∧ e.get (axisIx a) 0x36 = 7 ∧ e.evPending 64 = true)
  ∧ (∀ (s : State) (a : Fin 4) (c : Int), s.dev.running = true → (s.dev.axis a).armed = true → (s.dev.axis a).x.edge = false →
      let r := s.dev.axis a
      let p := r.x.p + (if s.dev.bitO (axisIx a) 1 2 = true then -countStep r.x.last c else countStep r.x.last c)
      let u := s.dev.unitsOf a
      let rx : Int := s.dev.res a false
      let ry : Int := s.dev.res a true
      (r.y.edge = false → Completes (.indexEdge a false c) s fun e =>
        e.axis a = { r with x := { r.x with edge := true, origin := p, ref := s.dev.getS 64 (axisIx a) 0x14, ahead := p - r.x.p }, y := { r.y with since := r.y.p } }
        ∧ SetsBit (axisIx a) 0x30 6 false s.dev e ∧ (∀ b, b ≠ a.val → e.axis b = s.dev.axis b)
        ∧ KeepsObjs [(axisIx a, 0x30)] s.dev e ∧ e = { s.dev with objs := e.objs, axes := e.axes })
      ∧ (r.y.edge = true → indexLate u (s.dev.get (axisIx a) 0x15) (s.dev.res a false) (s.dev.res a true) { r.x with p := p } r.y = true →
          Completes (.indexEdge a false c) s fun e => e = s.dev.setAxis a { r with armed := false, pend := setBit r.pend 3 true })
      ∧ (r.y.edge = true → indexLate u (s.dev.get (axisIx a) 0x15) (s.dev.res a false) (s.dev.res a true) { r.x with p := p } r.y = false → ((r.x.p - p) * u * ry + s.dev.getS 64 (axisIx a) 0x14 * rx * ry
            - ((r.y.p - r.y.origin) * u * rx + r.y.ref * rx * ry)).natAbs ≤ s.dev.get (axisIx a) 6 * rx * ry →
          Completes (.indexEdge a false c) s fun e => e.axis a =
              { r with x := { r.x with edge := true, origin := p, ref := s.dev.getS 64 (axisIx a) 0x14, ahead := p - r.x.p }, armed := false }
            ∧ SetsBit (axisIx a) 0x30 6 true s.dev e ∧ (∀ b, b ≠ a.val → e.axis b = s.dev.axis b)
            ∧ KeepsObjs [(axisIx a, 0x30)] s.dev e ∧ e = { s.dev with objs := e.objs, axes := e.axes }))
  ∧ (∀ (s : State) (a : Fin 4) (y : Bool), s.dev.loom ≠ .unpowered → s.dev.stoHigh a y = true →
      let r := s.dev.axis a
      s.dev.pulseOld 32000 (if y = true then r.pulseY else r.pulseX) = true → s.dev.pulseOld 16000 (if y = true then r.pulseX else r.pulseY) = true →
      Completes (.stoTestPulse (a, y)) s fun e =>
        e = s.dev.setAxis a { r with pulseX := if y = true then r.pulseX else some (s.dev.now + 1), pulseY := if y = true then some (s.dev.now + 1) else r.pulseY })
  ∧ (∀ (s : State) (a : Fin 4), s.dev.loom ≠ .unpowered → Completes (.stoOutputFault a) s fun e =>
        (∀ j, e.ax a j = if j ≤ 2 then true else if j ≤ 5 then false else s.dev.ax a j) ∧ e.get (axisIx a) 0x36 = 8
        ∧ (s.dev.ax a 2 = false → e.evPending 64 = true) ∧ e.evPending 71 = true ∧ (e.axis a).outLow = true ∧ (e.axis a).service = true
        ∧ (∀ y, e.stoHigh a y = false)
        ∧ (∀ b, b ≠ a.val → e.axis b = s.dev.axis b))

/-- The Whorl pairs: a fault, the takeover of the spare, and the safety island on its own (R389, R390, R391, R393, R398). -/
def Obligations.WhorlPairsAndIsland : Prop :=
  (∀ (s : State) (p : Fin 2), s.dev.running = true → s.dev.activePair = p → s.dev.pairFailed p = false →
      (s.dev.pairFailed (1 - p) = false → let lost := fun e : Dev => (
        (∀ a, a < 4 → e.get (axisIx a) 0x40 % 4 = 3 ∧ e.bitO (axisIx a) 0x40 (2 + p) = true ∧ e.ax a 9 = true
          ∧ e.get (axisIx a) 0x41 = satAdd 32 (s.dev.get 0x6800 0x41) 1 ∧ e.get (axisIx a) 0x43 = s.dev.now + 1)
        ∧ e.evPending 68 = true ∧ e.whorl = { s.dev.whorl with takeover := some (s.dev.now + 1), spareOk := false }
        ∧ OnlyLogged { s.dev with whorl := e.whorl } e)
        Completes (.whorlPairFault p) s lost ∧ Completes (.pairSelfTest p false) s lost)
      ∧ (s.dev.pairFailed (1 - p) = true → Completes (.whorlPairFault p) s fun e =>
          (∀ a, a < 4 → e.get (axisIx a) 0x40 % 4 = 3 ∧ e.bitO (axisIx a) 0x40 (2 + p) = true ∧ e.ax a 9 = s.dev.ax a 9)
          ∧ KeepsObjs ((List.range 4).map (fun a => (axisIx a, 0x40)) ++ skeinObjs) s.dev e ∧ OnlyLogged s.dev e))
  ∧ (∀ (s : State) (p : Fin 2), s.dev.running = true → s.dev.activePair = 1 - p.val → s.dev.pairFailed p = false →
      let lost := fun e : Dev => (
        (∀ a, a < 4 → e.get (axisIx a) 0x40 % 4 = 1 - p.val ∧ e.bitO (axisIx a) 0x40 (2 + p) = true ∧ e.ax a 9 = false) ∧ e.evPending 69 = true
        ∧ OnlyLogged { s.dev with whorl := { s.dev.whorl with takeover := none, spareOk := false } } e)
      Completes (.whorlPairFault p) s lost ∧ Completes (.pairSelfTest p false) s lost)
  ∧ (∀ (s : State) (t : Nat), s.dev.running = true → s.dev.whorl.takeover = some t → t ≤ s.dev.now → s.dev.now + 1 ≤ t + 7 →
      Completes (.spareKnownAnswerTest true) s fun e => e = { s.dev with whorl := { s.dev.whorl with spareOk := true } })
  ∧ (∀ (s : State) (t : Nat), s.dev.running = true → s.dev.whorl.takeover = some t → s.dev.whorl.spareOk = true → t + 16 ≤ s.dev.now + 1 →
      (∀ a, a < 4 → (s.dev.axis a).due = none ∧ (s.dev.axis a).dueSs1 = false) → Completes .takeoverComplete s fun e =>
        (∀ a, a < 4 → e.get (axisIx a) 0x40 = s.dev.get 0x6800 0x40 / 4 * 4 + s.dev.spare ∧ SetsBit (axisIx a) 0x30 9 false s.dev e)
        ∧ e.whorl = { s.dev.whorl with takeover := none, spareOk := false }
        ∧ KeepsObjs ((List.range 4).flatMap fun a => [(axisIx a, 0x40), (axisIx a, 0x30)]) s.dev e
        ∧ (∀ a, e.axis a = s.dev.axis a) ∧ e = { s.dev with objs := e.objs, whorl := e.whorl, axes := e.axes })
  ∧ (∀ (s : State) (t c : Nat) (a : Fin 4), s.dev.running = true → s.dev.whorl.takeover = some t → s.dev.whorl.spareOk = true →
      t + 16 ≤ s.dev.now + 1 → (s.dev.axis a).due = some (c, false) → c ≠ 0 → s.dev.ax a 4 = false → s.dev.ax a 2 = false →
      (∀ b, b < 4 → b ≠ a.val → (s.dev.axis b).due = none ∧ (s.dev.axis b).dueSs1 = false) → Completes .takeoverComplete s fun e =>
        e.ax a 0 = true ∧ e.ax a 1 = true ∧ e.ax a 2 = true ∧ e.get (axisIx a) 0x36 = c ∧ e.get (axisIx a) 0x39 = s.dev.now + 1
        ∧ (e.axis a).due = none ∧ e.evPending 64 = true)
  ∧ (∀ (s : State) (p : Fin 2), Completes (.pairSelfTest p true) s (fun e => e = s.dev)
      ∧ exec (.pairSelfTest p false) s = exec (.whorlPairFault p) s)
  ∧ (∀ s : State, s.dev.loom = .running → s.dev.whorl.island = false → 32 ≤ s.dev.whorl.silent → Completes .islandHeartbeatTimeout s fun e =>
        e.whorl = { s.dev.whorl with island := true, islandDue := false } ∧ e.evPending 70 = true
        ∧ (∀ g, g < 8 → SetsBit (protIx g) 0x23 2 false s.dev e) ∧ (∀ a, a < 4 → SetsBit (axisIx a) 0x30 8 true s.dev e
          ∧ e.get (axisIx a) 0x42 = satAdd 32 (s.dev.get 0x6800 0x42) 1 ∧ ∀ y, e.stoHigh a y = false)
        ∧ KeepsObjs (((List.range 8).map fun g => (protIx g, 0x23)) ++ ((List.range 4).flatMap fun a => [(axisIx a, 0x30), (axisIx a, 0x42)])
            ++ [evObj 70]) s.dev e
        ∧ e = { s.dev with objs := e.objs, whorl := e.whorl })

/-- The states of a load channel: ramp, thermal shutdown and restart, limits, undervoltage of its bank, open load (R403, R405, R406, R408,
R411, R412). -/
def Obligations.LoadChannelStates : Prop :=
  (∀ (s : State) (n : Fin 64), s.dev.loadState n = 1 → Completes (.rampComplete n) s fun e =>
        e.get (loadIx n) 0x10 = s.dev.get (loadIx n) 0x10 + 2 ∧ (∀ m, m ≠ n.val → e.load m = s.dev.load m)
        ∧ (e.load n).on = (s.dev.load n).on ∧ KeepsObjs [(loadIx n, 0x10)] s.dev e ∧ e = { s.dev with objs := e.objs, loads := e.loads })
  ∧ (∀ (s : State) (n : Fin 64), 1 ≤ s.dev.loadState n → s.dev.loadState n ≤ 4 → Completes (.thermalShutdown n) s fun e =>
        e.loadState n = (if s.dev.bitO (loadIx n) 1 1 = true then 6 else 5)
        ∧ e.bitO (loadIx n) 0x10 8 = (s.dev.bitO (loadIx n) 1 1 || s.dev.bitO (loadIx n) 0x10 8)
        ∧ e.get (loadIx n) 0x15 = satAdd 32 (s.dev.get (loadIx n) 0x15) 1 ∧ e.evPending 80 = (s.dev.evPending 80 || s.dev.ticking)
        ∧ (∀ o, s.dev.owner n = some o → 2 ≤ s.dev.step o → s.dev.step o ≤ 6 → ((e.out o).ask).testBit 3 = true)
        ∧ (s.dev.owner n = none → e.outs = s.dev.outs) ∧ (∀ m, m ≠ n.val → e.load m = s.dev.load m)
        ∧ KeepsObjs ([(loadIx n, 0x10), (loadIx n, 0x15), evObj 80] ++ skeinObjs) s.dev e
        ∧ OnlyLogged { s.dev with loads := e.loads, outs := e.outs } e)
  ∧ (∀ (s : State) (n : Fin 64), s.dev.loadState n = 5 → Completes (.thermalRestart n) s fun e =>
        e.loadState n = (if (s.dev.load n).on = true then (if s.dev.bankLow n = true then 2 else 1) else 0)
        ∧ ((s.dev.load n).on = true → (e.load n).slew = (if s.dev.bankLow n = true then 0 else s.dev.get (loadIx n) 2) ∧ (e.load n).reached = 0)
        ∧ (∀ m, m ≠ n.val → e.load m = s.dev.load m) ∧ KeepsObjs [(loadIx n, 0x10)] s.dev e
        ∧ e = { s.dev with objs := e.objs, loads := e.loads })
  ∧ (∀ (s : State) (n : Fin 64), Completes (.absoluteLimit n) s fun e => e.loadState n = 6 ∧ e.bitO (loadIx n) 0x10 7 = true
        ∧ e.get (loadIx n) 0x15 = (if 1 ≤ s.dev.loadState n ∧ s.dev.loadState n ≤ 4 then satAdd 32 (s.dev.get (loadIx n) 0x15) 1
            else s.dev.get (loadIx n) 0x15)
        ∧ (∀ m, m ≠ n.val → e.load m = s.dev.load m)
        ∧ KeepsObjs ([(loadIx n, 0x10), (loadIx n, 0x15), evObj 80] ++ skeinObjs) s.dev e
        ∧ OnlyLogged { s.dev with loads := e.loads, outs := e.outs, budget := { s.dev.budget with order := s.dev.budget.order.filter (· != n.val) } } e)
  ∧ (∀ (s : State) (n : Fin 64), 1 ≤ s.dev.loadState n → s.dev.loadState n ≤ 3 → Completes (.currentLimitEntry n) s fun e =>
        e.loadState n = 4 ∧ (e.load n).inRamp = decide (s.dev.loadState n ≤ 2)
        ∧ e.get (loadIx n) 0x16 = satAdd 32 (s.dev.get (loadIx n) 0x16) 1 ∧ (∀ m, m ≠ n.val → e.load m = s.dev.load m)
        ∧ KeepsObjs [(loadIx n, 0x10), (loadIx n, 0x16)] s.dev e ∧ e = { s.dev with objs := e.objs, loads := e.loads })
  ∧ (∀ (s : State) (n : Fin 64), s.dev.loadState n = 4 → Completes (.currentLimitExit n) s fun e =>
        e.loadState n = (if (s.dev.load n).inRamp = true then (if s.dev.bankLow n = true then 2 else 1) else 3)
        ∧ (e.load n).inRamp = false ∧ ((s.dev.load n).inRamp = true → (e.load n).reached = s.dev.get (loadIx n) 0x12) ∧ (∀ m, m ≠ n.val → e.load m = s.dev.load m)
        ∧ KeepsObjs [(loadIx n, 0x10)] s.dev e ∧ e = { s.dev with objs := e.objs, loads := e.loads })
  ∧ (∀ (s : State) (b : Fin 8), (s.dev.bankLow (8 * b) = false → Completes (.bankUndervoltageEntry b) s fun e =>
        (∀ i, i < 8 → e.bankLow (8 * b + i) = true ∧ e.loadState (8 * b + i) = if s.dev.loadState (8 * b + i) = 1 then 2 else s.dev.loadState (8 * b + i))
        ∧ (∀ n, n < 64 → n / 8 ≠ b.val → e.load n = s.dev.load n ∧ e.get (loadIx n) 0x10 = s.dev.get (loadIx n) 0x10)
        ∧ e.evPending 82 = (s.dev.evPending 82 || s.dev.ticking) ∧ e = { s.dev with objs := e.objs, loads := e.loads })
      ∧ (s.dev.bankLow (8 * b) = true → Completes (.bankUndervoltageExit b) s fun e =>
          (∀ i, i < 8 → e.bankLow (8 * b + i) = false ∧ e.loadState (8 * b + i) = if s.dev.loadState (8 * b + i) = 2 then 1 else s.dev.loadState (8 * b + i))
          ∧ (∀ n, n < 64 → n / 8 ≠ b.val → e.load n = s.dev.load n ∧ e.get (loadIx n) 0x10 = s.dev.get (loadIx n) 0x10)
          ∧ e.evPending 82 = (s.dev.evPending 82 || s.dev.ticking) ∧ e = { s.dev with objs := e.objs, loads := e.loads }))
  ∧ (∀ (s : State) (n : Fin 64) (x : Bool), s.dev.bitO (loadIx n) 1 2 = true → s.dev.loadState n = 0 →
      (s.dev.load n).phaseEnd + 16 ≤ (s.dev.load n).offTicks →
      Completes (.openLoadTestPhase n x) s fun e =>
        (e.load n).pullUp = !(s.dev.load n).pullUp ∧ (e.load n).phaseEnd = (s.dev.load n).offTicks
        ∧ ((s.dev.load n).pullUp = true → (e.load n).upRes = push 2 x (s.dev.load n).upRes ∧ (e.load n).downRes = (s.dev.load n).downRes)
        ∧ ((s.dev.load n).pullUp = false → (s.dev.load n).upRes = [true, true] → (s.dev.load n).downRes.head? = some x →
            e.bitO (loadIx n) 0x10 (if x = true then 5 else 4) = true)
        ∧ (∀ m, m ≠ n.val → e.load m = s.dev.load m) ∧ KeepsObjs [(loadIx n, 0x10), evObj 81] s.dev e
        ∧ e = { s.dev with objs := e.objs, loads := e.loads })
  ∧ (∀ (s : State) (n : Fin 64), s.dev.loadState n = 0 → Completes (.rampComplete n) s (fun e => e = s.dev)
      ∧ Completes (.thermalShutdown n) s (fun e => e = s.dev) ∧ Completes (.thermalRestart n) s (fun e => e = s.dev)
      ∧ Completes (.currentLimitEntry n) s (fun e => e = s.dev) ∧ Completes (.currentLimitExit n) s (fun e => e = s.dev))

/-- Admitted writes to a load channel, and the shedding of channels over the package budget (R404, R407, R410, R412, R413). -/
def Obligations.LoadCommandsAndBudget : Prop :=
  (∀ (s : State) (role : Role) (n : Fin 64),
      (Accepts s.dev role (loadIx n) 3 (.num 1) (loadRules s.dev role n 3 1) → s.dev.hold.active = false → s.dev.loadState n = 0 → s.dev.bankLow n = false →
        Completes (.loadChannelCommand role n 1) s fun e => e.get (loadIx n) 3 = 1 ∧ e.loadState n = 1 ∧ e.bitO (loadIx n) 0x10 3 = true
          ∧ (e.load n).on = true ∧ (e.load n).slew = s.dev.get (loadIx n) 2 ∧ e.status = 0 ∧ (∀ m, m ≠ n.val → e.load m = s.dev.load m)
          ∧ KeepsObjs [(loadIx n, 3), (loadIx n, 0x10)] s.dev e ∧ e = { s.dev with objs := e.objs, loads := e.loads, status := 0 })
      ∧ (Accepts s.dev role (loadIx n) 3 (.num 0) (loadRules s.dev role n 3 0) → s.dev.hold.active = false → Completes (.loadChannelCommand role n 0) s fun e =>
          e.get (loadIx n) 3 = 0 ∧ e.loadState n = (if 1 ≤ s.dev.loadState n ∧ s.dev.loadState n ≤ 4 then 0 else s.dev.loadState n)
          ∧ e.bitO (loadIx n) 0x10 3 = false ∧ (e.load n).on = false ∧ e.status = 0 ∧ (∀ m, m ≠ n.val → e.load m = s.dev.load m)
          ∧ KeepsObjs [(loadIx n, 3), (loadIx n, 0x10)] s.dev e ∧ e = { s.dev with objs := e.objs, loads := e.loads, status := 0 })
      ∧ (∀ v, Accepts s.dev role (loadIx n) 3 (.num v) (loadRules s.dev role n 3 v) → s.dev.hold.active = true →
          Completes (.loadChannelCommand role n v) s fun e => e.get (loadIx n) 3 = v ∧ e.status = 0 ∧ KeepsObjs [(loadIx n, 3)] s.dev e
            ∧ e = { s.dev with objs := e.objs, status := 0 }))
  ∧ (∀ (s : State) (role : Role) (n : Fin 64) (o : Nat) (v : Nat), Accepts s.dev role (loadIx n) 3 (.num v) {} → s.dev.owner n = some o →
      Completes (.loadChannelCommand role n v) s fun e => e = { s.dev with status := 8 })
  ∧ (∀ (s : State) (role : Role) (n : Fin 64) (sub v : Nat), Accepts s.dev role (loadIx n) sub (.num v) (loadRules s.dev role n sub v) →
      (sub = 2 → Completes (.loadChannelConfiguration role n sub v) s fun e => e.get (loadIx n) 2 = v ∧ e.status = 0
        ∧ KeepsObjs [(loadIx n, 2)] s.dev e ∧ e = { s.dev with objs := e.objs, status := 0 })
      ∧ (sub = 1 → s.dev.loadState n ≠ 5 → s.dev.hold.active = false → Completes (.loadChannelConfiguration role n sub v) s fun e => e.get (loadIx n) 1 = v ∧ e.status = 0
          ∧ (v.testBit 0 = false → e.get (loadIx n) 3 = 0 ∧ (e.load n).on = false
              ∧ e.loadState n = if 1 ≤ s.dev.loadState n ∧ s.dev.loadState n ≤ 4 then 0 else s.dev.loadState n)
          ∧ (v.testBit 0 = true → KeepsObjs [(loadIx n, 1)] s.dev e ∧ (s.dev.bitO (loadIx n) 1 2 = v.testBit 2 → e.loads = s.dev.loads))
          ∧ (s.dev.bitO (loadIx n) 1 2 ≠ v.testBit 2 → (e.load n).upRes = [] ∧ (e.load n).downRes = [] ∧ (e.load n).pullUp = true)
          ∧ KeepsObjs [(loadIx n, 1), (loadIx n, 3), (loadIx n, 0x10)] s.dev e ∧ e = { s.dev with objs := e.objs, loads := e.loads, status := 0 }))
  ∧ (∀ (s : State) (role : Role) (n : Fin 64), Accepts s.dev role (loadIx n) 0x17 (.num 1) (loadRules s.dev role n 0x17 1) →
      s.dev.loadState n = 6 → Completes (.loadClearLatch role n 1) s fun e => e.loadState n = 0 ∧ e.bitO (loadIx n) 0x10 7 = false
        ∧ e.bitO (loadIx n) 0x10 8 = false ∧ e.status = 0 ∧ (∀ m, m ≠ n.val → e.load m = s.dev.load m)
        ∧ KeepsObjs [(loadIx n, 0x10)] s.dev e ∧ e = { s.dev with objs := e.objs, loads := e.loads, status := 0 })
  ∧ (∀ (s : State) (n : Nat), s.dev.overBudget = true → 3200 ≤ s.dev.budget.since →
      (s.dev.shedNext = some n → n < 64 ∧ Completes .budgetShed s fun e => e.loadState n = 7 ∧ e.evPending 83 = (s.dev.evPending 83 || s.dev.ticking)
        ∧ e.budget = { s.dev.budget with order := n :: s.dev.budget.order, since := 0 }
        ∧ (∀ m, m < 64 → (∀ j, e.bitO (loadIx m) 0x32 j = if j = n then true else s.dev.bitO (loadIx 0) 0x32 j)
            ∧ e.get (loadIx m) 0x33 = satAdd 32 (s.dev.get (loadIx 0) 0x33) 1)
        ∧ (∀ m, m ≠ n → e.load m = s.dev.load m ∧ e.loadState m = s.dev.loadState m)
        ∧ e = { s.dev with objs := e.objs, loads := e.loads, budget := e.budget })
      ∧ (s.dev.shedNext = none → Completes .budgetShed s fun e => (∀ m, m < 64 → e.get (loadIx m) 0x34 = 1)
          ∧ KeepsObjs ((List.range 64).map fun m => (loadIx m, 0x34)) s.dev e ∧ OnlyObjs s.dev e))
  ∧ (∀ (s : State) (n : Nat) (rest : List Nat), s.dev.budget.order = n :: rest → n < 64 → 32000 ≤ s.dev.budget.under →
      3200 ≤ s.dev.budget.since → s.dev.loadState n = 7 → Completes .budgetRestore s fun e =>
        e.loadState n = (if (s.dev.load n).on = true then (if s.dev.bankLow n = true then 2 else 1) else 0) ∧ e.evPending 83 = (s.dev.evPending 83 || s.dev.ticking)
        ∧ e.budget = { s.dev.budget with order := rest, since := 0 } ∧ (∀ m, m ≠ n → e.load m = s.dev.load m)
        ∧ (∀ m, m < 64 → ∀ j, e.bitO (loadIx m) 0x32 j = if j = n then false else s.dev.bitO (loadIx 0) 0x32 j)
        ∧ e = { s.dev with objs := e.objs, loads := e.loads, budget := e.budget })

/-- The panels: the frame boundary, enabling and disabling a port, region updates, region definitions and waveform tables (R418, R423, R424,
R425, R429, R431, R432, R433, R435, R437). -/
def Obligations.PanelCommands : Prop :=
  (∀ (s : State) (p : Fin 2), s.dev.running = true → s.dev.pausing 1 = false → (s.dev.now + 1) % 128 = 127 →
      Completes (.frameBoundary p) s fun e =>
        e.get (dispIx p) 9 = (s.dev.get (dispIx p) 9 + 1) % 2 ^ 32
        ∧ e.bitO (dispIx p) 8 4 = decide ((s.dev.now + 2) / 128 % 2 = 0)
        ∧ (e.disp p).tables = [] ∧ (e.disp p).active = s.dev.bitO (dispIx p) 1 0
        ∧ (e.disp p).staged = (if (s.dev.disp p).cut = true ∨ ((s.dev.disp p).active = true ∧ s.dev.bitO (dispIx p) 1 0 = false) then []
            else (s.dev.disp p).staged.filter fun x => decide (s.dev.now + 1 < x.at'))
        ∧ e.get (dispIx p) 0xE = (e.disp p).stagedBytes
        ∧ (s.dev.pausing 3 = false → e.get (dispIx p) 0xA = imageCrc (e.disp p).image ∧ e.get (dispIx p) 0xB = imageCrc (e.disp p).copy)
        ∧ (∀ q, q ≠ p.val → e.disp q = s.dev.disp q)
        ∧ KeepsObjs (((List.range 8).map fun j => (dispIx p, j + 7)) ++ ((List.range 16).map fun j => (0x7408 + p.val, j + 0x21))
            ++ [evObj 23, evObj 88, evObj 89, evObj 90] ++ eventObjs ++ skeinObjs) s.dev e
        ∧ (e.disp p).cut = false ∧ (∀ b, e.waveTable p b = s.dev.getB (0x7410 + 8 * p + b) 0)
        ∧ KeepsBlobs [] s.dev e ∧ e = { s.dev with objs := e.objs, blobs := e.blobs, log := e.log, vcs := e.vcs, disps := e.disps })
  ∧ (∀ (s : State) (p : Fin 2), s.dev.running = false ∨ (s.dev.now + 1) % 128 ≠ 127 → Completes (.frameBoundary p) s fun e => e = s.dev)
  ∧ (∀ (s : State) (role : Role) (p : Fin 2),
      (Accepts s.dev role (dispIx p) 1 (.num 0) (portRules s.dev (s.dev.set (dispIx p) 1 0) p 1 0) → Completes (.portDisable role p) s fun e =>
        e.get (dispIx p) 1 = 0 ∧ e.status = 0 ∧ KeepsObjs [(dispIx p, 1)] s.dev e
        ∧ e.disp p = { s.dev.disp p with cut := (s.dev.disp p).cut || s.dev.bitO (dispIx p) 1 0 } ∧ (∀ q, q ≠ p.val → e.disp q = s.dev.disp q)
        ∧ e = { s.dev with objs := e.objs, disps := e.disps, status := 0 })
      ∧ (Accepts s.dev role (dispIx p) 1 (.num 1) (portRules s.dev (s.dev.set (dispIx p) 1 1) p 1 1) → Completes (.portEnable role p) s fun e =>
          e.get (dispIx p) 1 = 1 ∧ e.status = 0 ∧ KeepsObjs [(dispIx p, 1)] s.dev e ∧ e = { s.dev with objs := e.objs, status := 0 }))
  ∧ (∀ (s : State) (role : Role) (p : Fin 2) (r : Fin 16) (v : Bytes),
      Accepts s.dev role (0x7420 + p) (r + 1) (.raw v) (updateRules s.dev (s.dev.setB (0x7420 + p) (r + 1) v) p r v) → Completes (.regionUpdate role p r v) s fun e =>
        e.disp p = { s.dev.disp p with
            staged := (s.dev.disp p).staged ++ [{ region := r, defn := s.dev.region p r, data := v, at' := s.dev.now + 1 }] }
        ∧ (s.dev.disp p).stagedBytes + v.length ≤ 8192 ∧ e.get (dispIx p) 0xE = (s.dev.disp p).stagedBytes + v.length
        ∧ SetsBit (0x7408 + p) (r + 0x21) 0 true s.dev e ∧ e.status = 0 ∧ (∀ q, q ≠ p.val → e.disp q = s.dev.disp q)
        ∧ KeepsObjs [(dispIx p, 0xE), (0x7408 + p.val, r.val + 0x21)] s.dev e ∧ e = { s.dev with objs := e.objs, disps := e.disps, status := 0 })
  ∧ (∀ (s : State) (role : Role) (p : Fin 2) (b : Fin 6) (v : Bytes),
      Accepts s.dev role (0x7410 + 8 * p + b) 0 (.raw v) (waveRules s.dev v true) → Completes (.waveformTableWrite role p b v) s fun e =>
        e.waveTable p b = s.dev.waveTable p b ∧ e.getB (0x7410 + 8 * p + b) 0 = v ∧ KeepsBlobs [(0x7410 + 8 * p.val + b.val, 0)] s.dev e
        ∧ e.status = 0
        ∧ e.disp p = { s.dev.disp p with tables := (e.disp p).tables } ∧ (∀ q, q ≠ p.val → e.disp q = s.dev.disp q)
        ∧ e.get 0x2400 1 = (s.dev.get 0x2400 1 + 1) % 2 ^ 32 ∧ KeepsObjs skeinObjs s.dev e
        ∧ OnlyLogged { s.dev with blobs := e.blobs, disps := e.disps, status := 0 } e)
  ∧ (∀ (s : State) (role : Role) (p : Fin 2) (sub v : Nat), Accepts s.dev role (0x7408 + p) sub (.num v) (regionRules s.dev (s.dev.set (0x7408 + p) sub v) role p sub v) →
      Completes (.regionDefinitionWrite role p sub v) s fun e => e.get (0x7408 + p) sub = v ∧ e.status = 0
        ∧ e.disp p = { s.dev.disp p with shown := (s.dev.disp p).shown.map fun x => if x.1 = (sub - 1) % 16 then (x.1, (none, x.2.2)) else x }
        ∧ (∀ q, q ≠ p.val → e.disp q = s.dev.disp q) ∧ KeepsObjs [(0x7408 + p.val, sub)] s.dev e
        ∧ e = { s.dev with objs := e.objs, disps := e.disps, status := 0 })

/-- The lanes: their states, writes to them, pending maps and their activation, received blocks, and what a lane begins to send (R445, R449,
R450, R453, R456, R457, R459, R463, R465). -/
def Obligations.TwistLanes : Prop :=
  (∀ (s : State) (l : Fin 3), s.dev.running = true → Completes (.laneStateChange l) s fun e =>
        e.laneState l = s.dev.laneTarget l ∧ (s.dev.laneTarget l = s.dev.laneState l → e = s.dev)
        ∧ (s.dev.laneTarget l ≠ s.dev.laneState l → e.evPending 96 = true)
        ∧ (s.dev.laneState l = 2 → s.dev.laneTarget l ≠ 2 → (e.lane l).txBits = [] ∧ (e.lane l).rx = none ∧ (e.lane l).bulkRx = none)
        ∧ (∀ k, k ≠ l.val → e.lane k = s.dev.lane k) ∧ KeepsObjs [(laneIx l, 0x10), (laneIx l, 0x16), evObj 96, evObj 99] s.dev e
        ∧ e = { s.dev with objs := e.objs, lanes := e.lanes })
  ∧ (∀ (s : State) (role : Role) (l : Fin 3) (sub v : Nat), Accepts s.dev role (laneIx l) sub (.num v) {} →
      Completes (.laneWrite role l sub v) s fun e => e.get (laneIx l) sub = v ∧ e.status = 0
        ∧ e.laneState l = (if sub = 1 then (if v = 0 then 0 else if s.dev.laneState l = 0 then 1 else s.dev.laneState l)
            else if (sub = 2 ∨ sub = 3) ∧ s.dev.laneState l ≠ 0 then 1 else s.dev.laneState l)
        ∧ (∀ k, k ≠ l.val → e.lane k = s.dev.lane k) ∧ KeepsObjs [(laneIx l, sub), (laneIx l, 0x10), (laneIx l, 0x16), evObj 96, evObj 99] s.dev e
        ∧ e = { s.dev with objs := e.objs, lanes := e.lanes, status := 0 })
  ∧ (∀ (s : State) (role : Role) (w : Fin 6) (v : Bytes), Accepts s.dev role (0x7818 + w) 0 (.raw v) (mapRules s.dev w v) →
      Completes (.pendingMapWrite role w v) s fun e => e.getB (0x7818 + w) 0 = v ∧ e.status = 0
        ∧ e.get 0x2400 1 = (s.dev.get 0x2400 1 + 1) % 2 ^ 32 ∧ (∀ l, l < 3 → SetsBit (laneIx l) 0x10 6 e.mapsPending s.dev e)
        ∧ KeepsObjs (((List.range 3).map fun l => (laneIx l, 0x10)) ++ skeinObjs) s.dev e ∧ KeepsBlobs [(0x7818 + w.val, 0)] s.dev e
        ∧ OnlyLogged { s.dev with blobs := e.blobs, status := 0 } e)
  ∧ (∀ s : State, s.dev.running = true → s.dev.mapsPending = true → s.dev.civil.valid = true → (∃ l, l < 3 ∧ s.dev.activates l = true) →
      Completes .mapActivation s fun e =>
        (∀ w, w < 6 → e.getB (0x7810 + w) 0 = s.dev.getB (0x7818 + w) 0) ∧ e.get 0x7820 2 = satAdd 32 (s.dev.get 0x7820 2) 1
        ∧ e.evPending 97 = true ∧ (∀ l, l < 3 → SetsBit (laneIx l) 0x10 6 false s.dev e)
        ∧ KeepsObjs (((List.range 3).map fun l => (laneIx l, 0x10)) ++ [(0x7820, 2), evObj 97]) s.dev e
        ∧ KeepsBlobs ((List.range 6).map fun w => (0x7810 + w, 0)) s.dev e ∧ e = { s.dev with objs := e.objs, blobs := e.blobs })
  ∧ (∀ (s : State) (l : Fin 3) (x : BulkRx) (rest : List BulkRx), s.dev.running = true → (s.dev.lane l).bulkDone = x :: rest →
      (x.rows = [] ∨ (∃ r ∈ x.rows, rsBytes 32 r x.erased = none) → Completes (.bulkBlock l x.rows (List.replicate x.height x.erased)) s fun e =>
        e.get (laneIx l) 0x15 = satAdd 32 (s.dev.get (laneIx l) 0x15) 1
        ∧ e.lane l = { s.dev.lane l with bulkDone := rest, blockSeq := none, part := [] }
        ∧ (∀ k, k ≠ l.val → e.lane k = s.dev.lane k) ∧ KeepsObjs [(laneIx l, 0x15)] s.dev e ∧ e = { s.dev with objs := e.objs, lanes := e.lanes })
      ∧ (x.rows ≠ [] → (∀ r ∈ x.rows, (rsBytes 32 r x.erased).isSome = true) →
          Completes (.bulkBlock l x.rows (List.replicate x.height x.erased)) s fun e =>
            (e.lane l).bulkDone = rest ∧ e.get (laneIx l) 0x14 = satAdd 32 (s.dev.get (laneIx l) 0x14) 1 ∧ (e.lane l).ready.take (s.dev.lane l).ready.length = (s.dev.lane l).ready
            ∧ (e.lane l).blockErrs.length = (s.dev.lane l).blockErrs.length + 1 ∧ (∀ k, k ≠ l.val → e.lane k = s.dev.lane k)
            ∧ KeepsObjs [(laneIx l, 0x14), (laneIx l, 0x17), (laneIx l, 0x18)] s.dev e ∧ e = { s.dev with objs := e.objs, lanes := e.lanes }))
  ∧ (∀ (s : State) (l : Fin 3) (x : CtlTx), s.dev.mayTransmit l = true → (s.dev.lane l).txBits = [] → (s.dev.lane l).flight = none →
      (s.dev.lane l).controlFree = true → s.dev.mesh.queue = [] → (s.dev.lane l).ctlQ = [x] → x.wait = 0 → x.prio ≤ 4 → x.own = false → x.tag = none →
      Completes (.controlFrameTransmit l) s fun e => (e.lane l).flight = some { x with tries := x.tries + 1 } ∧ (e.lane l).ctlQ = []
        ∧ (e.lane l).txBits = controlBits x.data ∧ (e.lane l).txBits.length = 480 ∧ SetsBit (laneIx l) 0x10 2 true s.dev e
        ∧ (∀ k, k ≠ l.val → e.lane k = s.dev.lane k) ∧ KeepsObjs ((laneIx l, 0x10) :: meshObjs) s.dev e
        ∧ e = { s.dev with objs := e.objs, lanes := e.lanes })
  ∧ (∀ (s : State) (l : Fin 3) (x : BulkTx), s.dev.mayTransmit l = true → (s.dev.lane l).burst = [x] → x.own = false → x.tag = none → x.prio ≠ 4 →
      (s.dev.lane l).burstWait = 0 → (s.dev.lane l).txBulk = [] → (s.dev.lane l).bulkFree = true → 8 ≤ classBits (s.dev.map l 0) true →
      Completes (.bulkBurstTransmit l) s fun e => (e.lane l).burst = [] ∧ (e.lane l).bulkQ = (s.dev.lane l).bulkQ
        ∧ (e.lane l).txBulk = ((burstBlocks (x.frame.length + 1) (223 * (classBits (s.dev.map l 0) true / 8)) 0 x.frame [0]).flatMap
            (blockWindows (classBits (s.dev.map l 0) true / 8)))
        ∧ (e.lane l).txBulk.length % 256 = 0 ∧ SetsBit (laneIx l) 0x10 2 true s.dev e ∧ (∀ k, k ≠ l.val → e.lane k = s.dev.lane k)
        ∧ KeepsObjs ((laneIx l, 0x10) :: meshObjs) s.dev e ∧ e = { s.dev with objs := e.objs, lanes := e.lanes })

/-- The mesh at a node: beacons, joining, its parent, keep-alives, acknowledgements, downward entries and map distributions (R466, R470,
R471, R472, R473, R474, R478, R482, R484). -/
def Obligations.MeshNode : Prop :=
  (∀ (s : State) (l : Fin 3) (f : MeshFrame), s.dev.running = true → f.ty = 0x10 → s.dev.meshRole ≠ 0 → f.ack = false →
      leAt f.payload 0 2 = s.dev.get 0x7A00 2 → Completes (.beacon l f) s fun e =>
        ((tfind e.mesh.nbrs (nbrKey l f.hopSrc)).map fun n => (n.pathCost, n.hop, n.relays, n.joins, n.heardAt))
          = some (leAt f.payload 4 2, byteAt f.payload 2, (byteAt f.payload 3).testBit 1, (byteAt f.payload 3).testBit 0, s.dev.now)
        ∧ (∀ k, k ≠ nbrKey l f.hopSrc → tfind e.mesh.nbrs k = tfind s.dev.mesh.nbrs k) ∧ e.mesh.collector = leAt f.payload 16 8
        ∧ e.mesh.table = s.dev.mesh.table ∧ e.mesh.queue = s.dev.mesh.queue ∧ KeepsObjs ([(0x7A00, 0x12), (0x7A00, 0x13)] ++ meshObjs) s.dev e
        ∧ e = { s.dev with objs := e.objs, mesh := e.mesh, lanes := e.lanes, freeIdx := e.freeIdx })
  ∧ (∀ (s : State) (l : Fin 3) (f : MeshFrame), s.dev.running = true → f.ty = 0x12 → s.dev.meshRole = 1 → f.ack = false →
      thas s.dev.mesh.nbrs (nbrKey l f.hopSrc) = true → f.hopDst = meshNew → leAt f.payload 0 8 = s.dev.longIdent →
      Completes (.joinAccept l f) s fun e => e.meshAddr = leAt f.payload 8 3 % 2 ^ 18 ∧ e.get 0x7A00 0x12 = min 8 (byteAt f.payload 11)
        ∧ KeepsObjs ([(0x7A00, 0x10), (0x7A00, 0x12), (0x7A00, 0x13)] ++ meshObjs) s.dev e
        ∧ e = { s.dev with objs := e.objs, mesh := { s.dev.mesh with
                  joined := true, joinAt := none, path := leAt f.payload 12 16, parent := some (l.val, f.hopSrc) } })
  ∧ (∀ (s : State) (t : Nat), s.dev.mesh.joinAt = some t → s.dev.mesh.joined = false → t + 3 * s.dev.beaconTicks ≤ s.dev.now →
      Completes .joinTimeout s (OnlyMesh { s.dev.mesh with joinAt := none, parent := none, listen := s.dev.now } s.dev))
  ∧ (∀ (s : State) (k c : Nat) (n : NbrRec), s.dev.running = true → s.dev.meshRole = 1 → s.dev.mesh.joined = true → s.dev.mesh.parent = none →
      bestParent s.dev.parents = some (k, n, c) → s.dev.mesh.down = [] → Completes .parentChange s fun e =>
        e.mesh.parent = some (k / 2 ^ 18, k % 2 ^ 18) ∧ e.get 0x7A00 0x13 = min 65535 c ∧ e.get 0x7A00 0x12 = min 8 (n.hop + 1)
        ∧ KeepsObjs ([(0x7A00, 0x12), (0x7A00, 0x13)] ++ meshObjs) s.dev e ∧ e = { s.dev with objs := e.objs, mesh := e.mesh })
  ∧ (∀ (s : State) (l a : Nat), s.dev.running = true → s.dev.meshRole = 1 → s.dev.mesh.joined = true → s.dev.mesh.parent = some (l, a) →
      s.dev.mesh.keepAt ≠ s.dev.now / max 1 s.dev.keepTicks + 1 → Completes .keepAliveTransmit s fun e =>
        ((e.lane l).ctlQ.getLast?.map fun x => (x.data, x.own, x.tag)) = some (controlData
          { ty := 0x13, hopSrc := s.dev.meshAddr, hopDst := a, far := s.dev.meshAddr, up := true, ack := true,
            payload := natLE 2 (s.dev.get 0x7A00 0x13) ++ natLE 1 (s.dev.get 0x7A00 0x12) ++ natLE 16 s.dev.mesh.path ++ zeros 13 }, true, none)
        ∧ (e.lane l).ctlQ.length = (s.dev.lane l).ctlQ.length + 1 ∧ (∀ k, k ≠ l → e.lane k = s.dev.lane k) ∧ e.freeIdx = s.dev.freeIdx + 1
        ∧ e.mesh = { s.dev.mesh with keepDue := false, keepAt := s.dev.now / max 1 s.dev.keepTicks + 1 } ∧ KeepsObjs meshObjs s.dev e
        ∧ e = { s.dev with objs := e.objs, mesh := e.mesh, lanes := e.lanes, freeIdx := e.freeIdx })
  ∧ (∀ (s : State) (l : Fin 3) (f : MeshFrame), s.dev.running = true → f.ty = 0x15 → s.dev.meshRole ≠ 0 → f.ack = false →
      thas s.dev.mesh.nbrs (nbrKey l f.hopSrc) = true → f.hopDst = s.dev.meshAddr → Completes (.acknowledgement l f) s fun e =>
        e.lane l = { s.dev.lane l with await := (s.dev.lane l).await.filter fun x => crc16 x.data != leAt f.payload 0 2 }
        ∧ (∀ k, k ≠ l.val → e.lane k = s.dev.lane k) ∧ KeepsObjs meshObjs s.dev e ∧ e = { s.dev with objs := e.objs, lanes := e.lanes })
  ∧ (∀ (s : State) (x : CtlTx), (s.dev.lane 0).await = [x] → (s.dev.lane 1).await = [] → (s.dev.lane 2).await = [] → 100 ≤ x.since →
      (x.tries < 3 → Completes .acknowledgementTimeout s fun e => (e.lane 0).await = [] ∧ (e.lane 0).ctlQ = (s.dev.lane 0).ctlQ ++
          [{ x with wait := if s.dev.meshRole = 2 ∧ x.prio = 0 then 0 else Config.free s.dev.freeIdx % 2 ^ min 6 (2 + x.tries), since := 0 }] ∧ e.freeIdx = s.dev.freeIdx + 1
        ∧ (∀ k, k ≠ 0 → e.lane k = s.dev.lane k) ∧ KeepsObjs meshObjs s.dev e ∧ e = { s.dev with objs := e.objs, lanes := e.lanes, freeIdx := e.freeIdx })
      ∧ (3 ≤ x.tries → x.tag = none → Completes .acknowledgementTimeout s fun e => e.lane 0 = { s.dev.lane 0 with await := [] }
          ∧ (∀ k, k ≠ 0 → e.lane k = s.dev.lane k) ∧ KeepsObjs meshObjs s.dev e ∧ e = { s.dev with objs := e.objs, lanes := e.lanes }))
  ∧ (∀ (s : State) (dst : Nat) (r : DownRec), tfind s.dev.mesh.down dst = some r → r.at' + 4 * s.dev.keepTicks ≤ s.dev.now →
      Completes (.downwardEntryExpiry dst) s (OnlyMesh { s.dev.mesh with down := tdel s.dev.mesh.down dst } s.dev))
  ∧ (∀ (s : State) (l : Fin 3) (f : MeshFrame), s.dev.running = true → f.ty = 0x17 → s.dev.meshRole = 1 → s.dev.mesh.joined = true →
      f.ack = false → thas s.dev.mesh.nbrs (nbrKey l f.hopSrc) = true →
      (s.dev.mesh.floods.contains f.far = true → Completes (.mapDistribution l f) s (OnlyMesh s.dev.mesh s.dev))
      ∧ (s.dev.mesh.floods.contains f.far = false → f.payload.length = 200 →
          (∀ w, w < 6 → mapOk (sliceB f.payload (8 + 32 * w) 32) (sliceB f.payload (8 + 32 * (if w % 2 = 0 then w + 1 else w - 1)) 32) = true) →
          Completes (.mapDistribution l f) s fun e => (∀ w, w < 6 → e.getB (0x7818 + w) 0 = sliceB f.payload (8 + 32 * w) 32)
            ∧ e.get 0x7820 1 = leAt f.payload 0 8 ∧ e.mesh.floods = push 1024 f.far s.dev.mesh.floods
            ∧ e.get 0x7A00 0x16 = satAdd 32 (s.dev.get 0x7A00 0x16) 1 ∧ e.get 0x2400 1 = (s.dev.get 0x2400 1 + 7) % 2 ^ 32
            ∧ KeepsObjs ([(0x7820, 1), (0x7A00, 0x16)] ++ ((List.range 3).map fun k => (laneIx k, 0x10)) ++ skeinObjs ++ meshObjs) s.dev e
            ∧ KeepsBlobs ((List.range 6).map fun w => (0x7818 + w, 0)) s.dev e ∧ e = { s.dev with
                objs := e.objs, blobs := e.blobs, log := e.log, vcs := e.vcs, mesh := e.mesh, lanes := e.lanes, freeIdx := e.freeIdx }))
  ∧ (∀ (s : State) (role : Role) (sub : Fin 2) (v : Nat), Accepts s.dev role 0x7A00 (sub + 1) (.num v) {} →
      Completes (.meshRoleWrite role sub v) s fun e => e.get 0x7A00 (sub + 1) = v ∧ e.status = 0 ∧ e.mesh.nbrs = [] ∧ e.mesh.joined = false
        ∧ e.mesh.parent = none ∧ e.mesh.queue = [] ∧ e.mesh.down = [] ∧ (∀ x ∈ e.mesh.table, x.2.state = 0)
        ∧ e.mesh.table.length = s.dev.mesh.table.length
        ∧ (∀ l, l < 3 → (e.lane l).ctlQ = [] ∧ (e.lane l).await = [] ∧ (e.lane l).bulkQ = [] ∧ (e.lane l).burst = [] ∧ (e.lane l).txBits = [])
        ∧ e.meshAddr = (if e.meshRole = 2 then 0 else meshNew) ∧ e.get 0x7A00 0x12 = 0 ∧ e.get 0x7A00 0x13 = 0 ∧ e.blobs = s.dev.blobs
        ∧ e = { s.dev with objs := e.objs, mesh := e.mesh, lanes := e.lanes, status := 0 })

/-- The mesh at the collector: beacons, join requests, frames of endpoints, unreachable ones, the listing and the end of a rebuild (R470,
R471, R472, R477, R478, R485, R486). -/
def Obligations.MeshCollector : Prop :=
  (∀ s : State, s.dev.running = true → s.dev.meshRole = 2 → s.dev.mapsPending = false →
      s.dev.mesh.beaconAt ≠ s.dev.now / max 1 s.dev.beaconTicks + 1 → Completes .beaconTransmit s fun e =>
        let f : MeshFrame := ⟨0x10, s.dev.meshAddr, meshAll, s.dev.meshAddr, false, false, s.dev.beaconPayload⟩
        (∀ l, l < 3 → if s.dev.laneState l = 2 then (e.lane l).ctlQ.length = (s.dev.lane l).ctlQ.length + 1
            ∧ ((e.lane l).ctlQ.getLast?.map fun x => (x.data, x.own)) = some (controlData f, true) else e.lane l = s.dev.lane l)
        ∧ e.mesh = { s.dev.mesh with beaconSeq := (s.dev.mesh.beaconSeq + 1) % 65536, beaconAt := s.dev.now / max 1 s.dev.beaconTicks + 1 }
        ∧ e.freeIdx = s.dev.freeIdx + s.dev.runningLanes.length ∧ KeepsObjs meshObjs s.dev e
        ∧ e = { s.dev with objs := e.objs, mesh := e.mesh, lanes := e.lanes, freeIdx := e.freeIdx })
  ∧ (∀ (s : State) (l : Fin 3) (f : MeshFrame) (a : Nat) (r : EndRec), s.dev.running = true → f.ty = 0x11 → s.dev.meshRole = 2 →
      f.ack = false → f.up = true → f.hopSrc = meshNew → f.hopDst = s.dev.meshAddr →
      s.dev.mesh.table.find? (fun x => x.2.ident == leAt f.payload 0 8) = some (a, r) → s.dev.joinOk a f.payload = true →
      Completes (.joinRequest l f) s fun e =>
        tfind e.mesh.table a = some { r with
            state := 1, hops := byteAt f.payload 11, lane := l, first := a, cost := leAt f.payload 9 2, failed := 0
            path := leAt f.payload 12 16, heard := s.dev.now, capacity := byteAt f.payload 8 }
        ∧ (∀ b, b ≠ a → tfind e.mesh.table b = tfind s.dev.mesh.table b)
        ∧ ((e.lane l).ctlQ.getLast?.map fun x => (x.data.take 1, sliceB x.data 8 11)) = some ([0x12], natLE 8 r.ident ++ natLE 3 a)
        ∧ (∀ k, k ≠ l.val → e.lane k = s.dev.lane k) ∧ KeepsObjs meshObjs s.dev e
        ∧ e = { s.dev with objs := e.objs, mesh := { s.dev.mesh with table := e.mesh.table }, lanes := e.lanes, freeIdx := s.dev.freeIdx + 1 })
  ∧ (∀ (s : State) (l : Fin 3) (f : MeshFrame) (r : EndRec), s.dev.running = true → s.dev.meshRole = 2 → f.ack = false → f.up = true →
      thas s.dev.mesh.nbrs (nbrKey l f.hopSrc) = true → f.hopDst = s.dev.meshAddr → tfind s.dev.mesh.table f.far = some r →
      s.dev.mesh.rebuild = none →
      let heard := { r with state := 1, lane := l.val, first := f.hopSrc, heard := s.dev.now, failed := 0 }
      let alive := { heard with cost := leAt f.payload 0 2, hops := byteAt f.payload 2, path := leAt f.payload 3 16 }
      (f.ty = 0x13 → Completes (.keepAlive l f) s (OnlyMesh { s.dev.mesh with table := tset s.dev.mesh.table f.far alive } s.dev))
      ∧ (f.ty = 0x14 → Completes (.subtreeRefresh l f) s fun e => tfind e.mesh.table f.far = some heard
          ∧ (∀ a x, a ≠ f.far → tfind s.dev.mesh.table a = some x →
              tfind e.mesh.table a = some (if a ∈ subtreeList f.payload then { x with first := f.hopSrc, lane := l.val } else x))
          ∧ OnlyMesh { s.dev.mesh with table := e.mesh.table } s.dev e)
      ∧ (f.ty = 0x16 → Completes (.routeError l f) s fun e => e.get 0x7A00 0x17 = satAdd 32 (s.dev.get 0x7A00 0x17) 1
          ∧ e.mesh = { s.dev.mesh with table := tset s.dev.mesh.table f.far heard }
          ∧ KeepsObjs ((0x7A00, 0x17) :: meshObjs) s.dev e ∧ e = { s.dev with objs := e.objs, mesh := e.mesh }))
  ∧ (∀ (s : State) (a : Nat) (r : EndRec), s.dev.meshRole = 2 → tfind s.dev.mesh.table a = some r → r.state = 1 →
      r.heard + 4 * s.dev.keepTicks ≤ s.dev.now → Completes (.endpointUnreachable a) s
        (OnlyMesh { s.dev.mesh with table := tset s.dev.mesh.table a { r with state := 2 } } s.dev))
  ∧ (∀ (s : State) (role : Role) (v : Bytes), Accepts s.dev role 0x7A20 1 (.raw v) (listRules s.dev v) →
      let a := leAt v 8 4 % 2 ^ 18
      Completes (.listingEntry role v) s fun e => e.status = 0
        ∧ ((byteAt v 13).testBit 1 = false →
            tfind e.mesh.table a = some { (tget {} s.dev.mesh.table a) with ident := leAt v 0 8, groups := byteAt v 12, gateway := (byteAt v 13).testBit 0 }
            ∧ ∀ b, b ≠ a → tfind e.mesh.table b = tfind s.dev.mesh.table b)
        ∧ ((byteAt v 13).testBit 1 = true → e.mesh.table = s.dev.mesh.table.filter fun x => !(x.1 == a && x.2.ident == leAt v 0 8))
        ∧ e.get 0x7A00 0x18 = e.mesh.table.length ∧ OnlyMesh { s.dev.mesh with table := e.mesh.table } { s.dev with status := 0 } e)
  ∧ (∀ (s : State) (t : Nat), s.dev.mesh.rebuild = some t → t + 19200000 ≤ s.dev.now →
      Completes .rebuildEnd s (OnlyMesh { s.dev.mesh with rebuild := none } s.dev))

/-- The collector's queue, read jobs, bursts, and what received control and bulk frames bring the part (R455, R458, R475, R478, R480, R481,
R482). -/
def Obligations.MeshQueue : Prop :=
  (∀ (s : State) (role : Role) (j : Fin 16) (v : Bytes), Accepts s.dev role (0x7A30 + j) 1 (.raw v) (jobRules (s.dev.setB (0x7A30 + j) 1 v) j v) →
      Completes (.readJobWrite role j v) s fun e => e.getB (0x7A30 + j) 1 = v ∧ e.status = 0
        ∧ KeepsObjs [(0x7A00, 0x1B), (0x7A00, 0x1C), (0x7A00, 0x1D)] s.dev e ∧ KeepsBlobs [(0x7A30 + j.val, 1)] s.dev e
        ∧ e.mesh = { s.dev.mesh with cycles := tdel s.dev.mesh.cycles j }
        ∧ e = { s.dev with objs := e.objs, blobs := e.blobs, mesh := e.mesh, status := 0 })
  ∧ (∀ (s : State) (j : Fin 16),
      let b := s.dev.getB (0x7A30 + j) 1
      s.dev.running = true → s.dev.meshRole = 2 → leAt b 8 4 ≠ 0 → s.dev.civil.valid = true → leAt b 12 8 ≤ s.dev.utc →
      tget 0 s.dev.mesh.cycles j ≠ (s.dev.utc - leAt b 12 8) / leAt b 8 4 + 1 → s.dev.mesh.queue = [] → Completes (.readJobCycle j) s fun e =>
        e.mesh.queue.map (fun x => x.target) = (s.dev.inGroups (byteAt b 4)).map Prod.fst
        ∧ (∀ x ∈ e.mesh.queue, x.job = some j.val ∧ x.kind = 0 ∧ x.prio = 3 ∧ x.bulk = decide (byteAt b 3 = 1) ∧ x.retries = byteAt b 5)
        ∧ tget 0 e.mesh.cycles j = (s.dev.utc - leAt b 12 8) / leAt b 8 4 + 1 ∧ e.get (0x7A30 + j) 3 = 0 ∧ e.get (0x7A30 + j) 4 = 0
        ∧ KeepsObjs ([(0x7A30 + j.val, 2), (0x7A30 + j.val, 3), (0x7A30 + j.val, 4), (0x7A00, 0x1B), (0x7A00, 0x1C), (0x7A00, 0x1D)] ++ meshObjs) s.dev e
        ∧ e = { s.dev with objs := e.objs, mesh := e.mesh })
  ∧ (∀ (s : State) (tag : Nat) (p : Bytes), s.dev.running = true → byteAt p 0 = 0 → byteAt p 4 ≤ 2 → byteAt p 5 ≤ 1 →
      let a := leAt p 1 3 % 2 ^ 18
      (s.dev.meshRole = 2 → (tget {} s.dev.mesh.table a).state = 1 → (s.dev.mesh.queue.filter fun y => y.job.isNone).length < 512 →
        Completes (.meshSubmission tag p) s (OnlyMesh { s.dev.mesh with queue := s.dev.mesh.queue ++
          [{ tag := tag, job := none, kind := 0, target := a, prio := if byteAt p 5 = 1 ∧ holdsPieces (p.drop 16) = true then 4 else byteAt p 4,
             bulk := byteAt p 5 == 1, deadline := leAt p 8 8, frame := p.drop 16, sent := false, retries := Config.submissionRetries, placed := false,
             piece := byteAt p 5 == 1 && holdsPieces (p.drop 16), lane := 0, since := 0 }] } s.dev))
      ∧ (s.dev.meshRole ≠ 2 ∨ (tget {} s.dev.mesh.table a).state ≠ 1 → s.dev.get 0x261D 1 = 1 → Completes (.meshSubmission tag p) s fun e =>
          (tget {} e.vcs 5).out = (tget {} s.dev.vcs 5).out ++ [⟨0x51, tag, natLE 1 2 ++ natLE 3 a ++ zeros 4⟩]
          ∧ e.mesh = s.dev.mesh ∧ KeepsObjs meshObjs s.dev e ∧ e = { s.dev with objs := e.objs, vcs := e.vcs })
      ∧ (s.dev.meshRole = 2 → (tget {} s.dev.mesh.table a).state = 1 → 512 ≤ (s.dev.mesh.queue.filter fun y => y.job.isNone).length →
          s.dev.get 0x261D 1 = 1 → Completes (.meshSubmission tag p) s fun e =>
            (tget {} e.vcs 5).out = (tget {} s.dev.vcs 5).out ++ [⟨0x51, tag, natLE 1 5 ++ natLE 3 a ++ zeros 4⟩]
            ∧ e.mesh = { s.dev.mesh with queueFull := true } ∧ KeepsObjs meshObjs s.dev e
            ∧ e = { s.dev with objs := e.objs, vcs := e.vcs, mesh := e.mesh }))
  ∧ (∀ (s : State) (x : SubmRec), s.dev.mesh.queue = [x] → x.job = none → x.sent = false → x.deadline < s.dev.now → s.dev.get 0x261D 1 = 1 →
      Completes (.submissionDeadline x.tag) s fun e => e.mesh = { s.dev.mesh with queue := [] }
        ∧ (tget {} e.vcs 5).out = (tget {} s.dev.vcs 5).out ++ [⟨0x51, x.tag, natLE 1 4 ++ natLE 3 x.target ++ zeros 4⟩]
        ∧ (∀ l, l < 3 → e.lane l = { s.dev.lane l with
            ctlQ := (s.dev.lane l).ctlQ.filter fun y => y.tag != some x.tag, bulkQ := (s.dev.lane l).bulkQ.filter fun y => y.tag != some x.tag
            burst := (s.dev.lane l).burst.filter fun y => y.tag != some x.tag }) ∧ KeepsObjs meshObjs s.dev e
        ∧ e = { s.dev with objs := e.objs, vcs := e.vcs, mesh := e.mesh, lanes := e.lanes })
  ∧ (∀ (s : State) (l : Fin 3), s.dev.running = true → s.dev.mesh.queue = [] → (s.dev.lane l).burst = [] → 8 ≤ (s.dev.lane l).bulkQ.length →
      Completes (.bulkQueueFlush l) s fun e => (e.lane l).bulkQ = [] ∧ (e.lane l).burst.length = (s.dev.lane l).bulkQ.length
        ∧ (∀ x, x ∈ (e.lane l).burst ↔ x ∈ (s.dev.lane l).bulkQ) ∧ (e.lane l).burst.Pairwise (fun x y => x.prio ≤ y.prio)
        ∧ (e.lane l).burstWait = Config.free s.dev.freeIdx % 16 ∧ e.freeIdx = s.dev.freeIdx + 1 ∧ (∀ k, k ≠ l.val → e.lane k = s.dev.lane k)
        ∧ KeepsObjs meshObjs s.dev e ∧ e = { s.dev with objs := e.objs, lanes := e.lanes, freeIdx := e.freeIdx })
  ∧ (∀ (s : State) (l : Fin 3) (x : RxFrame) (rest : List RxFrame), s.dev.running = true → (s.dev.lane l).rxDone = x :: rest →
      let popped := s.dev.setLane l { s.dev.lane l with rxDone := rest }
      (decodeControl x = none → Completes (.controlFrame l x.code x.erased) s fun e =>
        e.get (laneIx l) 0x13 = satAdd 32 (s.dev.get (laneIx l) 0x13) 1 ∧ KeepsObjs [(laneIx l, 0x13)] s.dev e ∧ OnlyObjs popped e)
      ∧ (∀ b errs slots, decodeControl x = some (b, errs, slots) → crc16 (b.take 40) = leAt b 40 2 → s.dev.meshRole = 0 → s.dev.mesh.nbrs = [] →
          let f := meshParse (byteAt b 0) (sliceB b 1 7) (sliceB b 8 32)
          f.ty = 1 → f.far = 0 → Completes (.controlFrame l x.code x.erased) s fun e => e = meshShow (enterQueue
            (parseCompact (replyTwist l false f) (padTo 32 f.payload)) ((popped.countSlots l errs slots).inc (laneIx l) 0x12))))
  ∧ (∀ (s : State) (l : Fin 3) (b : Bytes) (rest : List Bytes), s.dev.running = true → (s.dev.lane l).ready = b :: rest →
      let popped := s.dev.setLane l { s.dev.lane l with ready := rest, blockErrs := [] }
      (crc32 (b.take (b.length - 4)) ≠ leAt b (b.length - 4) 4 → Completes (.bulkFrame l) s fun e => e = popped)
      ∧ (14 ≤ b.length → b.length ≤ 1486 → crc32 (b.take (b.length - 4)) = leAt b (b.length - 4) 4 → s.dev.meshRole = 0 → s.dev.mesh.nbrs = [] →
          let f := meshParse (byteAt b 2) (sliceB b 3 7) (sliceB b 10 (b.length - 14))
          f.ty = 1 → f.far = 0 → Completes (.bulkFrame l) s fun e =>
            e = meshShow (enterQueue (parseRequest (replyTwist l true f) [] false true f.payload) popped)))
  ∧ (∀ (s : State) (l : Fin 3) (f : MeshFrame), s.dev.running = true → f.ty = 0x18 → s.dev.meshRole = 1 → s.dev.mesh.joined = true →
      f.ack = false → thas s.dev.mesh.nbrs (nbrKey l f.hopSrc) = true →
      (s.dev.mesh.floods.contains f.far = true → Completes (.broadcastCommand l f) s (OnlyMesh s.dev.mesh s.dev))
      ∧ (s.dev.mesh.floods.contains f.far = false → s.dev.dict.queue = [] → Completes (.broadcastCommand l f) s fun e =>
          e.mesh = { s.dev.mesh with floods := push 1024 f.far s.dev.mesh.floods } ∧ e.get 0x7A00 0x16 = satAdd 32 (s.dev.get 0x7A00 0x16) 1
          ∧ (∀ k, k < 3 → (e.lane k).ctlQ.length = (s.dev.lane k).ctlQ.length + (if s.dev.laneState k = 2 then 1 else 0))
          ∧ e = { s.dev with
              objs := e.objs, blobs := e.blobs, log := e.log, vcs := e.vcs, dict := e.dict, mesh := e.mesh, lanes := e.lanes, freeIdx := e.freeIdx }))

/-- The reader's fields: visits of antennas, dwelling, presence, card exchanges, HALT and REDRAW, collapses during a write (R491, R492,
R493, R494, R495, R502, R504, R508, R509, R511, R512). -/
def Obligations.ReaderFields : Prop :=
  (∀ (s : State) (c : Fin 4) (x : VisitSeen) (a : Nat), s.dev.running = true → s.dev.drives = true → s.dev.get (readerIx c) 1 = 1 → (s.dev.reader c).phase = 0 →
      s.dev.supply.hold = false → s.dev.pausing 1 = false → (s.dev.reader c).drain = none → (s.dev.reader c).since + 32 ≤ s.dev.now → s.dev.nextAntenna c = some a →
      (s.dev.reader c).cards = [] → (s.dev.reader c).sess = none → x.tags = [] →
      let learnt := (tfind (s.dev.reader c).learnt a).getD x.current
      let tech := s.dev.get (readerIx c) 3
      let cards : List HeldCard := (if tech.testBit 0 = true then (pollA (x.cardsA.length + 1) x.cardsA).2.map fun y => { ty := 1, ident := y.ident } else [])
        ++ (if tech.testBit 1 = true then (pollB 5 0 x.cardsB).2.map fun y => { ty := 2, ident := y.ident } else [])
      (antennaBad learnt x.current = true → Completes (.antennaVisit c x) s fun e => SetsBit (readerIx c) 0x12 a true s.dev e
        ∧ e.evPending 109 = true ∧ (e.reader c).phase = 0 ∧ (e.reader c).antenna = a ∧ (e.reader c).since = s.dev.now
        ∧ OnlyReader c [(readerIx c, 0x12), evObj 109] s.dev e)
      ∧ (antennaBad learnt x.current = false → Completes (.antennaVisit c x) s fun e =>
          (e.reader c).antenna = a ∧ (e.reader c).since = s.dev.now ∧ (e.reader c).cards = cards
          ∧ (e.reader c).phase = (if cards = [] then 1 else 2) ∧ tfind (e.reader c).learnt a = some learnt
          ∧ (cards.length = 1 → e.get (readerIx c) 0x11 = satAdd 32 (s.dev.get (readerIx c) 0x11) 1)
          ∧ (∀ k, k ≠ c.val → e.reader k = s.dev.reader k) ∧ KeepsObjs [(readerIx c, 0x10), (readerIx c, 0x11)] s.dev e
          ∧ KeepsBlobs [(readerIx c, 0x16)] s.dev e ∧ e = { s.dev with objs := e.objs, blobs := e.blobs, readers := e.readers, vcs := e.vcs }))
  ∧ (∀ (s : State) (c : Fin 4), s.dev.running = true → (s.dev.reader c).wr = none →
      let off := { s.dev.reader c with phase := 0, since := s.dev.now, cards := [], queue := [], sess := none, ignored := [], drain := none, tx := [] }
      ((s.dev.reader c).phase = 1 → (s.dev.reader c).since + 32 * (s.dev.reader c).dwell ≤ s.dev.now →
        Completes (.dwellExpiry c) s fun e => e.reader c = off ∧ OnlyReader c [] s.dev e)
      ∧ ((s.dev.reader c).phase = 2 → (s.dev.reader c).checkAt + 3200 ≤ s.dev.now →
          ((s.dev.reader c).holds = true → ∀ an : List Bool, (∀ i, i < (s.dev.reader c).cards.length + b2n (s.dev.reader c).sess.isSome → an.getD i false = true) →
            Completes (.presenceCheck c an) s fun e => e.reader c = { s.dev.reader c with checkAt := s.dev.now, tx := (e.reader c).tx } ∧ OnlyReader c [] s.dev e)
          ∧ (∀ (y : HeldCard) (an : List Bool), (s.dev.reader c).cards = [y] → (s.dev.reader c).sess = none → (s.dev.reader c).queue = [] →
              an.getD 0 false = false → s.dev.get 0x261E 1 = 1 → Completes (.presenceCheck c an) s fun e =>
                e.reader c = { off with checkAt := s.dev.now, exch := none } ∧ e.evPending 105 = true ∧ Streamed 6 ⟨0x62, c, [4]⟩ s.dev e
                ∧ OnlyReader c [evObj 105] s.dev e))
      ∧ ((s.dev.reader c).cards ≠ [] → Completes (.cardRelease c) s fun e => OnlyReader c [] s.dev e ∧ e.reader c =
          (if (s.dev.reader c).sess.isSome = true ∨ (s.dev.reader c).queue ≠ [] then { s.dev.reader c with cards := [], exch := none }
            else { off with exch := none })))
  ∧ (∀ (s : State) (c : Fin 4) (w : Nat) (fr b : Bytes) (a : CardAnswer), s.dev.running = true → (s.dev.vc 6).taken = [] → (∀ v, v < 9 → (s.dev.vc v).fenced = []) →
      s.dev.get 0x261E 1 = 1 →
      ((s.dev.reader c).exch = none → (s.dev.reader c).cards = [] → Completes (.cardFrame c w fr a) s fun e => Streamed 6 ⟨0x62, c, [4]⟩ s.dev e
        ∧ e.reader c = s.dev.reader c ∧ OnlyReader c [] s.dev e)
      ∧ (∀ y, (s.dev.reader c).exch = none → (s.dev.reader c).cards.getLast? = some y → Completes (.cardFrame c w fr (.frame b)) s fun e =>
          Streamed 6 ⟨0x62, c, 0 :: b⟩ s.dev e ∧ e.reader c = { s.dev.reader c with tx := push 256 (cardBits y.ty fr) (s.dev.reader c).tx }
          ∧ OnlyReader c [] s.dev e)
      ∧ (∀ t, (s.dev.reader c).exch = some (fr, t) → s.dev.now ≤ t → Completes (.cardFrame c w fr (.frame b)) s fun e =>
          Streamed 6 ⟨0x62, c, 0 :: b⟩ s.dev e ∧ e.reader c = { s.dev.reader c with exch := none } ∧ OnlyReader c [] s.dev e))
  ∧ (∀ (s : State) (c : Fin 4) (x : TagSess), s.dev.running = true → (s.dev.reader c).sess = some x → (s.dev.reader c).wr = none →
      s.dev.keptFor x = none →
      let sent := push 256 (tagFrame (bitsLE (if x.stage = 3 ∨ x.stage = 4 then secure x 4 [] else [4]))) (s.dev.reader c).tx
      ((s.dev.reader c).queue = [] → Completes (.halt c) s fun e =>
        e.reader c = { s.dev.reader c with sess := none, tx := sent } ∧ OnlyReader c [] s.dev e)
      ∧ (∀ i fl top rest, (s.dev.reader c).queue = (i, fl, top) :: rest → Completes (.halt c) s fun e =>
          (e.reader c).sess = some { ident := i, flags := fl, top := top } ∧ (e.reader c).queue = rest ∧ e.evPending 104 = true
          ∧ (e.reader c).tx = push 256 (tagFrame (bitsLE (natLE 1 3 ++ natLE 8 i))) sent ∧ e.get (readerIx c) 0x11 = satAdd 32 (s.dev.get (readerIx c) 0x11) 1
          ∧ (∀ k, k ≠ c.val → e.reader k = s.dev.reader k) ∧ KeepsObjs [(readerIx c, 0x10), (readerIx c, 0x11), evObj 104] s.dev e))
  ∧ (∀ (s : State) (c : Fin 4) (x : TagSess) (t : TagSeen), s.dev.running = true → (s.dev.reader c).sess = some x → x.stage = 5 →
      t.ident < 2 ^ 64 → (s.dev.reader c).ignored.contains t.ident = false → Completes (.redraw c [t]) s fun e =>
        (e.reader c).sess = some { ident := t.ident, flags := t.flags, top := t.top } ∧ (e.reader c).queue = [] ∧ e.evPending 104 = true
        ∧ (∀ k, k ≠ c.val → e.reader k = s.dev.reader k) ∧ KeepsObjs [(readerIx c, 0x10), (readerIx c, 0x11), evObj 104] s.dev e)
  ∧ (∀ (s : State) (c : Fin 4) (w : TagWrite), s.dev.running = true → (s.dev.reader c).phase ≠ 0 → (s.dev.reader c).wr = some w →
      s.dev.get 0x261E 1 = 1 →
      let off := { s.dev.reader c with
        phase := 0, since := s.dev.now, cards := [], queue := [], sess := none, ignored := [], drain := none, tx := [], wr := none }
      (w.step < 3 → Completes (.fieldCollapse (c, none)) s fun e => e.reader c = off
        ∧ Streamed 6 ⟨0x65, w.tag, natLE 8 w.ident ++ natLE 2 w.w ++ natLE 1 1⟩ s.dev e ∧ OnlyReader c [] s.dev e)
      ∧ (w.step = 3 ∨ w.step = 4 → s.dev.unresolved.length < 64 → Completes (.fieldCollapse (c, none)) s fun e => e.reader c = off
          ∧ Streamed 6 ⟨0x65, w.tag, natLE 8 w.ident ++ natLE 2 w.w ++ natLE 1 (if w.step = 3 then 2 else 3)⟩ s.dev e
          ∧ e.unresolved = s.dev.unresolved ++ [{ w with until' := s.dev.now + 32000 * s.dev.get 0x7C00 1 }] ∧ e.evPending 106 = true
          ∧ e.get (readerIx c) 0x15 = satAdd 32 (s.dev.get (readerIx c) 0x15) 1 ∧ e.get 0x7C00 2 = e.unresolved.length
          ∧ OnlyReader c [(readerIx c, 0x15), (0x7C00, 2), evObj 106] { s.dev with unresolved := e.unresolved } e))
  ∧ (∀ (s : State) (c : Fin 4) (i : Nat), s.dev.running = true → (s.dev.reader c).phase ≠ 0 → (s.dev.reader c).wr = none →
      let a := (s.dev.reader c).antenna
      (antennaBad (tget 0 (s.dev.reader c).learnt a) i = false → Completes (.fieldCollapse (c, some i)) s fun e =>
        e.reader c = s.dev.reader c ∧ OnlyReader c [] s.dev e)
      ∧ (antennaBad (tget 0 (s.dev.reader c).learnt a) i = true → Completes (.fieldCollapse (c, some i)) s fun e =>
          SetsBit (readerIx c) 0x12 (a % 8) true s.dev e ∧ e.evPending 109 = true ∧ (e.reader c).phase = 0 ∧ (e.reader c).cards = []
          ∧ (e.reader c).sess = none ∧ OnlyReader c [(readerIx c, 0x12), evObj 109] s.dev e))
  ∧ (∀ (s : State) (i : Nat) (w : TagWrite), s.dev.unresolved[i]? = some w → w.until' ≤ s.dev.now → s.dev.get 0x261E 1 = 1 →
      Completes (.reEntryWindowExpiry i) s fun e => e.unresolved = s.dev.unresolved.erase w ∧ e.get 0x7C00 2 = min 64 e.unresolved.length
        ∧ Streamed 6 ⟨0x65, w.tag, natLE 8 w.ident ++ natLE 2 w.w ++ natLE 1 2⟩ s.dev e ∧ KeepsObjs [(0x7C00, 2)] s.dev e
        ∧ e = { s.dev with objs := e.objs, vcs := e.vcs, unresolved := e.unresolved })
  ∧ (∀ (s : State) (role : Role) (c : Fin 4), Accepts s.dev role (readerIx c) 1 (.num 0) {} → Completes (.readerChannelDisable role c) s fun e =>
        e.get (readerIx c) 1 = 0 ∧ e.status = 0
        ∧ ((s.dev.reader c).wr.isSome = true → e.reader c = { s.dev.reader c with
            cards := [], queue := [], exch := none, drain := some ((s.dev.reader c).drain.getD (s.dev.effTick + 6400)) })
        ∧ ((s.dev.reader c).wr = none → (s.dev.reader c).phase ≠ 0 → (e.reader c).phase = 0 ∧ (e.reader c).cards = [] ∧ (e.reader c).sess = none)
        ∧ (e.reader c).exch = none ∧ OnlyReader c [(readerIx c, 1)] { s.dev with status := 0 } e)

/-- Tag sessions: unlocking, the mutual authentication, reads, and the four steps of a write (R503, R504, R505, R506, R507, R508). -/
def Obligations.TagSessions : Prop :=
  (∀ (s : State) (c : Fin 4) (x : TagSess) (b : Bytes), s.dev.running = true → (s.dev.reader c).sess = some x → x.stage = 0 →
      x.flags % 4 = 0 → (s.dev.reader c).groupS ≠ 0xFF → b.length = 4 → Completes (.getRandom c (.reply 0 b)) s fun e =>
        e.reader c = { s.dev.reader c with sess := some { x with stage := 1, r := b }, tx := push 256 (tagFrame (bitsLE [0x10])) (s.dev.reader c).tx } ∧ OnlyReader c [] s.dev e)
  ∧ (∀ (s : State) (c : Fin 4) (x : TagSess) (p b : Bytes), s.dev.running = true → (s.dev.reader c).sess = some x → x.stage = 1 →
      s.dev.slotKey (40 + (s.dev.reader c).groupS % 8) 1 = some p → Completes (.unlock c (.reply 0 b)) s fun e =>
        e.reader c = { s.dev.reader c with
          sess := some { x with stage := 3, r := [] }, tx := push 256 (tagFrame (bitsLE (0x11 :: xorB (padTo 4 p) x.r))) (s.dev.reader c).tx }
        ∧ OnlyReader c [] s.dev e)
  ∧ (∀ (s : State) (c : Fin 4) (x : TagSess) (km b : Bytes), s.dev.running = true → (s.dev.reader c).sess = some x → x.stage = 0 →
      x.flags % 4 = 1 → (s.dev.reader c).groupL ≠ 0xFF → s.dev.slotKey (48 + (s.dev.reader c).groupL % 8) 4 = some km → b.length = 16 →
      let rr := natLE 8 (Config.free s.dev.freeIdx)
      let m := aesUnblock (tagKey km x.ident) b
      Completes (.auth1 c (.reply 0 b)) s fun e => e.freeIdx = s.dev.freeIdx + 1
        ∧ (m.drop 8 = rr → e.reader c = { s.dev.reader c with
              sess := some { x with stage := 2, rr := rr, rt := m.take 8, kt := tagKey km x.ident }
              tx := push 256 (tagFrame (bitsLE (0x12 :: rr))) (s.dev.reader c).tx }
            ∧ OnlyReader c [] { s.dev with freeIdx := e.freeIdx } e)
        ∧ (m.drop 8 ≠ rr → e.evPending 107 = true ∧ e.get (readerIx c) 0x14 = satAdd 32 (s.dev.get (readerIx c) 0x14) 1
            ∧ ((s.dev.reader c).queue = [] → (e.reader c).sess = none)))
  ∧ (∀ (s : State) (c : Fin 4) (x : TagSess) (b : Bytes), s.dev.running = true → (s.dev.reader c).sess = some x → x.stage = 2 →
      Completes (.auth2 c (.reply 0 b)) s fun e => (e.reader c).sess = some
          { x with stage := 3, ks := aesBlock x.kt (x.rr ++ x.rt), sentNo := 0, gotNo := 0 } ∧ OnlyReader c [] s.dev e)
  ∧ (∀ (s : State) (c : Fin 4) (x : TagSess) (b m : Bytes), s.dev.running = true → (s.dev.reader c).sess = some x → x.stage = 3 →
      (s.dev.reader c).wr = none → s.dev.keptFor x = none → unsecure x 0 b = some m → m.length = 16 → s.dev.get 0x261E 1 = 1 →
      Completes (.tagRead c 0 1 (.reply 0 b)) s fun e => (e.reader c).sess = some
          { x with stage := 4, fleet := m, blocks := m, sentNo := x.sentNo + 1, gotNo := x.gotNo + 1 }
        ∧ Streamed 6 ⟨0x63, c + 4 * ((s.dev.reader c).antenna % 8), natLE 1 1 ++ natLE 1 (x.flags % 4) ++ natLE 8 x.ident ++ m⟩ s.dev e
        ∧ OnlyReader c [] s.dev e)
  ∧ (∀ (s : State) (c : Fin 4) (x : TagSess) (b : Bytes), s.dev.running = true → (s.dev.reader c).sess = some x → x.stage = 4 →
      (s.dev.reader c).wr = none → s.dev.keptFor x = none → (s.dev.reader c).queue = [] → unsecure x 0 b = none → Completes (.tagRead c 0 1 (.reply 0 b)) s fun e =>
        (e.reader c).sess = none ∧ e.evPending 107 = true ∧ e.get (readerIx c) 0x14 = satAdd 32 (s.dev.get (readerIx c) 0x14) 1
        ∧ OnlyReader c [(readerIx c, 0x14), evObj 107] s.dev e)
  ∧ (∀ (s : State) (tag : Nat) (p : Bytes), s.dev.running = true →
      (∀ c x, s.dev.writable (leAt p 0 8) = some (c, x) → 1 ≤ byteAt p 9 → byteAt p 9 ≤ 4 → p.length = 10 + 16 * byteAt p 9 →
        Completes (.tagWrite tag p) s fun e => (e.reader c).wr = some
            ⟨tag, leAt p 0 8, x.flags % 4, x.fleet, Config.free s.dev.freeIdx % 65535 + 1, byteAt p 8, p.drop 10, 0, 0, 0⟩
          ∧ e.freeIdx = s.dev.freeIdx + 1 ∧ (∀ k, k ≠ c → e.reader k = s.dev.reader k)
          ∧ KeepsObjs ((List.range 4).map fun k => (readerIx k, 0x10)) s.dev e
          ∧ e = { s.dev with objs := e.objs, readers := e.readers, freeIdx := e.freeIdx })
      ∧ (s.dev.writable (leAt p 0 8) = none → s.dev.get 0x261E 1 = 1 → Completes (.tagWrite tag p) s fun e =>
          Streamed 6 ⟨0x65, tag, natLE 8 (leAt p 0 8) ++ natLE 2 0 ++ natLE 1 1⟩ s.dev e
          ∧ KeepsObjs ((List.range 4).map fun k => (readerIx k, 0x10)) s.dev e ∧ e = { s.dev with objs := e.objs, vcs := e.vcs }))
  ∧ (∀ (s : State) (c : Fin 4) (x : TagSess) (w : TagWrite) (b m : Bytes), s.dev.running = true → (s.dev.reader c).sess = some x →
      x.stage = 3 ∨ x.stage = 4 → (s.dev.reader c).wr = some w → w.ident = x.ident → unsecure x 0 b = some m →
      let next := fun w' e => (e.reader c).wr = some w' ∧ (e.reader c).sess = some { x with sentNo := x.sentNo + 1, gotNo := x.gotNo + 1 }
        ∧ OnlyReader c [] s.dev e
      (w.step = 0 → Completes (.writeCmd c (.reply 0 b)) s (next { w with step := 1 }))
      ∧ (w.step = 1 → Completes (.writeData c (.reply 0 b)) s
          (next { w with sent := w.sent + 1, step := if 16 * (w.sent + 1) = w.data.length then 2 else 1 }))
      ∧ (w.step = 2 → Completes (.commit c (.reply 0 b)) s (next { w with step := 4 })
          ∧ Completes (.commit c .silent) s fun e => (e.reader c).wr = some { w with step := 3 } ∧ OnlyReader c [] s.dev e)
      ∧ (w.step = 4 → (s.dev.reader c).drain = none → s.dev.get 0x261E 1 = 1 → Completes (.confirm c (.reply 0 b)) s fun e =>
          (e.reader c).wr = none ∧ Streamed 6 ⟨0x65, w.tag, natLE 8 w.ident ++ natLE 2 w.w
            ++ natLE 1 (if byteAt m 0 = 0 ∧ leAt m 1 4 = crc32 w.data then 0 else 5)⟩ s.dev e ∧ OnlyReader c [] s.dev e))
  ∧ (∀ (s : State) (c : Fin 4) (x : TagSess) (w : TagWrite) (st : Nat) (b m : Bytes), s.dev.running = true → (s.dev.reader c).sess = some x →
      x.stage = 4 → (s.dev.reader c).wr = some w → w.ident = x.ident → w.step = 0 → (s.dev.reader c).drain = none → unsecure x st b = some m → st ≠ 0 →
      s.dev.get 0x261E 1 = 1 → Completes (.writeCmd c (.reply st b)) s fun e => (e.reader c).wr = none
        ∧ Streamed 6 ⟨0x65, w.tag, natLE 8 w.ident ++ natLE 2 w.w ++ natLE 1 4 ++ natLE 1 st⟩ s.dev e ∧ OnlyReader c [] s.dev e)
  ∧ (∀ (s : State) (c : Fin 4) (x : TagSess) (w : TagWrite) (b m : Bytes), s.dev.running = true → (s.dev.reader c).sess = some x →
      x.stage = 4 → (s.dev.reader c).wr = none → s.dev.keptFor x = some w → unsecure x 0 b = some m → s.dev.get 0x261E 1 = 1 →
      Completes (.confirm c (.reply 0 b)) s fun e => e.unresolved = s.dev.unresolved.erase w ∧ e.get 0x7C00 2 = min 64 e.unresolved.length
        ∧ Streamed 6 ⟨0x65, w.tag, natLE 8 w.ident ++ natLE 2 w.w
          ++ natLE 1 (if byteAt m 0 ≠ 0 then 1 else if leAt m 1 4 = crc32 w.data then 0 else 5)⟩ s.dev e
        ∧ OnlyReader c [(0x7C00, 2)] { s.dev with unresolved := e.unresolved } e)

/-- The arbiter: requests, grants, pre-emption, locked runs, ends, withdrawals, refills, occupancy, and the writes to its objects (R33,
R515, R516, R517, R518, R519, R520, R521, R522, R523, R526, R535). -/
def Obligations.ArbiterContests : Prop :=
  (∀ (s : State) (q : Fin 38) (v : Fin 6) (lk : Bool) (n : Nat × Nat) (dt : Nat), s.dev.running = true → v.val ∈ servicesOf q →
      (s.dev.svc v).waiting = [] → s.dev.stagedTop = s.dev.arb.top → RunsHold s.dev dt →
      let c := s.dev.arb.cycle + dt
      let run := lk && !(v.val == 5 && n.2 == 2)
      let r : ArbReq := { q := q, locked := run, units := n.1, at' := c }
      (unitsOk v n = false ∨ s.dev.mayAsk q v = false ∨ (run = true ∧ ∃ u, u < 6 ∧ s.dev.svcHas q u true = true) →
        Completes (.serviceRequest q v lk n dt) s fun e =>
          (∀ u, u < 6 → (e.svc u).grant = (s.dev.svc u).grant ∧ (e.svc u).waiting = (s.dev.svc u).waiting) ∧ OnlyArb [] s.dev e)
      ∧ (unitsOk v n = true → s.dev.mayAsk q v = true → (run = true → ∀ u, u < 6 → s.dev.svcHas q u true = false) →
      ((s.dev.svc v).grant = none → (∃ k, (s.dev.svc v).dead = some k ∧ c < k) → Completes (.serviceRequest q v lk n dt) s fun e =>
        (e.svc v).grant = none ∧ (e.svc v).waiting = [r] ∧ OnlyArb [] s.dev e)
      ∧ ((s.dev.svc v).grant = none → (∀ k, (s.dev.svc v).dead = some k → k ≤ c) → Completes (.serviceRequest q v lk n dt) s fun e =>
        (e.svc v).grant = some r ∧ (e.svc v).decided = c ∧ (e.svc v).waiting = [] ∧ e.arb.cycle = c
        ∧ e.get (reqIx q) 4 = satAdd 32 (s.dev.get (reqIx q) 4) 1 ∧ ((s.dev.svc v).ended = none → e.get (svcIx v) 1 % 256 = 0xFF)
        ∧ (∀ w, w < 6 → w ≠ v.val → (e.svc w).grant = (s.dev.svc w).grant ∧ (e.svc w).waiting = (s.dev.svc w).waiting)
        ∧ OnlyArb [(reqIx q, 4)] s.dev e)
      ∧ (∀ g, (s.dev.svc v).grant = some g → g.q ≠ q.val → g.q < 38 → (s.dev.svc v).decided < c →
          (g.locked = false → s.dev.rankOf g.q < s.dev.rankOf q → Completes (.serviceRequest q v lk n dt) s fun e =>
            (e.svc v).grant = some r ∧ (e.svc v).waiting = [g] ∧ e.get (reqIx g.q) 5 = satAdd 32 (s.dev.get (reqIx g.q) 5) 1
            ∧ e.get (reqIx q) 4 = satAdd 32 (s.dev.get (reqIx q) 4) 1
            ∧ (v.val ≠ 4 → OnlyArb [(reqIx q, 4), (reqIx g.q, 5)] s.dev e))
          ∧ (g.locked = true ∨ s.dev.rankOf q ≤ s.dev.rankOf g.q → Completes (.serviceRequest q v lk n dt) s fun e =>
            (e.svc v).grant = some g ∧ (e.svc v).waiting = [r] ∧ OnlyArb [] s.dev e))))
  ∧ (∀ (s : State) (v : Fin 6) (more : Bool) (dt : Nat) (g : ArbReq), s.dev.running = true → (s.dev.svc v).grant = some g →
      (s.dev.svc v).decided < s.dev.arb.cycle + dt → g.q < 38 → s.dev.stagedTop = s.dev.arb.top →
      let long := max (s.dev.get (reqIx g.q) 7) (min ((s.dev.svc v).decided + 1 - g.at') (2 ^ 32 - 1))
      (g.locked = true → (s.dev.svc v).decided + runLimit ≤ s.dev.arb.cycle + dt → (s.dev.svc v).waiting = [] →
        (∀ u h, u < 6 → u ≠ v.val → (s.dev.svc u).grant = some h → h.locked = false) →
        (∀ u k, u < 6 → s.dev.dueOf u = some k → s.dev.arb.cycle + dt < k) → Completes (.transferComplete v more dt) s fun e =>
          (e.svc v).grant = none ∧ e.get (reqIx g.q) 7 = long
          ∧ ((s.dev.svc v).decided + runLimit < s.dev.arb.cycle + dt → e.get (svcIx v) 1 % 256 = 0xFF) ∧ OnlyArb [(reqIx g.q, 7)] s.dev e)
      ∧ (g.locked = true → more = true → RunsHold s.dev dt → Completes (.transferComplete v more dt) s fun e =>
        (e.svc v).grant = some g ∧ e.get (reqIx g.q) 7 = long ∧ (v.val ≠ 4 → OnlyArb [(reqIx g.q, 7)] s.dev e))
      ∧ (g.locked = false ∨ more = false → RunsHold s.dev dt → (s.dev.svc v).waiting = [] → Completes (.transferComplete v more dt) s fun e =>
          (e.svc v).grant = none ∧ e.get (reqIx g.q) 7 = long ∧ e.get (svcIx v) 1 % 512 = g.q + 256 * b2n g.locked
          ∧ (v.val ≠ 4 → OnlyArb [(reqIx g.q, 7)] s.dev e))
      ∧ (∀ w, g.locked = false ∨ more = false → RunsHold s.dev dt → (s.dev.svc v).waiting = [w] → w.q < 38 → Completes (.transferComplete v more dt) s fun e =>
          (e.svc v).grant = some w ∧ (e.svc v).decided = s.dev.arb.cycle + dt ∧ (e.svc v).waiting = [] ∧ e.get (reqIx g.q) 7 = long
          ∧ e.get (reqIx w.q) 4 = satAdd 32 (s.dev.get (reqIx w.q) 4) 1 ∧ (v.val ≠ 4 → OnlyArb [(reqIx g.q, 7), (reqIx w.q, 4)] s.dev e)))
  ∧ (∀ s : State, s.dev.running = true → s.dev.arb.cycle ≤ s.dev.arb.refills * 1024 →
      RunsHold s.dev (s.dev.arb.refills * 1024 - s.dev.arb.cycle) → Completes .creditRefill s fun e =>
      e.arb.cycle = s.dev.arb.refills * 1024 ∧ e.arb.refills = s.dev.arb.refills + 1
      ∧ (∀ q, q < 38 → e.get (reqIx q) 3 = min 4095 (s.dev.get (reqIx q) 3 - s.dev.owed (s.dev.arb.refills * 1024) q + s.dev.get (reqIx q) 2))
      ∧ (∀ v g, v < 6 → (s.dev.svc v).grant = some g → g.q < 38 → (s.dev.svc v).decided < s.dev.arb.refills * 1024 →
          e.get (svcIx v) 1 % 512 = g.q + 256 * b2n g.locked) ∧ OnlyArb [] s.dev e)
  ∧ (∀ (s : State) (q : Fin 38) (v : Fin 6) (dt : Nat), s.dev.running = true → s.dev.stagedTop = s.dev.arb.top → RunsHold s.dev dt →
      (∀ w, (s.dev.svc v).grant = none → (s.dev.svc v).waiting = [w] → w.q = q.val → Completes (.withdrawal q v dt) s fun e =>
        (e.svc v).grant = none ∧ (e.svc v).waiting = [] ∧ OnlyArb [] s.dev e)
      ∧ (∀ g, (s.dev.svc v).grant = some g → g.q = q.val → g.locked = false → (s.dev.svc v).waiting = [] → Completes (.withdrawal q v dt) s fun e =>
          (e.svc v).grant = none ∧ e.get (svcIx v) 3 = satAdd 64 (s.dev.get (svcIx v) 3) 1 ∧ e.get (reqIx q) 6 = satAdd 32 (s.dev.get (reqIx q) 6) 1
          ∧ (e.svc v).dead = some (s.dev.arb.cycle + dt + 1) ∧ e.get (svcIx v) 1 % 1024 = q.val ∧ OnlyArb [(svcIx v, 3), (reqIx q, 6)] s.dev e)
      ∧ (∀ g, (s.dev.svc v).grant = some g → g.q = q.val → g.locked = true → Completes (.withdrawal q v dt) s fun e =>
          ∀ w h, w < 6 → (s.dev.svc w).grant = some h → h.q = q.val → h.locked = true →
            (e.svc w).grant = none ∧ e.get (svcIx w) 3 = satAdd 64 (s.dev.get (svcIx w) 3) 1))
  ∧ (∀ (s : State) (role : Role) (q : Fin 38) (sub x : Nat), Accepts s.dev role (reqIx q) sub (.num x) {} → RunsHold s.dev 1 →
      Completes (.rankWeightWrite role q sub x) s fun e =>
      e.get (reqIx q) sub = x ∧ e.status = 0
      ∧ (sub = 1 → e.get (reqIx q) 0xB = (if q.val = 32 ∧ s.dev.arb.top = true then 7 else x))
      ∧ (sub ≠ 1 → KeepsObjs [(reqIx q, sub)] s.dev e ∧ e = { s.dev with objs := e.objs, status := 0 })
      ∧ ((∀ v, v < 6 → (s.dev.svc v).waiting = []) → ∀ v, v < 6 → (e.svc v).grant = (s.dev.svc v).grant))
  ∧ (∀ s : State, s.dev.running = true → s.dev.now % 32000 = 0 → s.dev.arb.occAt < s.dev.now → RunsHold s.dev 0 → Completes .occupancyRefresh s fun e =>
      (∀ v r, v < 6 → r < 8 → e.get (svcIx v) (4 + r) = min 65535 ((((arbPass 0 s.dev).svc v).occ.getD r 0) * 1000 / (32000 * 30720)))
      ∧ e.arb.occAt = s.dev.now ∧ KeepsObjs (arbObjs ++ (List.range 6).flatMap fun v => (List.range 8).map fun r => (svcIx v, 4 + r)) s.dev e
      ∧ e = { s.dev with objs := e.objs, arb := e.arb })
  ∧ (∀ (s : State) (role : Role) (x : Nat), Accepts s.dev role 0x2500 1 (.num x) {} → Completes (.statisticsClear role x) s fun e =>
      (x = 1 → (∀ q, q < 38 → e.get (reqIx q) 7 = 0 ∧ e.get (reqIx q) 9 = 0) ∧ (∀ v i, v < 6 → 2 ≤ i → i ≤ 0xB → e.get (svcIx v) i = 0)
        ∧ KeepsObjs ((List.range 38).flatMap (fun q => [(reqIx q, 7), (reqIx q, 9)]) ++ (List.range 6).flatMap fun v => (List.range 10).map fun i => (svcIx v, i + 2))
          s.dev e ∧ e = { s.dev with objs := e.objs, status := 0 })
      ∧ (x ≠ 1 → e = { s.dev with status := 0 }))

/-- A wait that reaches its threshold is counted and reported once, and goes on (R527). -/
def Obligations.WaitThreshold : Prop :=
  ∀ (s : State) (q : Fin 38) (v : Fin 6) (w : ArbReq), s.dev.running = true → s.dev.get (reqIx q) 8 ≠ 0 → (s.dev.svc v).waiting = [w] → w.q = q.val →
    let p := arbPass (w.at' + s.dev.get (reqIx q) 8 - s.dev.arb.cycle) s.dev
    (w.told = false → (∀ g, (s.dev.svc v).grant = some g → g.locked = true →
        max s.dev.arb.cycle (w.at' + s.dev.get (reqIx q) 8) < (s.dev.svc v).decided + runLimit) →
      (∀ k, s.dev.dueOf v = some k → max s.dev.arb.cycle (w.at' + s.dev.get (reqIx q) 8) < k) → Completes (.waitThresholdReached q v) s fun e =>
      e.get (reqIx q) 9 = satAdd 32 (s.dev.get (reqIx q) 9) 1 ∧ e.evPending 112 = true
      ∧ e.get 0x2400 1 = (s.dev.get 0x2400 1 + 1) % 2 ^ 32
      ∧ (let n := s.dev.get 0x2400 1 + 1
         let b := e.getB (slotIx 0x2480 (n % 16384)) (slotSub (n % 16384))
         leAt b 0 4 = n % 2 ^ 32 ∧ byteAt b 14 = 112 ∧ leAt b 16 2 = reqIx q)
      ∧ (e.svc v).waiting = [{ w with told := true }] ∧ (e.svc v).grant = (s.dev.svc v).grant
      ∧ KeepsObjs (arbObjs ++ (reqIx q, 9) :: evObj 112 :: skeinObjs) p e ∧ OnlyLogged { p with arb := e.arb } e)
    ∧ (w.told = true → Completes (.waitThresholdReached q v) s fun e => e = s.dev)

/-- Fences: what a source fence, a global fence and a marker of the host hold back, and what a fence does when it completes (R529, R530,
R531, R532, R533). -/
def Obligations.Fences : Prop :=
  (∀ (s : State) (q : Fin 4) (tid x : Nat),
      let r := fun sub : Nat => ({ hostWrite q tid 0x2580 sub (natLE 4 x) with bound := s.dev.get 0x1121 (q + 1) == 1, roleCode := 0 } : DReq)
      let queued := fun (sub : Nat) (e : Dev) =>
        e.dict.queue = [{ r sub with key := (s.dev.front (r sub)).2.1, role := (s.dev.front (r sub)).2.2, phase := .accepted }]
        ∧ (∃ i, s.dev.srcTake (r sub) = some i ∧ (tget {} e.dict.srcs i).h = tid) ∧ e.get 0x1100 6 = max (s.dev.get 0x1100 6) 1 ∧ KeepsObjs [(0x1100, 6)] s.dev e
        ∧ e = { s.dev with objs := e.objs, dict := { s.dev.dict with queue := e.dict.queue, srcs := e.dict.srcs } }
      s.dev.loom = .running → (WriteAdmitted s.dev (r 1) → Completes (.sourceFence q tid x) s (queued 1))
        ∧ (WriteAdmitted s.dev (r 2) → Completes (.globalFence q tid x) s (queued 2)))
  ∧ (∀ (s : State) (q : Fin 4) (b : Bytes) (f : DReq),
      let r := parseRequest (.host q) (srcHost q) (s.dev.get 0x1121 (q + 1) == 1) false b
      s.dev.loom = .running → s.dev.dict.queue = [f] → f.phase = .accepted → s.dev.pauseHolds r = false → s.dev.trans = none → r.op ≠ 2 →
      (f.writes 0x2580 2 = true ∨ (f.writes 0x2580 1 = true ∧ f.src = r.src) → Completes (.dictionaryRequest q b) s fun e =>
        e.get 0x1100 6 = max (s.dev.get 0x1100 6) 2 ∧ KeepsObjs [(0x1100, 6)] s.dev e
        ∧ e = { s.dev with objs := e.objs, dict := { s.dev.dict with queue := [f, r], srcs := e.dict.srcs } })
      ∧ (f.writes 0x2580 1 = true → f.writes 0x2580 2 = false → f.writes 0x2200 2 = false → f.provesRole r = false → f.src ≠ r.src → r.op ≠ 3 →
          (s.dev.front r).1 = 0 → Completes (.dictionaryRequest q b) s fun e =>
            e.dict.queue = [f, { r with key := (s.dev.front r).2.1, role := (s.dev.front r).2.2, phase := .accepted }]))
  ∧ (∀ (s : State) (r : DReq) (q sub : Nat) (b : Bytes), WaitsAlone s.dev r .ready → r.op = 2 → r.dest = .host q → (s.dev.mb q).ready = none →
      r.entries = [{ ix := 0x2580, sub := sub, len := 4, data := b }] → sub = 1 ∨ sub = 2 → ReadingsDone s.dev → Completes .writeTakesEffect s fun e =>
        e.get 0x2580 3 = satAdd 32 (s.dev.get 0x2580 3) 1 ∧ e.dict.queue = []
        ∧ (∀ v, v < 9 → (leNat b).testBit v = true → s.dev.get (0x2618 + v) 1 = 1 → Streamed v ⟨0x01, r.trans, []⟩ s.dev e)
        ∧ (∀ v, v < 9 → (leNat b).testBit v = false → tget {} e.vcs v = tget {} s.dev.vcs v)
        ∧ KeepsObjs [(0x2580, 3), evObj 9] s.dev e)
  ∧ (∀ (s : State) (v : Fin 16) (mask : Nat), s.dev.running = true → (vcBuffer v).isSome = true →
      let live := (s.dev.vc v).holds.filter fun h => !s.dev.actedTo h.1 h.2
      ((s.dev.vc v).taken = [] → (s.dev.vc v).fenced = [] → Completes (.fenceMarker v mask) s fun e =>
        (e.vc v).got = (s.dev.vc v).got + 1 ∧ (∀ u, (e.vc u).holds = if u = v.val then live else (s.dev.vc u).holds)
        ∧ e = { s.dev with vcs := e.vcs })
      ∧ (∀ n r, (s.dev.vc v).taken = [(n, r)] → n ≤ (s.dev.vc v).got → Completes (.fenceMarker v mask) s fun e =>
          (∀ u, u < 9 → u ≠ v.val → (e.vc u).holds
            = (s.dev.vc u).holds ++ (if (mask % 65536).testBit u = true then [(v.val, (s.dev.vc v).got + 1)] else []))
          ∧ (∀ (u : Nat) (w : StreamRec), u < 9 → u ≠ v.val → (mask % 65536).testBit u = true → w.ty ≠ 0x01 → (takeRecord u w e).vc u
              = { e.vc u with got := (e.vc u).got + 1, holds := (e.vc u).holds.filter fun h => !e.actedTo h.1 h.2,
                              fenced := (e.vc u).fenced ++ [{ no := (e.vc u).got + 1, holds := (e.vc u).holds.filter fun h => !e.actedTo h.1 h.2, rec' := w }] })
          ∧ e = { s.dev with vcs := e.vcs }))

/-- The Hank port and the ring: link states, cells, credits, resends, host records, capture requests, and ring frames (R318, R546, R547,
R548, R549, R550, R551, R552, R553, R555, R559, R560). -/
def Obligations.HankAndRing : Prop :=
  (∀ s : State, s.dev.ticking = true → s.dev.hank.rxRun = false → Completes .hankLinkRun s fun e =>
      e.hank = { s.dev.hank with rxRun := true, txRun := false, good := 0, bad := 0, seq := 0, expect := 0, ack := none, unacked := [],
                                 again := s.dev.hank.unacked ++ s.dev.hank.again }
      ∧ (∀ v, v < 9 → (e.vc v).sent = 0 ∧ (e.vc v).credit = 0 ∧ (e.vc v).released = (vcBuffer v).getD 0 ∧ (e.vc v).out = (s.dev.vc v).out)
      ∧ e = { s.dev with hank := e.hank, vcs := e.vcs })
  ∧ (∀ (s : State) (cell : Bytes), s.dev.ticking = true → cellGood cell = true →
      (s.dev.hank.rxRun = false → 7 ≤ s.dev.hank.good → Completes (.creditCell cell) s fun e => e.hank.rxRun = true ∧ e.hank.txRun = false ∧ e.hank.seq = 0)
      ∧ (s.dev.hank.rxRun = true → s.dev.hank.txRun = false → s.dev.get 0x2610 1 = 0 → byteAt cell 4 / 16 = 2 → cellAborted cell = false →
          Completes (.creditCell cell) s fun e => e.hank.txRun = true ∧ e.get 0x2610 1 = 1 ∧ e.get 0x2610 4 = satAdd 32 (s.dev.get 0x2610 4) 1
            ∧ e.evPending 10 = true ∧ KeepsObjs ([(0x2610, 1), (0x2610, 4), evObj 10] ++ (List.range 9).map fun v => (0x2618 + v, 2)) s.dev e
            ∧ e = { s.dev with objs := e.objs, hank := e.hank, vcs := e.vcs }))
  ∧ (∀ s : State, s.dev.get 0x2610 1 = 1 → Completes .hankLinkDown s fun e =>
      e.get 0x2610 1 = 0 ∧ e.get 0x2610 4 = satAdd 32 (s.dev.get 0x2610 4) 1 ∧ e.evPending 10 = true
      ∧ e.hank = { s.dev.hank with rxRun := false, txRun := false, good := 0, bad := 0 } ∧ KeepsObjs [(0x2610, 1), (0x2610, 4), evObj 10] s.dev e
      ∧ e = { s.dev with objs := e.objs, hank := e.hank })
  ∧ (∀ (s : State) (v : Nat) (p : Bytes) (a : Bool), s.dev.get 0x2610 1 = 1 → s.dev.hank.unacked = [(v, p, a)] → Completes .hankResendTimeout s fun e =>
      e.get 0x2610 3 = satAdd 32 (s.dev.get 0x2610 3) 1
      ∧ e.hank = { s.dev.hank with wire := push 64 (hankCell (s.dev.hank.seq + 255) s.dev.hankAck v 1 p a) s.dev.hank.wire }
      ∧ KeepsObjs [(0x2610, 3)] s.dev e ∧ e = { s.dev with objs := e.objs, hank := e.hank })
  ∧ (∀ s : State, s.dev.ticking = true → s.dev.hank.rxRun = true → Completes .creditCellTransmit s fun e =>
      e.hank = { s.dev.hank with creditAt := s.dev.now, wire := push 64 (hankCell s.dev.hank.seq s.dev.hankAck 0 2
          ((List.range 16).flatMap fun v => natLE 4 (s.dev.vc v).released) false) s.dev.hank.wire } ∧ e = { s.dev with hank := e.hank })
  ∧ (∀ (s : State) (cell : Bytes), s.dev.running = true → s.dev.hank.rxRun = true → s.dev.hank.txRun = true →
      s.dev.hank.unacked = [] →
      let heard := { s.dev.hank with good := min 8 (s.dev.hank.good + 1), bad := 0 }
      let bad := fun e : Dev => e.get 0x2610 2 = satAdd 32 (s.dev.get 0x2610 2) 1
        ∧ (s.dev.hank.bad < 7 → e.hank = { s.dev.hank with good := 0, bad := s.dev.hank.bad + 1 } ∧ KeepsObjs [(0x2610, 2)] s.dev e)
        ∧ (7 ≤ s.dev.hank.bad → s.dev.get 0x2610 1 = 1 → e.hank.rxRun = false ∧ e.get 0x2610 1 = 0 ∧ e.evPending 10 = true
            ∧ KeepsObjs [(0x2610, 1), (0x2610, 2), (0x2610, 4), evObj 10] s.dev e)
        ∧ e = { s.dev with objs := e.objs, hank := e.hank }
      (cellGood cell = false → Completes (.hankCell cell) s bad ∧ Completes (.creditCell cell) s bad)
      ∧ (cellGood cell = true → cellAborted cell = false → byteAt cell 4 / 16 = 2 → Completes (.creditCell cell) s fun e =>
          (∀ v, v < 9 → (e.vc v).credit = max (s.dev.vc v).credit (leAt cell (6 + 4 * v) 4)
            ∧ e.get (0x2618 + v) 2 = min 65535 ((e.vc v).credit - (s.dev.vc v).sent))
          ∧ KeepsObjs ((List.range 9).map fun v => (0x2618 + v, 2)) s.dev e ∧ e = { s.dev with objs := e.objs, vcs := e.vcs, hank := heard })
      ∧ (cellGood cell = true → byteAt cell 4 / 16 = 1 →
          let v := byteAt cell 4 % 16
          let c := s.dev.vc v
          let taken := { heard with expect := (byteAt cell 2 + 1) % 256, ack := some (byteAt cell 2) }
          (byteAt cell 2 ≠ s.dev.hank.expect → Completes (.hankCell cell) s fun e => e = { s.dev with hank := heard })
          ∧ (byteAt cell 2 = s.dev.hank.expect → vcBuffer v = none → Completes (.hankCell cell) s fun e =>
              e.get 0x2610 2 = satAdd 32 (s.dev.get 0x2610 2) 1 ∧ KeepsObjs [(0x2610, 2)] s.dev e ∧ e = { s.dev with objs := e.objs, hank := taken })
          ∧ (byteAt cell 2 = s.dev.hank.expect → (vcBuffer v).isSome = true → cellAborted cell = true → Completes (.hankCell cell) s fun e =>
              (e.vc v).released = c.released + 1 ∧ (e.vc v).part = c.part ∧ (∀ u, u ≠ v → e.vc u = s.dev.vc u) ∧ e = { s.dev with hank := taken, vcs := e.vcs })
          ∧ (∀ x rest, byteAt cell 2 = s.dev.hank.expect → (vcBuffer v).isSome = true → cellAborted cell = false →
              splitRecords 64 (c.part ++ sliceB cell 6 256) = ([x], rest) → Completes (.hankCell cell) s fun e =>
                let d := ({ s.dev with hank := taken }).setVc v { c with part := rest, released := c.released + 1 }
                e = if x.1 = 1 ∨ c.inNo < x.1 then takeRecord v x.2 (d.setVc v { d.vc v with inNo := x.1 }) else d)))
  ∧ (∀ (s : State) (o : Fin 32) (p : Bytes), s.dev.running = true →
      (s.dev.etherOpen o = true → 14 ≤ p.length → p.length ≤ 1514 → Completes (.vehicleLinkRecord o p) s fun e =>
        (e.out o).out = (s.dev.out o).out ++ [(false, p)] ∧ (∀ k, k ≠ o.val → e.out k = s.dev.out k) ∧ e = { s.dev with outs := e.outs })
      ∧ (s.dev.canOpen o = true → byteAt p 4 ≤ 8 → p.length = 8 + byteAt p 4 → Completes (.vehicleLinkRecord (o + 256) p) s fun e =>
          (e.out o).out = (s.dev.out o).out ++ [(true, p)] ∧ (∀ k, k ≠ o.val → e.out k = s.dev.out k) ∧ e = { s.dev with outs := e.outs })
      ∧ (s.dev.etherOpen o = false → Completes (.vehicleLinkRecord o p) s fun e => e.get 0x261C 4 = satAdd 32 (s.dev.get 0x261C 4) 1
          ∧ KeepsObjs [(0x261C, 4)] s.dev e ∧ OnlyObjs s.dev e))
  ∧ (∀ (s : State) (role : Role) (v : Bytes), Accepts s.dev role 0x2630 1 (.raw v) (hankCapRules s.dev v) → Completes (.captureRequest role v) s fun e =>
      e.capt = some { start := max (s.dev.now + 1) (leAt v 0 8), len := leAt v 8 4, number := leAt v 12 2,
                      chans := (List.range (byteAt v 14)).map fun i => leAt v (16 + 2 * i) 2 }
      ∧ e.get 0x2630 2 = 1 ∧ KeepsObjs [(0x2630, 2)] s.dev e ∧ e = { s.dev with objs := e.objs, capt := e.capt, status := 0 })
  ∧ (∀ (s : State) (p : Fin 2) (f : Bytes), s.dev.running = true → s.dev.refused = false →
      let n := leAt f 6 2
      let src := byteAt f 1
      let seen := tget [] s.dev.ring.seen src
      let good := f.length = n + 12 ∧ n ≤ 4160 ∧ crc32 (f.take (8 + n)) = leAt f (8 + n) 4
      let noted := { s.dev with ring := { s.dev.ring with
          seen := tset s.dev.ring.seen src (push 64 (leAt f 4 2) seen), hops := tset s.dev.ring.hops (2 * src + p) (8 - min 7 (byteAt f 3)) } }.heard src
      (¬ good → Completes (.ringFrame p f) s fun e =>
        e.get (ringIx p) 4 = satAdd 32 (s.dev.get (ringIx p) 4) 1 ∧ KeepsObjs [(ringIx p, 4)] s.dev e ∧ OnlyObjs s.dev e)
      ∧ (good → src ≠ s.dev.position → seen.contains (leAt f 4 2) = true → Completes (.ringFrame p f) s fun e => e = s.dev)
      ∧ (good → src = s.dev.position → s.dev.foreign (byteAt f 0) (leAt f 4 2) = false → Completes (.ringFrame p f) s fun e => e = s.dev)
      ∧ (good → src = s.dev.position → s.dev.foreign (byteAt f 0) (leAt f 4 2) = true → 2 < byteAt f 0 → Completes (.ringFrame p f) s fun e =>
          SetsBit 0x2000 6 7 true s.dev e ∧ KeepsObjs [(0x2000, 6)] s.dev e ∧ OnlyObjs s.dev e)
      ∧ (good → seen.contains (leAt f 4 2) = false → src ≠ s.dev.position → src ≤ 7 →
          (byteAt f 2 = s.dev.position → Completes (.ringFrame p f) s fun e => e = ringTake p (byteAt f 0) src (sliceB f 8 n) noted)
          ∧ (byteAt f 2 ≠ s.dev.position → byteAt f 2 ≠ 0xFF → 2 < byteAt f 0 → 1 < byteAt f 3 → noted.portRun (1 - p) = true →
              Completes (.ringFrame p f) s fun e => e = (noted.portOut (1 - p) (ringBytes (byteAt f 0) src (byteAt f 2) (byteAt f 3 - 1) (leAt f 4 2)
                (sliceB f 8 n))).set (ringIx (1 - p)) 5 (satAdd 32 (noted.get (ringIx (1 - p)) 5) 1))))

/-- Bobbin slots and the lifecycle: loading, generating, proving and destroying keys, requesting a transition and its tick of effect (R567,
R568, R569, R570, R571, R573, R575, R577, R578, R579). -/
def Obligations.KeysAndLifecycle : Prop :=
  (∀ (s : State) (role : Role) (k : Fin 128) (v : Bytes), Accepts s.dev role (slotObj k) 4 (.raw v) (keyLoadRules s.dev role k v) →
      Completes (.loadPending role k v) s fun e => e.status = 0 ∧ e.freeIdx = s.dev.freeIdx + 1
        ∧ (∃ c : Bytes, c.length = 16 ∧ e.keyRec k = { s.dev.keyRec k with pend := s.dev.loadedKey role k v, challenge := some c }
            ∧ e.getB (slotObj k) 5 = c)
        ∧ e.get (slotObj k) 2 = b2n (s.dev.loadedKey role k v).isSome + 2 * b2n (s.dev.key k).isSome
        ∧ (∀ j, j ≠ k.val → e.keyRec j = s.dev.keyRec j) ∧ KeepsObjs [(slotObj k, 2)] s.dev e
        ∧ KeepsBlobs [(slotObj k, 3), (slotObj k, 5), (slotObj k, 0xB)] s.dev e
        ∧ e = { s.dev with objs := e.objs, blobs := e.blobs, keys := e.keys, freeIdx := e.freeIdx, status := 0 })
  ∧ (∀ (s : State) (role : Role) (v : Nat), Accepts s.dev role (slotObj 8) 8 (.num v) (generateRules s.dev role 8 v) →
      (v = 1 → Completes (.generate role 8 v) s fun e => e.status = 0
        ∧ (∃ x c : Bytes, x.length = 57 ∧ c.length = 16 ∧ e.keyRec 8 = { s.dev.keyRec 8 with pend := some x, challenge := some c }
            ∧ e.getB (slotObj 8) 5 = c ++ padTo 57 (ed448Public x)
                ++ padTo 114 (ed448Sign x keyContext (c ++ [8#8] ++ natLE 4 (s.dev.get (slotObj 8) 7 + 1))))
        ∧ (∀ j, j ≠ 8 → e.keyRec j = s.dev.keyRec j) ∧ KeepsObjs [(slotObj 8, 2), (0x4D80, 2)] s.dev e
        ∧ KeepsBlobs [(slotObj 8, 3), (slotObj 8, 5), (slotObj 8, 0xB), (0x4D80, 5)] s.dev e)
      ∧ (v ≠ 1 → Completes (.generate role 8 v) s fun e => e = { s.dev with status := 0 }))
  ∧ (∀ (s : State) (role : Role) (k : Fin 128) (v : Bytes), Accepts s.dev role (slotObj k) 6 (.raw v) (proofRules s.dev role k v) →
      (k.val = 8 → s.dev.readingsWait 1 = true → s.dev.proofRight k v = true → Completes (.proof role k v) s fun e =>
        e = { s.dev with status := 0, reads := { s.dev.reads with switchDue := true } })
      ∧ (k.val ≠ 8 ∨ s.dev.readingsWait 1 = false → s.dev.proofRight k v = true → Completes (.proof role k v) s fun e =>
        e.keyRec k = { active := (s.dev.keyRec k).pend, pend := none, challenge := none } ∧ e.status = 0 ∧ e.evPending 17 = true
        ∧ e.get (slotObj k) 7 = min (2 ^ 32 - 1) (s.dev.get (slotObj k) 7 + 1) ∧ e.get (slotObj k) 0xC = s.dev.now + 1
        ∧ e.get 0x2400 1 = (s.dev.get 0x2400 1 + 1) % 2 ^ 32
        ∧ (16 ≤ k.val → k.val ≤ 19 → e.get 0x1104 (k - 15) = 0 ∧ tfind e.dict.srcs (k - 16) = none)
        ∧ (∀ j, j ≠ k.val → e.keyRec j = s.dev.keyRec j)
        ∧ (k.val ≠ 8 → KeepsObjs ([(slotObj k, 2), (slotObj k, 7), (slotObj k, 0xC), (0x1104, k.val - 15), evObj 17] ++ skeinObjs) s.dev e
            ∧ KeepsBlobs [(slotObj k, 3), (slotObj k, 0xB)] s.dev e))
      ∧ (s.dev.proofRight k v = false → Completes (.proof role k v) s fun e =>
          e.status = 8 ∧ e.get (slotObj k) 0xA = satAdd 32 (s.dev.get (slotObj k) 0xA) 1
          ∧ (∃ c : Bytes, c.length = 16 ∧ e.keyRec k = { s.dev.keyRec k with challenge := some c })
          ∧ (∀ j, j ≠ k.val → e.keyRec j = s.dev.keyRec j) ∧ KeepsObjs [(slotObj k, 0xA)] s.dev e ∧ KeepsBlobs [(slotObj k, 5)] s.dev e))
  ∧ (∀ (s : State) (role : Role) (k : Fin 128) (v : Nat), Accepts s.dev role (slotObj k) 9 (.num v) (destroyRules s.dev role k v) →
      Completes (.destroy role k v) s fun e => e.status = 0
        ∧ (v = 1 → (k.val = 8 → ∀ r, r ∈ e.reads.queue → r.sig = none → r.key = []) ∧ e.keyRec k = {} ∧ e.get (slotObj k) 2 = 0 ∧ (∀ j, j ≠ k.val → e.keyRec j = s.dev.keyRec j)
            ∧ KeepsObjs [(slotObj k, 2), (0x4D80, 2)] s.dev e ∧ KeepsBlobs [(slotObj k, 3), (slotObj k, 0xB), (0x4D80, 5)] s.dev e)
        ∧ (v ≠ 1 → e = { s.dev with status := 0 }))
  ∧ (∀ (s : State) (role : Role), s.dev.trans = none →
      let asked := fun (dst : Nat) (e : Dev) =>
        e = { s.dev with status := 0, trans := some { target := dst, role := roleCode role, readings := [], signed := true } }
      (Accepts s.dev role 0x2200 2 (.num 1) (transRules s.dev role 1) → Completes (.provision role) s (asked 1))
      ∧ (Accepts s.dev role 0x2200 2 (.num 2) (transRules s.dev role 2) → Completes (.seal role) s (asked 2))
      ∧ (Accepts s.dev role 0x2200 2 (.num 3) (transRules s.dev role 3) → Completes (.enterService role) s (asked 3))
      ∧ (Accepts s.dev role 0x2200 2 (.num 4) (transRules s.dev role 4) → s.dev.key 8 = none → Completes (.retire role) s fun e =>
          e = { s.dev with status := 0, trans := some { target := 4, role := roleCode role, readings := [], signed := false } })
      ∧ (Accepts s.dev role 0x2200 2 (.num 4) (transRules s.dev role 4) → s.dev.signs = true → s.dev.readingsWait 36 = true → Completes (.retire role) s fun e =>
          e = { s.dev with status := 0, trans := some { target := 4, role := roleCode role, readings := [], signed := true, owed := true } })
      ∧ (Accepts s.dev role 0x2200 2 (.num 4) (transRules s.dev role 4) → s.dev.signs = true → s.dev.readingsWait 36 = false →
          ReadingsDone s.dev → s.dev.reads.snaps = [] → Completes (.retire role) s fun e =>
          (∃ rs : List Nat, e.trans = some { target := 4, role := roleCode role, readings := rs, signed := true }
            ∧ e.reads.next = s.dev.reads.next + rs.length ∧ (∀ n, n ∈ rs ↔ s.dev.reads.next ≤ n ∧ n < e.reads.next))
          ∧ e.status = 0 ∧ KeepsObjs [(0x4D80, 3), (0x4D80, 7)] s.dev e
          ∧ e = { s.dev with objs := e.objs, reads := e.reads, trans := e.trans, freeIdx := e.freeIdx, status := 0 }))
  ∧ (∀ (s : State) (t : TransRec), s.dev.trans = some t → s.dev.dict.queue = [] →
      (t.owed = true → Completes .lifecycleTransition s fun e => e = s.dev)
      ∧ (t.owed = false → t.readings = [] → t.target = 2 → Completes .lifecycleTransition s fun e =>
        e.life = 2 ∧ e.trans = none ∧ e.evPending 16 = true ∧ e.get 0x2200 3 = satAdd 32 (s.dev.get 0x2200 3) 1
        ∧ e.get 0x2200 4 = s.dev.now + 1 ∧ e.get 0x2200 5 = satAdd 32 (s.dev.get 0x2200 5) 1 ∧ s.dev.get 0x4D40 1 + 2 ≤ e.get 0x4D40 1
        ∧ KeepsObjs ([(0x2200, 1), (0x2200, 3), (0x2200, 4), (0x2200, 5), (0x4D80, 2), evObj 16] ++ eventObjs ++ (List.range 128).map fun k => (slotObj k, 2)) s.dev e)
      ∧ (t.owed = false → t.readings = [] → t.target ≤ 4 → t.target ≠ 2 → Completes .lifecycleTransition s fun e =>
        e.life = t.target ∧ e.trans = none ∧ e.evPending 16 = true ∧ e.get 0x2200 3 = satAdd 32 (s.dev.get 0x2200 3) 1
        ∧ e.get 0x2200 4 = s.dev.now + 1 ∧ e.get 0x4D40 1 = s.dev.get 0x4D40 1 + 1
        ∧ (∀ k, k < 128 → s.dev.slotUsed k = true → (s.dev.slotAttr k).testBit (16 + t.target) = true → e.keyRec k = {})
        ∧ (∀ k, k < 128 → (s.dev.slotAttr k).testBit (16 + t.target) = false → e.keyRec k = s.dev.keyRec k)
        ∧ KeepsObjs ([(0x2200, 1), (0x2200, 3), (0x2200, 4), (0x4D80, 2), evObj 16] ++ eventObjs ++ (List.range 128).map fun k => (slotObj k, 2)) s.dev e)
      ∧ (∀ n r, n ∈ t.readings → r ∈ s.dev.reads.queue → r.number = n → Completes .lifecycleTransition s fun e => e = s.dev))

/-- Firmware update: image blocks, their chain around the ring, verification, metrology pieces, and activation to its end (R580, R581, R582,
R583, R584, R585, R586, R587, R588, R590, R591, R592). -/
def Obligations.FirmwareUpdate : Prop :=
  (∀ (s : State) (role : Role) (v : Bytes), Accepts s.dev role 0x2330 1 (.raw v) (blockRules s.dev v) →
      let k := byteAt v 0
      let no := leAt v 4 4
      let b := v.drop 8
      let x := s.dev.image k
      let sent := fun (e : Dev) =>
        (s.dev.get 0x2330 2 ≠ 1 ∨ s.dev.successor = none → e.upd.unacked = s.dev.upd.unacked ∧ e.upd.waiting = s.dev.upd.waiting)
        ∧ (∀ q, s.dev.get 0x2330 2 = 1 → s.dev.successor = some q → s.dev.upd.unacked.length < 16 →
            e.upd.unacked = s.dev.upd.unacked ++ [⟨q, s.dev.now, ringBlockPayload k s.dev.position no (e.image k).header b⟩])
      (no = 0 → Completes (.imageBlock role v) s fun e =>
        e.image k = { x with header := padTo 256 b, blocks := tset (x.blocks.filter fun y => y.1 / 16 != 0) 0 b, stored := [0], erased := [0],
                               running := true, origin := none } ∧ e.status = 0
        ∧ e.get (imageIx k) 2 = leAt (padTo 256 b) 8 4 ∧ e.get (imageIx k) 5 = 1 ∧ e.get (imageIx k) 6 = 1
        ∧ e.get (imageIx k) 7 = min 65535 (blockCount (padTo 256 b)) ∧ sent e
        ∧ KeepsObjs [(imageIx k, 2), (imageIx k, 5), (imageIx k, 6), (imageIx k, 7), (0x2330, 3)] s.dev e)
      ∧ (no ≠ 0 → Completes (.imageBlock role v) s fun e =>
          e.image k = putBlock no b x ∧ tget [] (e.image k).blocks no = b ∧ no ∈ (e.image k).stored
          ∧ e.get (imageIx k) 6 = (e.image k).stored.length ∧ e.status = 0 ∧ sent e
          ∧ KeepsObjs [(imageIx k, 6)] s.dev e))
  ∧ (∀ (s : State) (p : Fin 2) (src : Fin 8) (b : Bytes),
      let k := byteAt b 0
      let o := byteAt b 1 % 8
      let no := leAt b 8 4
      let x := s.dev.image k
      s.dev.running = true → k = 1 ∨ k = 2 → b.length = 4160 →
      (s.dev.activatingKind k = true → Completes (.updateBlock p src b) s fun e =>
        e = { s.dev with ring := { s.dev.ring with seq := e.ring.seq }, ports := e.ports })
      ∧ (s.dev.activatingKind k = false → no ≠ 0 →
      let forwarded := fun (e : Dev) =>
        (s.dev.successor = some o → e.upd.unacked = s.dev.upd.unacked ∧ e.upd.waiting = s.dev.upd.waiting)
        ∧ (∀ q, s.dev.successor = some q → q ≠ o → s.dev.upd.unacked.length < 16 → e.upd.unacked = s.dev.upd.unacked ++ [⟨q, s.dev.now, b⟩])
        ∧ e = { s.dev with objs := e.objs, upd := e.upd, ring := { s.dev.ring with seq := e.ring.seq }, ports := e.ports }
      (leAt b 4 4 ≤ s.dev.get (imageIx k) 3 → Completes (.updateBlock p src b) s fun e =>
        e.upd.images = s.dev.upd.images ∧ forwarded e ∧ KeepsObjs [] s.dev e)
      ∧ (s.dev.get (imageIx k) 3 < leAt b 4 4 → leAt x.header 8 4 = leAt b 4 4 → sliceB b 16 16 = padTo 16 (shake256 16 x.header) →
        x.running = true → no < blockCount x.header → s.dev.flashFails k no = false → Completes (.updateBlock p src b) s fun e =>
        e.image k = { putBlock no (b.drop 64) x with origin := some o }
        ∧ e.get (imageIx k) 6 = (e.image k).stored.length
        ∧ forwarded e ∧ KeepsObjs [(imageIx k, 6)] s.dev e)))
  ∧ (∀ (s : State) (src : Fin 8) (b : Bytes), s.dev.running = true →
      (leAt b 4 4 = 0xFFFFFFFF → Completes (.updateAcknowledgement src b) s fun e =>
        SetsBit 0x2330 3 src true s.dev e ∧ KeepsObjs [(0x2330, 3)] s.dev e ∧ OnlyObjs s.dev e)
      ∧ (leAt b 4 4 ≠ 0xFFFFFFFF → s.dev.upd.waiting = [] → Completes (.updateAcknowledgement src b) s fun e =>
          (∀ x, x ∈ e.upd.unacked ↔ x ∈ s.dev.upd.unacked
            ∧ ¬(x.dst = src.val ∧ byteAt x.payload 0 = byteAt b 0 ∧ leAt x.payload 8 4 = leAt b 4 4))
          ∧ e = { s.dev with upd := { s.dev.upd with unacked := e.upd.unacked } }))
  ∧ (∀ (s : State) (x : RingBlk), s.dev.running = true → s.dev.upd.unacked = [x] →
      (x.at' + 64 ≤ s.dev.now → Completes .ringBlockResend s fun e =>
        e.upd = { s.dev.upd with unacked := [{ x with at' := s.dev.now }] } ∧ e.get 0x2330 4 = satAdd 32 (s.dev.get 0x2330 4) 1
        ∧ (s.dev.refused = false → s.dev.portRun (s.dev.portTo x.dst) = true → x.dst ≠ 0xFF →
            (e.port (s.dev.portTo x.dst)).sent.head? = some (ringBytes 0x30 s.dev.position x.dst 7 (s.dev.ring.seq % 65536) x.payload))
        ∧ KeepsObjs [(0x2330, 4)] s.dev e)
      ∧ (s.dev.now < x.at' + 64 → Completes .ringBlockResend s fun e => e = s.dev))
  ∧ (∀ (s : State) (i : Fin 3),
      let k := i.val + 1
      let x := s.dev.image k
      let st := if padTo 64 (shake256 64 (imageBody x)) = sliceB x.header 24 64 then 2 else 3
      s.dev.running = true → x.running = true → x.stored.length = blockCount x.header → x.origin = none → s.dev.successor = none →
      Completes (.imageVerification i) s fun e => e.image k = { x with running := false } ∧ e.get (imageIx k) 5 = st ∧ e.evPending 18 = true
        ∧ e.get 0x2400 1 = (s.dev.get 0x2400 1 + 1) % 2 ^ 32 ∧ KeepsObjs ((imageIx k, 5) :: evObj 18 :: skeinObjs) s.dev e
        ∧ OnlyLogged { s.dev with upd := e.upd } e)
  ∧ (∀ (s : State) (l : Fin 3) (r kk : Bytes), s.dev.running = true → r.length = 80 → s.dev.key 17 = some kk → s.dev.activatingKind 3 = false →
      let v := leAt r 0 4
      let no := leAt r 4 2
      (sliceB r 72 8 ≠ padTo 8 (aesCmac kk (r.take 72)) → Completes (.metrologyImagePiece l r) s fun e =>
        e.get 0x2320 5 = satAdd 32 (s.dev.get 0x2320 5) 1 ∧ KeepsObjs [(0x2320, 5)] s.dev e ∧ OnlyObjs s.dev e)
      ∧ (sliceB r 72 8 = padTo 8 (aesCmac kk (r.take 72)) → s.dev.get (imageIx 3) 3 < v → s.dev.get 0x2320 1 < v → 4 ≤ no → no < leAt r 6 2 →
          leAt r 6 2 ≤ 4096 → Completes (.metrologyImagePiece l r) s fun e =>
            e.upd = { s.dev.upd with pieces := [(no, sliceB r 8 64)] } ∧ e.get 0x2320 1 = v ∧ e.get 0x2320 2 = leAt r 6 2 ∧ e.get 0x2320 3 = 1
            ∧ (∀ n, n < 4096 → (byteAt (e.getB 0x2320 4) (n / 8)).testBit (n % 8) = decide (n = no))
            ∧ KeepsObjs [(0x2320, 1), (0x2320, 2), (0x2320, 3), (0x2320, 6)] s.dev e ∧ KeepsBlobs [(0x2320, 4)] s.dev e))
  ∧ (∀ (s : State) (role : Role) (v : Bytes), Accepts s.dev role 0x2300 1 (.raw v) (activateRules s.dev role v) → Completes (.activate role v) s fun e =>
      e.get 0x2300 2 = byteAt v 0 + 4 ∧ KeepsObjs [(0x2300, 2)] s.dev e
      ∧ e = { s.dev with objs := e.objs, status := 0, upd := { s.dev.upd with role := roleCode role } })
  ∧ (∀ (s : State) (i : Fin 3),
      let k := i.val + 1
      let x := s.dev.image k
      let old := s.dev.activeHeader k
      let swapped := fun (st : Nat) (e : Dev) =>
        e.image k = { x with active := some x.header, activeBlocks := x.blocks, header := old, blocks := x.activeBlocks,
                               stored := [], erased := [], running := false } ∧ e.get (imageIx k) 1 = leAt x.header 8 4
        ∧ e.get (imageIx k) 2 = leAt old 8 4 ∧ e.get (imageIx k) 4 = 1 - s.dev.get (imageIx k) 4 ∧ e.get (imageIx k) 5 = st
      (s.dev.running = true → s.dev.get 0x2300 2 = k + 4 → k ≠ 3 ∨ s.dev.civil.valid = false → Completes .activationPause s fun e =>
        swapped 4 e ∧ e.get 0x2300 2 = k + 8 ∧ e.upd.since = s.dev.now + 1)
      ∧ (∀ us, s.dev.dict.queue = [] → s.dev.upd.back = false → s.dev.get 0x2300 2 = k + 8 ∨ s.dev.get 0x2300 2 = k + 12 → Completes (.activationConfirmed us) s fun e =>
          e.get (imageIx k) 3 = max (s.dev.get (imageIx k) 1) (s.dev.get (imageIx k) 3) ∧ e.get 0x2300 2 = 0 ∧ e.evPending 19 = true
          ∧ e.get (imageIx k) 8 = satAdd 32 (s.dev.get (imageIx k) 8) 1 ∧ e.get (imageIx k) 9 = s.dev.now + 1 ∧ e.get (imageIx k) 0xA = us
          ∧ e.get 0x4D40 1 = s.dev.get 0x4D40 1 + 1
          ∧ KeepsObjs ([(imageIx k, 3), (imageIx k, 8), (imageIx k, 9), (imageIx k, 0xA), (0x2300, 2), evObj 19] ++ eventObjs) s.dev e
          ∧ e.upd.bootUse = (if s.dev.upd.bootUse = 0 then 1 else 0)
          ∧ OnlyLogged { s.dev with upd := { s.dev.upd with boot := e.upd.boot, bootUse := e.upd.bootUse } } e)
      ∧ (s.dev.dict.queue = [] → s.dev.upd.back = false → s.dev.get 0x2300 2 = k + 8 ∨ s.dev.get 0x2300 2 = k + 12 →
          s.dev.upd.since + pauseBound k + 3200 ≤ s.dev.now + 1 → Completes .activationRevert s fun e =>
            swapped 3 e ∧ e.get 0x2300 2 = k + 8 ∧ e.upd.back = true ∧ e.upd.since = s.dev.now + 1 ∧ e.get (imageIx k) 3 = s.dev.get (imageIx k) 3 ∧ e.get 0x4D40 1 = s.dev.get 0x4D40 1 + 1))

/-- The debug port: identification, authentication, halt, resume, step, status, and breakpoints (R599, R600, R601, R602, R603, R604, R605,
R606, R607, R608). -/
def Obligations.DebugPort : Prop :=
  (∀ (s : State) (t : Byte) (n i : Nat) (b : Bytes), s.dev.debugAwake = true →
      let bad := Responds 1 t [] s.dev.dbg s.dev
      Completes (.debugIdentify false t) s bad ∧ Completes (.debugChallenge false t) s bad ∧ Completes (.debugAuthenticate false t b) s bad
      ∧ Completes (.debugHalt false t) s bad ∧ Completes (.debugResume false t) s bad ∧ Completes (.debugStep false t) s bad
      ∧ Completes (.debugStatus false t) s bad ∧ Completes (.setBreakpoint false t i b) s bad ∧ Completes (.clearBreakpoint false t i) s bad
      ∧ Completes (.debugRead false t i n) s bad ∧ Completes (.debugWrite false t i b) s bad ∧ Completes (.debugReset false t) s bad)
  ∧ (∀ (s : State) (t : Byte), s.dev.debugAwake = true →
      let x := s.dev.dbg
      Completes (.debugIdentify true t) s (Responds 0 t (natLE 4 (s.dev.get 0x1018 2) ++ natLE 4 (s.dev.get 0x1018 3) ++ natLE 4 (s.dev.get 0x1018 4)
          ++ natLE 1 s.dev.life ++ natLE 1 (b2n x.auth)) x s.dev)
      ∧ Completes (.debugStatus true t) s (Responds 0 t (natLE 1 (maskOf [x.halted, x.pending, x.stepping]) ++ natLE 1 x.cause ++ natLE 1 x.index
          ++ zeros 1 ++ natLE 8 s.dev.now ++ natLE 4 x.addr ++ natLE 4 x.data ++ natLE 2 x.cycle) x s.dev)
      ∧ Completes (.debugChallenge true t) s (fun e => ∃ c : Bytes, c.length = 16
          ∧ Responds 0 t c { x with challenge := some c } { s.dev with freeIdx := s.dev.freeIdx + 1 } e)
      ∧ Completes .debugAuthenticationIdle s (fun e => e.dbg = { x with auth := false } ∧ e.get 0x2440 1 = maskOf [false, false, x.halted]
          ∧ KeepsObjs [(0x2440, 1)] s.dev e ∧ e = { s.dev with objs := e.objs, dbg := e.dbg }))
  ∧ (∀ (s : State) (t : Byte) (m : Bytes), s.dev.debugAwake = true → m.length = 16 →
      let x := s.dev.dbg
      (8 ≤ x.fails → Completes (.debugAuthenticate true t m) s (Responds 3 t [] x s.dev))
      ∧ (x.fails < 8 → s.dev.debugMacRight m = true → Completes (.debugAuthenticate true t m) s (Responds 0 t [] { x with auth := true } s.dev))
      ∧ (x.fails < 8 → s.dev.debugMacRight m = false → Completes (.debugAuthenticate true t m) s fun e =>
          (∃ c : Bytes, c.length = 16 ∧ e.dbg = { x with challenge := some c, fails := x.fails + 1, resp := debugResponse 3 t [] })
          ∧ e.evPending 7 = true ∧ e.get 0x2440 4 = satAdd 32 (s.dev.get 0x2440 4) 1 ∧ KeepsObjs [(0x2440, 1), (0x2440, 4), evObj 7] s.dev e
          ∧ e = { s.dev with objs := e.objs, dbg := e.dbg, freeIdx := s.dev.freeIdx + 1 }))
  ∧ (∀ (s : State) (t : Byte) (i : Nat) (b : Bytes), s.dev.debugAwake = true →
      let x := s.dev.dbg
      (s.dev.mayHalt = false → Completes (.debugHalt true t) s (Responds 3 t [] x s.dev) ∧ Completes (.debugResume true t) s (Responds 3 t [] x s.dev)
        ∧ Completes (.debugStep true t) s (Responds 3 t [] x s.dev) ∧ Completes (.setBreakpoint true t i b) s (Responds 3 t [] x s.dev)
        ∧ Completes (.clearBreakpoint true t i) s (Responds 3 t [] x s.dev))
      ∧ (s.dev.mayHalt = true →
          (s.dev.haltable = false → Completes (.debugHalt true t) s (Responds 5 t [] x s.dev))
          ∧ (s.dev.haltable = true → x.halted = false → x.pending = false → Completes (.debugHalt true t) s
              (Responds 0 t [] { x with pending := true, cause := 0, index := 0, addr := 0, data := 0, cycle := 0 } s.dev))
          ∧ Completes (.debugResume true t) s (Responds 0 t [] { x with resuming := x.halted || x.pending } s.dev)
          ∧ (s.dev.supply.warning = true ∨ (x.halted = false ∧ x.pending = false) → Completes (.debugStep true t) s (Responds 5 t [] x s.dev))
          ∧ (s.dev.supply.warning = false → x.halted = true ∨ x.pending = true → Completes (.debugStep true t) s
              (Responds 0 t [] { x with stepping := true } s.dev))
          ∧ (i ≤ 15 → b.length = 16 → Completes (.setBreakpoint true t i b) s fun e => tfind e.dbg.points i = some b
              ∧ (∀ j, j ≠ i → tfind e.dbg.points j = tfind x.points j) ∧ Responds 0 t [] { x with points := e.dbg.points } s.dev e)
          ∧ (i ≤ 15 → Completes (.clearBreakpoint true t i) s fun e => tfind e.dbg.points i = none
              ∧ (∀ j, j ≠ i → tfind e.dbg.points j = tfind x.points j) ∧ Responds 0 t [] { x with points := e.dbg.points } s.dev e)))
  ∧ (∀ (s : State) (i : Fin 16) (w : Bool) (a v c : Nat) (b : Bytes), s.dev.running = true → tfind s.dev.dbg.points i = some b →
      s.dev.pointMatches b w a v = true →
      (s.dev.haltable = false → Completes (.breakpointMatch i w a v c) s fun e =>
        e.get 0x2440 3 = satAdd 32 (s.dev.get 0x2440 3) 1 ∧ KeepsObjs [(0x2440, 3)] s.dev e ∧ OnlyObjs s.dev e)
      ∧ (s.dev.haltable = true → s.dev.dbg.pending = false → Completes (.breakpointMatch i w a v c) s fun e =>
          e = { s.dev with dbg := { s.dev.dbg with pending := true, cause := 1, index := i, addr := a % 2 ^ 32, data := v % 2 ^ 32, cycle := c % 65536 } })
      ∧ (s.dev.haltable = true → s.dev.dbg.pending = true → s.dev.dbg.cause = 1 →
          s.dev.dbg.cycle < c ∨ (s.dev.dbg.cycle = c ∧ s.dev.dbg.index ≤ i.val) → Completes (.breakpointMatch i w a v c) s fun e => e = s.dev))

/-- Debug reads and writes, the debug reset, boundary scan, and the codewords of the memories (R600, R602, R609, R610, R614, R615, R302,
R298). -/
def Obligations.DebugAccessAndScan : Prop :=
  (∀ (s : State) (t : Byte) (a n : Nat), s.dev.debugAwake = true →
      let x := s.dev.dbg
      let bytes := (List.range n).map fun i => if inMirror (a + i) then s.dev.mirrorByte (a + i - Config.mirrorBase) else memGet s.mem (a + i)
      (debugLen n = false → Completes (.debugRead true t a n) s (Responds 1 t [] x s.dev))
      ∧ (debugLen n = true → readable a n = false → Completes (.debugRead true t a n) s (Responds 4 t [] x s.dev))
      ∧ (debugLen n = true → readable a n = true → s.dev.mayReadAll = false → runAll inMirror a n = false →
          Completes (.debugRead true t a n) s (Responds 3 t [] x s.dev))
      ∧ (debugLen n = true → readable a n = true → s.dev.mayReadAll = true ∨ runAll inMirror a n = true → inFabric a = false →
          Completes (.debugRead true t a n) s (Responds 0 t bytes x s.dev))
      ∧ (debugLen n = true → readable a n = true → s.dev.mayReadAll = true → inFabric a = true → Completes (.debugRead true t a n) s fun e =>
          ∃ b : Bytes, b.length = n ∧ Responds 0 t b x { s.dev with freeIdx := s.dev.freeIdx + 1 } e))
  ∧ (∀ (s : State) (t : Byte) (a : Nat) (b : Bytes), s.dev.debugAwake = true →
      let st := debugWriteStatus a b.length s.dev
      (st ≠ 0 → Completes (.debugWrite true t a b) s (Responds st t [] s.dev.dbg s.dev))
      ∧ (st = 0 → s.canonical → ∃ e m, exec (.debugWrite true t a b) s = .next { s with dev := e, mem := m } ∧ Responds 0 t [] s.dev.dbg s.dev e
          ∧ ∀ y, memGet m y = if a ≤ y ∧ y < a + b.length then b.getD (y - a) 0 else memGet s.mem y))
  ∧ (∀ (s : State) (t : Byte), s.dev.debugAwake = true →
      (s.dev.mayReset = true → Completes (.debugReset true t) s fun e => e.dbg.resp = debugResponse 0 t [] ∧ e.dbg.auth = false ∧ e.dbg.points = []
        ∧ e.loom = .inReset ∧ e.supply.cause = 8 ∧ e.hold.active = true)
      ∧ (s.dev.mayReset = false → Completes (.debugReset true t) s (Responds 3 t [] s.dev.dbg s.dev)))
  ∧ (∀ (s : State) (x y : Bytes), s.dev.loom ≠ .unpowered →
      let j := s.dev.jtag
      Completes .bypass s (fun e => e = { s.dev with jtag := { j with instr := 0xFF, shift := [0], hold := false } })
      ∧ Completes .idcode s (fun e => e = { s.dev with jtag := { j with instr := 1, shift := natLE 4 0x13240A4F, hold := false } })
      ∧ Completes (.samplePreload x y) s (fun e =>
          e = { s.dev with jtag := { j with instr := 2, shift := x, captured := x, preload := y, hold := false } })
      ∧ (s.dev.life ≠ 0 →
          let passed := fun e : Dev => e = { s.dev with jtag := { j with instr := 0xFF, shift := [0], hold := false } }
          Completes .extest s passed ∧ Completes .clamp s passed ∧ Completes .highz s passed)
      ∧ (s.dev.life = 0 → s.dev.loom = .running → j.hold = false →
          let held := fun (k : Nat) (z : Bytes) (e : Dev) =>
            e.jtag = { j with instr := k, shift := z, hold := true } ∧ e.loom = .inReset ∧ e.supply.cause = 8 ∧ e.hold.active = true
          Completes .extest s (held 3 j.captured) ∧ Completes .clamp s (held 4 [0]) ∧ Completes .highz s (held 5 [0])))
  ∧ (∀ (s : State) (m : Fin 3) (pl : MemPlace) (a : Nat) (w : Bytes), s.dev.debugAwake = true → w.length = 40 →
      (rsBytes 8 w [] = some w → Completes (.memoryScrub m pl a w true) s (fun e => e.get (0x2420 + m) 6 = (s.dev.get (0x2420 + m) 6 + 1) % 2 ^ 32
            ∧ KeepsObjs [(0x2420 + m.val, 6)] s.dev e ∧ OnlyObjs s.dev e)
        ∧ Completes (.memoryScrub m pl a w false) s fun e => e = s.dev)
      ∧ (∀ v, rsBytes 8 w [] = some v → v ≠ w → Completes (.memoryScrub m pl a w false) s fun e =>
          e.get (0x2420 + m) 1 = satAdd 32 (s.dev.get (0x2420 + m) 1) 1 ∧ e.get (0x2420 + m) 3 = a % 2 ^ 32 ∧ e.evPending 0 = true
          ∧ KeepsObjs [(0x2420 + m.val, 1), (0x2420 + m.val, 3), evObj 0] s.dev e ∧ OnlyObjs s.dev e)
      ∧ (rsBytes 8 w [] = none →
          let lost := fun (e : Dev) => e.get (0x2420 + m) 2 = satAdd 32 (s.dev.get (0x2420 + m) 2) 1 ∧ e.get (0x2420 + m) 4 = a % 2 ^ 32
            ∧ e.get (0x2420 + m) 5 = s.dev.now ∧ e.evPending 1 = true ∧ e.get 0x2400 1 = (s.dev.get 0x2400 1 + 1) % 2 ^ 32
          let objs := [(0x2420 + m.val, 2), (0x2420 + m.val, 4), (0x2420 + m.val, 5), evObj 1] ++ skeinObjs
          (∀ k, Completes (.memoryScrub m (.image k) a w false) s fun e => lost e ∧ KeepsObjs objs s.dev e ∧ OnlyLogged s.dev e)
          ∧ (∀ (k : Fin 128) (p : Bool), Completes (.memoryScrub m (.bobbin k p) a w false) s fun e => lost e
              ∧ e.keyRec k = (if p = true then { s.dev.keyRec k with pend := none } else { s.dev.keyRec k with active := none })
              ∧ (∀ i, i ≠ k.val → e.keyRec i = s.dev.keyRec i) ∧ KeepsObjs ((slotObj k, 2) :: (0x4D80, 2) :: objs) s.dev e)
          ∧ (∀ u, Completes (.memoryScrub m (.endpoint u) a w false) s fun e => lost e ∧ tfind e.mesh.table u = none
              ∧ (∀ i, i ≠ u → tfind e.mesh.table i = tfind s.dev.mesh.table i) ∧ KeepsObjs (meshObjs ++ objs) s.dev e)
          ∧ (∀ l : Fin 3, Completes (.memoryScrub m (.frame l) a w false) s fun e => lost e ∧ (e.lane l).ready = (s.dev.lane l).ready.drop 1
              ∧ (∀ i, i ≠ l.val → e.lane i = s.dev.lane i) ∧ KeepsObjs objs s.dev e)
          ∧ (∀ (v : Fin 16) (n : Nat), v.val ≠ 7 → Completes (.memoryScrub m (.record v n) a w false) s fun e => lost e
              ∧ (e.vc v).out = (s.dev.vc v).out.eraseIdx n ∧ (∀ i, i ≠ v.val → i ≠ 7 → e.vc i = s.dev.vc i) ∧ KeepsObjs objs s.dev e)
          ∧ (s.dev.loom = .running → Completes (.memoryScrub m .fabric a w false) s fun e =>
              e.loom = .inReset ∧ e.supply.cause = 6 ∧ e.hold.active = true)))
end

