-- ==== Sys2Proof/Laws/Each.lean ====
section
/-! SUPPORT. What holds of a loop over numbered units when it holds of each of its steps. -/
namespace Sys2Proof.Machine

/-- What every step leaves as it was, the loop leaves as it was. -/
theorem eachN_keeps {α : Type} (g : Dev → α) (f : Nat → Dev → Dev) (l : List Nat) (h : ∀ i, i ∈ l → ∀ d, g (f i d) = g d) (d : Dev) :
    g (eachN l f d) = g d := by
  induction l generalizing d with
  | nil => rfl
  | cons i r ih =>
    have hr := ih (fun j hj => h j (List.mem_cons_of_mem i hj)) (f i d)
    exact hr.trans (h i List.mem_cons_self d)

/-- What every step leaves as it was, the loop leaves as it was. -/
theorem each_keeps {α : Type} (g : Dev → α) (n : Nat) (f : Nat → Dev → Dev) (h : ∀ i, i < n → ∀ d, g (f i d) = g d) (d : Dev) :
    g (each n f d) = g d :=
  eachN_keeps g f _ (fun i hi => h i (List.mem_range.mp hi)) d

/-- What every step preserves, the loop preserves. -/
theorem eachN_preserves (P : Dev → Prop) (f : Nat → Dev → Dev) (l : List Nat) (h : ∀ i, i ∈ l → ∀ d, P d → P (f i d)) (d : Dev) (hd : P d) :
    P (eachN l f d) := by
  induction l generalizing d with
  | nil => exact hd
  | cons i r ih => exact ih (fun j hj => h j (List.mem_cons_of_mem i hj)) (f i d) (h i List.mem_cons_self d hd)

/-- What every step preserves, the loop preserves. -/
theorem each_preserves (P : Dev → Prop) (n : Nat) (f : Nat → Dev → Dev) (h : ∀ i, i < n → ∀ d, P d → P (f i d)) (d : Dev) (hd : P d) :
    P (each n f d) :=
  eachN_preserves P f _ (fun i hi => h i (List.mem_range.mp hi)) d hd

theorem each_succ (n : Nat) (f : Nat → Dev → Dev) (d : Dev) : each (n + 1) f d = f n (each n f d) := by
  simp [each, eachN, List.range_succ]

/-- Where step `i` works on unit `i` alone, the loop does to each unit what its step does. -/
theorem each_at {α : Type} (g : Nat → Dev → α) (f : Nat → Dev → Dev) (k : Nat → α → α) (hs : ∀ i d, g i (f i d) = k i (g i d))
    (ho : ∀ i j d, j ≠ i → g j (f i d) = g j d) (n j : Nat) (d : Dev) : g j (each n f d) = if j < n then k j (g j d) else g j d := by
  induction n with
  | zero => simp [each, eachN]
  | succ n ih =>
    rw [each_succ]
    by_cases h : j = n
    · subst h
      rw [hs, ih, if_neg (Nat.lt_irrefl _), if_pos (Nat.lt_succ_self _)]
    · rw [ho n j _ h, ih]
      have : (j < n) ↔ (j < n + 1) := by omega
      simp only [this]

end Sys2Proof.Machine
end

