-- ==== Sys2Proof/Laws/Tab.lean ====
section
/-! SUPPORT. Reading a table after writing it. The laws hold of every table, sorted or not. -/
namespace Sys2Proof.Machine

variable {α : Type}

@[simp] theorem tfind_tset_same (t : Tab α) (k : Nat) (v : α) : tfind (tset t k v) k = some v := by
  induction t with
  | nil => simp [tset, tfind]
  | cons e r ih =>
    obtain ⟨q, w⟩ := e
    simp only [tset]
    split
    · simp [tfind]
    · split
      · simp [tfind]
      · rename_i h _
        simp [tfind, Ne.symm h, ih]

theorem tfind_tset_ne (t : Tab α) (k j : Nat) (v : α) (h : k ≠ j) : tfind (tset t k v) j = tfind t j := by
  induction t with
  | nil => simp [tset, tfind, h]
  | cons e r ih =>
    obtain ⟨q, w⟩ := e
    simp only [tset]
    split
    · rename_i hq
      subst hq
      simp [tfind, h]
    · split
      · simp [tfind, h]
      · simp [tfind, ih]

theorem tfind_tset (t : Tab α) (k j : Nat) (v : α) : tfind (tset t k v) j = if k = j then some v else tfind t j := by
  by_cases h : k = j
  · subst h; simp
  · simp [h, tfind_tset_ne t k j v h]

theorem tget_eq_tfind (d : α) (t : Tab α) (k : Nat) : tget d t k = (tfind t k).getD d := by
  induction t with
  | nil => rfl
  | cons e r ih =>
    obtain ⟨q, w⟩ := e
    by_cases h : q = k <;> simp [tget, tfind, h, ih]

@[simp] theorem tget_tset_same (d : α) (t : Tab α) (k : Nat) (v : α) : tget d (tset t k v) k = v := by
  simp [tget_eq_tfind]

theorem tget_tset_ne (d : α) (t : Tab α) (k j : Nat) (v : α) (h : k ≠ j) : tget d (tset t k v) j = tget d t j := by
  simp [tget_eq_tfind, tfind_tset_ne t k j v h]

theorem tget_tset (d : α) (t : Tab α) (k j : Nat) (v : α) : tget d (tset t k v) j = if k = j then v else tget d t j := by
  by_cases h : k = j
  · subst h; simp
  · simp [h, tget_tset_ne d t k j v h]

theorem tdel_cons (q : Nat) (w : α) (r : Tab α) (k : Nat) : tdel ((q, w) :: r) k = if q = k then tdel r k else (q, w) :: tdel r k := by
  by_cases h : q = k <;> simp [tdel, h]

theorem tfind_tdel_same (t : Tab α) (k : Nat) : tfind (tdel t k) k = none := by
  induction t with
  | nil => rfl
  | cons e r ih =>
    obtain ⟨q, w⟩ := e
    by_cases h : q = k <;> simp [tdel_cons, h, tfind, ih]

theorem tfind_tdel_ne (t : Tab α) (k j : Nat) (h : k ≠ j) : tfind (tdel t k) j = tfind t j := by
  induction t with
  | nil => rfl
  | cons e r ih =>
    obtain ⟨q, w⟩ := e
    by_cases hq : q = k
    · subst hq
      simp [tdel_cons, tfind, h, ih]
    · simp [tdel_cons, hq, tfind, ih]

end Sys2Proof.Machine
end

