-- ==== Sys2Proof/Laws/State.lean ====
section
/-! SUPPORT. What each update of the part leaves as it was, field by field, and what reading an object gives after writing one. -/
namespace Sys2Proof.Machine

/-! ## Objects -/

theorem okey_inj {ix sub ix' sub' : Nat} (h : sub < 256) (h' : sub' < 256) : okey ix sub = okey ix' sub' ↔ ix = ix' ∧ sub = sub' := by
  unfold okey; omega

@[simp] theorem Dev.get_set_same (d : Dev) (ix sub v : Nat) : (d.set ix sub v).get ix sub = v := by
  simp [Dev.get, Dev.set]

theorem Dev.get_set_ne (d : Dev) (ix sub v ix' sub' : Nat) (h : okey ix sub ≠ okey ix' sub') :
    (d.set ix sub v).get ix' sub' = d.get ix' sub' := by
  simp [Dev.get, Dev.set, tfind_tset_ne _ _ _ _ h]

theorem Dev.get_set (d : Dev) (ix sub v ix' sub' : Nat) :
    (d.set ix sub v).get ix' sub' = if okey ix sub = okey ix' sub' then v else d.get ix' sub' := by
  by_cases h : okey ix sub = okey ix' sub'
  · simp [Dev.get, Dev.set, h]
  · simp [h, Dev.get_set_ne d ix sub v ix' sub' h]

@[simp] theorem Dev.getB_setB_same (d : Dev) (ix sub : Nat) (v : Bytes) : (d.setB ix sub v).getB ix sub = v := by
  simp [Dev.getB, Dev.setB]

theorem Dev.getB_setB_ne (d : Dev) (ix sub : Nat) (v : Bytes) (ix' sub' : Nat) (h : okey ix sub ≠ okey ix' sub') :
    (d.setB ix sub v).getB ix' sub' = d.getB ix' sub' := by
  simp [Dev.getB, Dev.setB, tfind_tset_ne _ _ _ _ h]

@[simp] theorem Dev.get_setB (d : Dev) (ix sub : Nat) (v : Bytes) (ix' sub' : Nat) : (d.setB ix sub v).get ix' sub' = d.get ix' sub' := rfl
@[simp] theorem Dev.getB_set (d : Dev) (ix sub v ix' sub' : Nat) : (d.set ix sub v).getB ix' sub' = d.getB ix' sub' := rfl
@[simp] theorem Dev.get_answer (d : Dev) (st ix sub : Nat) : (d.answer st).get ix sub = d.get ix sub := rfl
@[simp] theorem Dev.getB_answer (d : Dev) (st ix sub : Nat) : (d.answer st).getB ix sub = d.getB ix sub := rfl
@[simp] theorem Dev.get_fresh (d : Dev) (n ix sub : Nat) : (d.fresh n).2.get ix sub = d.get ix sub := rfl
@[simp] theorem Dev.get_freshBytes (d : Dev) (n ix sub : Nat) : (d.freshBytes n).2.get ix sub = d.get ix sub := rfl
@[simp] theorem Dev.answer_status (d : Dev) (st : Nat) : (d.answer st).status = st := rfl

/-! ## Setting a numeric object -/

@[simp] theorem Dev.set_now (d : Dev) (ix sub v : Nat) : (d.set ix sub v).now = d.now := rfl
@[simp] theorem Dev.set_freeIdx (d : Dev) (ix sub v : Nat) : (d.set ix sub v).freeIdx = d.freeIdx := rfl
@[simp] theorem Dev.set_status (d : Dev) (ix sub v : Nat) : (d.set ix sub v).status = d.status := rfl
@[simp] theorem Dev.set_blobs (d : Dev) (ix sub v : Nat) : (d.set ix sub v).blobs = d.blobs := rfl
@[simp] theorem Dev.set_loom (d : Dev) (ix sub v : Nat) : (d.set ix sub v).loom = d.loom := rfl
@[simp] theorem Dev.set_supply (d : Dev) (ix sub v : Nat) : (d.set ix sub v).supply = d.supply := rfl
@[simp] theorem Dev.set_hold (d : Dev) (ix sub v : Nat) : (d.set ix sub v).hold = d.hold := rfl
@[simp] theorem Dev.set_tick (d : Dev) (ix sub v : Nat) : (d.set ix sub v).tick = d.tick := rfl
@[simp] theorem Dev.set_links (d : Dev) (ix sub v : Nat) : (d.set ix sub v).links = d.links := rfl
@[simp] theorem Dev.set_chans (d : Dev) (ix sub v : Nat) : (d.set ix sub v).chans = d.chans := rfl
@[simp] theorem Dev.set_locks (d : Dev) (ix sub v : Nat) : (d.set ix sub v).locks = d.locks := rfl
@[simp] theorem Dev.set_profs (d : Dev) (ix sub v : Nat) : (d.set ix sub v).profs = d.profs := rfl
@[simp] theorem Dev.set_cals (d : Dev) (ix sub v : Nat) : (d.set ix sub v).cals = d.cals := rfl
@[simp] theorem Dev.set_meters (d : Dev) (ix sub v : Nat) : (d.set ix sub v).meters = d.meters := rfl
@[simp] theorem Dev.set_pulses (d : Dev) (ix sub v : Nat) : (d.set ix sub v).pulses = d.pulses := rfl
@[simp] theorem Dev.set_demand (d : Dev) (ix sub v : Nat) : (d.set ix sub v).demand = d.demand := rfl
@[simp] theorem Dev.set_bill (d : Dev) (ix sub v : Nat) : (d.set ix sub v).bill = d.bill := rfl
@[simp] theorem Dev.set_reads (d : Dev) (ix sub v : Nat) : (d.set ix sub v).reads = d.reads := rfl
@[simp] theorem Dev.set_keys (d : Dev) (ix sub v : Nat) : (d.set ix sub v).keys = d.keys := rfl
@[simp] theorem Dev.set_civil (d : Dev) (ix sub v : Nat) : (d.set ix sub v).civil = d.civil := rfl
@[simp] theorem Dev.set_tamper (d : Dev) (ix sub v : Nat) : (d.set ix sub v).tamper = d.tamper := rfl
@[simp] theorem Dev.set_log (d : Dev) (ix sub v : Nat) : (d.set ix sub v).log = d.log := rfl
@[simp] theorem Dev.set_vcs (d : Dev) (ix sub v : Nat) : (d.set ix sub v).vcs = d.vcs := rfl
@[simp] theorem Dev.set_hank (d : Dev) (ix sub v : Nat) : (d.set ix sub v).hank = d.hank := rfl
@[simp] theorem Dev.set_capt (d : Dev) (ix sub v : Nat) : (d.set ix sub v).capt = d.capt := rfl
@[simp] theorem Dev.set_host (d : Dev) (ix sub v : Nat) : (d.set ix sub v).host = d.host := rfl
@[simp] theorem Dev.set_mbox (d : Dev) (ix sub v : Nat) : (d.set ix sub v).mbox = d.mbox := rfl
@[simp] theorem Dev.set_dict (d : Dev) (ix sub v : Nat) : (d.set ix sub v).dict = d.dict := rfl
@[simp] theorem Dev.set_loads (d : Dev) (ix sub v : Nat) : (d.set ix sub v).loads = d.loads := rfl
@[simp] theorem Dev.set_budget (d : Dev) (ix sub v : Nat) : (d.set ix sub v).budget = d.budget := rfl
@[simp] theorem Dev.set_groups (d : Dev) (ix sub v : Nat) : (d.set ix sub v).groups = d.groups := rfl
@[simp] theorem Dev.set_prots (d : Dev) (ix sub v : Nat) : (d.set ix sub v).prots = d.prots := rfl
@[simp] theorem Dev.set_outs (d : Dev) (ix sub v : Nat) : (d.set ix sub v).outs = d.outs := rfl
@[simp] theorem Dev.set_alloc (d : Dev) (ix sub v : Nat) : (d.set ix sub v).alloc = d.alloc := rfl
@[simp] theorem Dev.set_ports (d : Dev) (ix sub v : Nat) : (d.set ix sub v).ports = d.ports := rfl
@[simp] theorem Dev.set_ring (d : Dev) (ix sub v : Nat) : (d.set ix sub v).ring = d.ring := rfl
@[simp] theorem Dev.set_axes (d : Dev) (ix sub v : Nat) : (d.set ix sub v).axes = d.axes := rfl
@[simp] theorem Dev.set_whorl (d : Dev) (ix sub v : Nat) : (d.set ix sub v).whorl = d.whorl := rfl
@[simp] theorem Dev.set_disps (d : Dev) (ix sub v : Nat) : (d.set ix sub v).disps = d.disps := rfl
@[simp] theorem Dev.set_lanes (d : Dev) (ix sub v : Nat) : (d.set ix sub v).lanes = d.lanes := rfl
@[simp] theorem Dev.set_mesh (d : Dev) (ix sub v : Nat) : (d.set ix sub v).mesh = d.mesh := rfl
@[simp] theorem Dev.set_readers (d : Dev) (ix sub v : Nat) : (d.set ix sub v).readers = d.readers := rfl
@[simp] theorem Dev.set_unresolved (d : Dev) (ix sub v : Nat) : (d.set ix sub v).unresolved = d.unresolved := rfl
@[simp] theorem Dev.set_arb (d : Dev) (ix sub v : Nat) : (d.set ix sub v).arb = d.arb := rfl
@[simp] theorem Dev.set_trans (d : Dev) (ix sub v : Nat) : (d.set ix sub v).trans = d.trans := rfl
@[simp] theorem Dev.set_upd (d : Dev) (ix sub v : Nat) : (d.set ix sub v).upd = d.upd := rfl
@[simp] theorem Dev.set_dbg (d : Dev) (ix sub v : Nat) : (d.set ix sub v).dbg = d.dbg := rfl
@[simp] theorem Dev.set_jtag (d : Dev) (ix sub v : Nat) : (d.set ix sub v).jtag = d.jtag := rfl

/-! ## Setting a byte-string object -/

@[simp] theorem Dev.setB_now (d : Dev) (ix sub : Nat) (v : Bytes) : (d.setB ix sub v).now = d.now := rfl
@[simp] theorem Dev.setB_freeIdx (d : Dev) (ix sub : Nat) (v : Bytes) : (d.setB ix sub v).freeIdx = d.freeIdx := rfl
@[simp] theorem Dev.setB_status (d : Dev) (ix sub : Nat) (v : Bytes) : (d.setB ix sub v).status = d.status := rfl
@[simp] theorem Dev.setB_objs (d : Dev) (ix sub : Nat) (v : Bytes) : (d.setB ix sub v).objs = d.objs := rfl
@[simp] theorem Dev.setB_loom (d : Dev) (ix sub : Nat) (v : Bytes) : (d.setB ix sub v).loom = d.loom := rfl
@[simp] theorem Dev.setB_supply (d : Dev) (ix sub : Nat) (v : Bytes) : (d.setB ix sub v).supply = d.supply := rfl
@[simp] theorem Dev.setB_hold (d : Dev) (ix sub : Nat) (v : Bytes) : (d.setB ix sub v).hold = d.hold := rfl
@[simp] theorem Dev.setB_tick (d : Dev) (ix sub : Nat) (v : Bytes) : (d.setB ix sub v).tick = d.tick := rfl
@[simp] theorem Dev.setB_links (d : Dev) (ix sub : Nat) (v : Bytes) : (d.setB ix sub v).links = d.links := rfl
@[simp] theorem Dev.setB_chans (d : Dev) (ix sub : Nat) (v : Bytes) : (d.setB ix sub v).chans = d.chans := rfl
@[simp] theorem Dev.setB_locks (d : Dev) (ix sub : Nat) (v : Bytes) : (d.setB ix sub v).locks = d.locks := rfl
@[simp] theorem Dev.setB_profs (d : Dev) (ix sub : Nat) (v : Bytes) : (d.setB ix sub v).profs = d.profs := rfl
@[simp] theorem Dev.setB_cals (d : Dev) (ix sub : Nat) (v : Bytes) : (d.setB ix sub v).cals = d.cals := rfl
@[simp] theorem Dev.setB_meters (d : Dev) (ix sub : Nat) (v : Bytes) : (d.setB ix sub v).meters = d.meters := rfl
@[simp] theorem Dev.setB_pulses (d : Dev) (ix sub : Nat) (v : Bytes) : (d.setB ix sub v).pulses = d.pulses := rfl
@[simp] theorem Dev.setB_demand (d : Dev) (ix sub : Nat) (v : Bytes) : (d.setB ix sub v).demand = d.demand := rfl
@[simp] theorem Dev.setB_bill (d : Dev) (ix sub : Nat) (v : Bytes) : (d.setB ix sub v).bill = d.bill := rfl
@[simp] theorem Dev.setB_reads (d : Dev) (ix sub : Nat) (v : Bytes) : (d.setB ix sub v).reads = d.reads := rfl
@[simp] theorem Dev.setB_keys (d : Dev) (ix sub : Nat) (v : Bytes) : (d.setB ix sub v).keys = d.keys := rfl
@[simp] theorem Dev.setB_civil (d : Dev) (ix sub : Nat) (v : Bytes) : (d.setB ix sub v).civil = d.civil := rfl
@[simp] theorem Dev.setB_tamper (d : Dev) (ix sub : Nat) (v : Bytes) : (d.setB ix sub v).tamper = d.tamper := rfl
@[simp] theorem Dev.setB_log (d : Dev) (ix sub : Nat) (v : Bytes) : (d.setB ix sub v).log = d.log := rfl
@[simp] theorem Dev.setB_vcs (d : Dev) (ix sub : Nat) (v : Bytes) : (d.setB ix sub v).vcs = d.vcs := rfl
@[simp] theorem Dev.setB_hank (d : Dev) (ix sub : Nat) (v : Bytes) : (d.setB ix sub v).hank = d.hank := rfl
@[simp] theorem Dev.setB_capt (d : Dev) (ix sub : Nat) (v : Bytes) : (d.setB ix sub v).capt = d.capt := rfl
@[simp] theorem Dev.setB_host (d : Dev) (ix sub : Nat) (v : Bytes) : (d.setB ix sub v).host = d.host := rfl
@[simp] theorem Dev.setB_mbox (d : Dev) (ix sub : Nat) (v : Bytes) : (d.setB ix sub v).mbox = d.mbox := rfl
@[simp] theorem Dev.setB_dict (d : Dev) (ix sub : Nat) (v : Bytes) : (d.setB ix sub v).dict = d.dict := rfl
@[simp] theorem Dev.setB_loads (d : Dev) (ix sub : Nat) (v : Bytes) : (d.setB ix sub v).loads = d.loads := rfl
@[simp] theorem Dev.setB_budget (d : Dev) (ix sub : Nat) (v : Bytes) : (d.setB ix sub v).budget = d.budget := rfl
@[simp] theorem Dev.setB_groups (d : Dev) (ix sub : Nat) (v : Bytes) : (d.setB ix sub v).groups = d.groups := rfl
@[simp] theorem Dev.setB_prots (d : Dev) (ix sub : Nat) (v : Bytes) : (d.setB ix sub v).prots = d.prots := rfl
@[simp] theorem Dev.setB_outs (d : Dev) (ix sub : Nat) (v : Bytes) : (d.setB ix sub v).outs = d.outs := rfl
@[simp] theorem Dev.setB_alloc (d : Dev) (ix sub : Nat) (v : Bytes) : (d.setB ix sub v).alloc = d.alloc := rfl
@[simp] theorem Dev.setB_ports (d : Dev) (ix sub : Nat) (v : Bytes) : (d.setB ix sub v).ports = d.ports := rfl
@[simp] theorem Dev.setB_ring (d : Dev) (ix sub : Nat) (v : Bytes) : (d.setB ix sub v).ring = d.ring := rfl
@[simp] theorem Dev.setB_axes (d : Dev) (ix sub : Nat) (v : Bytes) : (d.setB ix sub v).axes = d.axes := rfl
@[simp] theorem Dev.setB_whorl (d : Dev) (ix sub : Nat) (v : Bytes) : (d.setB ix sub v).whorl = d.whorl := rfl
@[simp] theorem Dev.setB_disps (d : Dev) (ix sub : Nat) (v : Bytes) : (d.setB ix sub v).disps = d.disps := rfl
@[simp] theorem Dev.setB_lanes (d : Dev) (ix sub : Nat) (v : Bytes) : (d.setB ix sub v).lanes = d.lanes := rfl
@[simp] theorem Dev.setB_mesh (d : Dev) (ix sub : Nat) (v : Bytes) : (d.setB ix sub v).mesh = d.mesh := rfl
@[simp] theorem Dev.setB_readers (d : Dev) (ix sub : Nat) (v : Bytes) : (d.setB ix sub v).readers = d.readers := rfl
@[simp] theorem Dev.setB_unresolved (d : Dev) (ix sub : Nat) (v : Bytes) : (d.setB ix sub v).unresolved = d.unresolved := rfl
@[simp] theorem Dev.setB_arb (d : Dev) (ix sub : Nat) (v : Bytes) : (d.setB ix sub v).arb = d.arb := rfl
@[simp] theorem Dev.setB_trans (d : Dev) (ix sub : Nat) (v : Bytes) : (d.setB ix sub v).trans = d.trans := rfl
@[simp] theorem Dev.setB_upd (d : Dev) (ix sub : Nat) (v : Bytes) : (d.setB ix sub v).upd = d.upd := rfl
@[simp] theorem Dev.setB_dbg (d : Dev) (ix sub : Nat) (v : Bytes) : (d.setB ix sub v).dbg = d.dbg := rfl
@[simp] theorem Dev.setB_jtag (d : Dev) (ix sub : Nat) (v : Bytes) : (d.setB ix sub v).jtag = d.jtag := rfl

/-! ## Recording the status of a write -/

@[simp] theorem Dev.answer_now (d : Dev) (st : Nat) : (d.answer st).now = d.now := rfl
@[simp] theorem Dev.answer_freeIdx (d : Dev) (st : Nat) : (d.answer st).freeIdx = d.freeIdx := rfl
@[simp] theorem Dev.answer_objs (d : Dev) (st : Nat) : (d.answer st).objs = d.objs := rfl
@[simp] theorem Dev.answer_blobs (d : Dev) (st : Nat) : (d.answer st).blobs = d.blobs := rfl
@[simp] theorem Dev.answer_loom (d : Dev) (st : Nat) : (d.answer st).loom = d.loom := rfl
@[simp] theorem Dev.answer_supply (d : Dev) (st : Nat) : (d.answer st).supply = d.supply := rfl
@[simp] theorem Dev.answer_hold (d : Dev) (st : Nat) : (d.answer st).hold = d.hold := rfl
@[simp] theorem Dev.answer_tick (d : Dev) (st : Nat) : (d.answer st).tick = d.tick := rfl
@[simp] theorem Dev.answer_links (d : Dev) (st : Nat) : (d.answer st).links = d.links := rfl
@[simp] theorem Dev.answer_chans (d : Dev) (st : Nat) : (d.answer st).chans = d.chans := rfl
@[simp] theorem Dev.answer_locks (d : Dev) (st : Nat) : (d.answer st).locks = d.locks := rfl
@[simp] theorem Dev.answer_profs (d : Dev) (st : Nat) : (d.answer st).profs = d.profs := rfl
@[simp] theorem Dev.answer_cals (d : Dev) (st : Nat) : (d.answer st).cals = d.cals := rfl
@[simp] theorem Dev.answer_meters (d : Dev) (st : Nat) : (d.answer st).meters = d.meters := rfl
@[simp] theorem Dev.answer_pulses (d : Dev) (st : Nat) : (d.answer st).pulses = d.pulses := rfl
@[simp] theorem Dev.answer_demand (d : Dev) (st : Nat) : (d.answer st).demand = d.demand := rfl
@[simp] theorem Dev.answer_bill (d : Dev) (st : Nat) : (d.answer st).bill = d.bill := rfl
@[simp] theorem Dev.answer_reads (d : Dev) (st : Nat) : (d.answer st).reads = d.reads := rfl
@[simp] theorem Dev.answer_keys (d : Dev) (st : Nat) : (d.answer st).keys = d.keys := rfl
@[simp] theorem Dev.answer_civil (d : Dev) (st : Nat) : (d.answer st).civil = d.civil := rfl
@[simp] theorem Dev.answer_tamper (d : Dev) (st : Nat) : (d.answer st).tamper = d.tamper := rfl
@[simp] theorem Dev.answer_log (d : Dev) (st : Nat) : (d.answer st).log = d.log := rfl
@[simp] theorem Dev.answer_vcs (d : Dev) (st : Nat) : (d.answer st).vcs = d.vcs := rfl
@[simp] theorem Dev.answer_hank (d : Dev) (st : Nat) : (d.answer st).hank = d.hank := rfl
@[simp] theorem Dev.answer_capt (d : Dev) (st : Nat) : (d.answer st).capt = d.capt := rfl
@[simp] theorem Dev.answer_host (d : Dev) (st : Nat) : (d.answer st).host = d.host := rfl
@[simp] theorem Dev.answer_mbox (d : Dev) (st : Nat) : (d.answer st).mbox = d.mbox := rfl
@[simp] theorem Dev.answer_dict (d : Dev) (st : Nat) : (d.answer st).dict = d.dict := rfl
@[simp] theorem Dev.answer_loads (d : Dev) (st : Nat) : (d.answer st).loads = d.loads := rfl
@[simp] theorem Dev.answer_budget (d : Dev) (st : Nat) : (d.answer st).budget = d.budget := rfl
@[simp] theorem Dev.answer_groups (d : Dev) (st : Nat) : (d.answer st).groups = d.groups := rfl
@[simp] theorem Dev.answer_prots (d : Dev) (st : Nat) : (d.answer st).prots = d.prots := rfl
@[simp] theorem Dev.answer_outs (d : Dev) (st : Nat) : (d.answer st).outs = d.outs := rfl
@[simp] theorem Dev.answer_alloc (d : Dev) (st : Nat) : (d.answer st).alloc = d.alloc := rfl
@[simp] theorem Dev.answer_ports (d : Dev) (st : Nat) : (d.answer st).ports = d.ports := rfl
@[simp] theorem Dev.answer_ring (d : Dev) (st : Nat) : (d.answer st).ring = d.ring := rfl
@[simp] theorem Dev.answer_axes (d : Dev) (st : Nat) : (d.answer st).axes = d.axes := rfl
@[simp] theorem Dev.answer_whorl (d : Dev) (st : Nat) : (d.answer st).whorl = d.whorl := rfl
@[simp] theorem Dev.answer_disps (d : Dev) (st : Nat) : (d.answer st).disps = d.disps := rfl
@[simp] theorem Dev.answer_lanes (d : Dev) (st : Nat) : (d.answer st).lanes = d.lanes := rfl
@[simp] theorem Dev.answer_mesh (d : Dev) (st : Nat) : (d.answer st).mesh = d.mesh := rfl
@[simp] theorem Dev.answer_readers (d : Dev) (st : Nat) : (d.answer st).readers = d.readers := rfl
@[simp] theorem Dev.answer_unresolved (d : Dev) (st : Nat) : (d.answer st).unresolved = d.unresolved := rfl
@[simp] theorem Dev.answer_arb (d : Dev) (st : Nat) : (d.answer st).arb = d.arb := rfl
@[simp] theorem Dev.answer_trans (d : Dev) (st : Nat) : (d.answer st).trans = d.trans := rfl
@[simp] theorem Dev.answer_upd (d : Dev) (st : Nat) : (d.answer st).upd = d.upd := rfl
@[simp] theorem Dev.answer_dbg (d : Dev) (st : Nat) : (d.answer st).dbg = d.dbg := rfl
@[simp] theorem Dev.answer_jtag (d : Dev) (st : Nat) : (d.answer st).jtag = d.jtag := rfl

/-! ## Lifting and conditions -/

@[simp] theorem Dev.when_true (d : Dev) (f : Dev → Dev) : d.when true f = f d := rfl
@[simp] theorem Dev.when_false (d : Dev) (f : Dev → Dev) : d.when false f = d := rfl
theorem Dev.when_pos {b : Bool} (h : b = true) (f : Dev → Dev) (d : Dev) : d.when b f = f d := by simp [h]
theorem Dev.when_neg {b : Bool} (h : b = false) (f : Dev → Dev) (d : Dev) : d.when b f = d := by simp [h]

/-- A command that works on the part alone answers a next state with the queue and the memory as they were. -/
theorem onDev_next (f : Dev → Dev) (s : State) : onDev f s = .next { s with dev := f s.dev } := rfl
/-- An event of the working part, while it works. -/
theorem onRun_next (f : Dev → Dev) (s : State) (h : s.dev.running = true) : onRun f s = .next { s with dev := f s.dev } := by
  simp [onRun, onDev, h]

/-! ## Writes -/

/-- All that a write can do: nothing where the part does not act, the status where it is refused, else the effect and status 0. -/
theorem writeObj_cases (role : Role) (ix sub : Nat) (v : Val) (x : Rules) (eff : Dev → Dev) (d : Dev) :
    (d.acts ix = false ∧ writeObj role ix sub v x eff d = d)
    ∨ (d.acts ix = true ∧ writeStatus d role ix sub v x ≠ 0 ∧ writeObj role ix sub v x eff d = d.answer (writeStatus d role ix sub v x))
    ∨ (d.acts ix = true ∧ writeStatus d role ix sub v x = 0 ∧ writeObj role ix sub v x eff d = (eff d).answer 0) := by
  unfold writeObj
  cases h : d.acts ix
  · exact .inl ⟨rfl, by simp⟩
  · by_cases hs : writeStatus d role ix sub v x = 0
    · exact .inr (.inr ⟨rfl, hs, by simp [hs]⟩)
    · exact .inr (.inl ⟨rfl, hs, by simp [hs]⟩)

theorem writeObj_done (role : Role) (ix sub : Nat) (v : Val) (x : Rules) (eff : Dev → Dev) (d : Dev)
    (ha : d.acts ix = true) (hs : writeStatus d role ix sub v x = 0) : writeObj role ix sub v x eff d = (eff d).answer 0 := by
  simp [writeObj, ha, hs]

theorem writeObj_refused (role : Role) (ix sub : Nat) (v : Val) (x : Rules) (eff : Dev → Dev) (d : Dev)
    (ha : d.acts ix = true) (hs : writeStatus d role ix sub v x ≠ 0) :
    writeObj role ix sub v x eff d = d.answer (writeStatus d role ix sub v x) := by
  simp [writeObj, ha, hs]

end Sys2Proof.Machine
end

