-- ==== Sys2Proof/Laws/Arbiter.lean ====
section
/-! SUPPORT. What the passing of fabric cycles and the display of the arbiter change, and that a locked run short of its limit goes on. -/
namespace Sys2Proof.Machine

/-! ## Changes of the arbiter alone -/

theorem OnlyArb.refl (but : List (Nat × Nat)) (d : Dev) : OnlyArb but d d := ⟨fun _ _ _ _ => rfl, rfl⟩

theorem OnlyArb.trans {but : List (Nat × Nat)} {d e f : Dev} (h : OnlyArb but d e) (k : OnlyArb but e f) : OnlyArb but d f := by
  refine ⟨fun ix sub hs hn => (k.1 ix sub hs hn).trans (h.1 ix sub hs hn), ?_⟩
  have hk := k.2
  rw [h.2] at hk
  exact hk

/-- One of the arbiter's own objects is set. -/
theorem OnlyArb.set (d : Dev) (ix sub v : Nat) (hs : sub < 256) (hm : (ix, sub) ∈ arbObjs) : OnlyArb [] d (d.set ix sub v) := by
  refine ⟨fun ix' sub' hs' hn => Dev.get_set_ne _ _ _ _ _ _ fun hk => ?_, rfl⟩
  obtain ⟨rfl, rfl⟩ := (okey_inj hs hs').mp hk
  exact hn (List.mem_append_left _ hm)

/-- The arbiter's record alone is set. -/
theorem OnlyArb.arb (d : Dev) (a : ArbRec) : OnlyArb [] d { d with arb := a } := ⟨fun _ _ _ _ => rfl, rfl⟩

theorem mem_arbObjs_req {q : Nat} (h : q < 38) (sub : Nat) (hs : sub = 3 ∨ sub = 0xA ∨ sub = 0xB) : (reqIx q, sub) ∈ arbObjs := by
  refine List.mem_append_left _ (List.mem_flatMap.mpr ⟨q, List.mem_range.mpr h, ?_⟩)
  rcases hs with rfl | rfl | rfl <;> simp

theorem mem_arbObjs_svc {v : Nat} (h : v < 6) (sub : Nat) (hs : sub = 1 ∨ sub = 2) : (svcIx v, sub) ∈ arbObjs := by
  refine List.mem_append_right _ (List.mem_flatMap.mpr ⟨v, List.mem_range.mpr h, ?_⟩)
  rcases hs with rfl | rfl <;> simp

/-! ## The passing of cycles -/

/-- What is said of a requester's cycles is its counter and the arbiter's record. -/
theorem settleReq_only (c q : Nat) (h : q < 38) (d : Dev) : OnlyArb [] d (settleReq c q d) := by
  simp only [settleReq]
  split
  · exact OnlyArb.refl _ _
  · exact (OnlyArb.set _ _ _ _ (by decide) (mem_arbObjs_req h 3 (.inl rfl))).trans (OnlyArb.arb _ _)

/-- What is said of a service's cycles is its count and the arbiter's record. -/
theorem settleSvc_only (c v : Nat) (h : v < 6) (d : Dev) : OnlyArb [] d (settleSvc c v d) := by
  unfold settleSvc
  simp only
  split
  · exact OnlyArb.refl _ _
  · exact (OnlyArb.set _ _ _ _ (by decide) (mem_arbObjs_svc h 2 (.inr rfl))).trans (OnlyArb.arb _ _)

theorem settle_only (c : Nat) (d : Dev) : OnlyArb [] d (settle c d) := by
  unfold settle
  have h1 := each_preserves (OnlyArb [] d) 6 (settleSvc c) (fun v hv e he => he.trans (settleSvc_only c v hv e)) d (OnlyArb.refl _ _)
  have h2 := each_preserves (OnlyArb [] d) 38 (settleReq c) (fun q hq e he => he.trans (settleReq_only c q hq e)) _ h1
  exact h2.trans (OnlyArb.arb _ _)

theorem refill_only (d : Dev) : OnlyArb [] d (refill d) := by
  unfold refill
  refine OnlyArb.trans (each_preserves (OnlyArb [] d) 38 _ (fun q hq e he => he.trans ?_) d (OnlyArb.refl _ _)) (OnlyArb.arb _ _)
  exact OnlyArb.set _ _ _ _ (by decide) (mem_arbObjs_req hq 3 (.inl rfl))

/-- Cycles that pass, with their refills, change the arbiter alone. -/
theorem arbGo_only (f c : Nat) (d : Dev) : OnlyArb [] d (arbGo f c d) := by
  induction f generalizing d with
  | zero => exact settle_only c d
  | succ f ih =>
    unfold arbGo
    split
    · exact ((settle_only _ _).trans (refill_only _)).trans (ih _)
    · exact settle_only c d

/-- The grant of a service, the cycle of its decision, and what waits. -/
def Dev.contestOf (d : Dev) (v : Nat) : Option ArbReq × Nat × List ArbReq := ((d.svc v).grant, (d.svc v).decided, (d.svc v).waiting)

theorem contestOf_settleReq (c q v : Nat) (d : Dev) : (settleReq c q d).contestOf v = d.contestOf v := by
  simp only [settleReq]
  split <;> rfl

theorem contestOf_settleSvc (c u v : Nat) (d : Dev) : (settleSvc c u d).contestOf v = d.contestOf v := by
  unfold settleSvc
  simp only
  split
  · rfl
  · by_cases h : u = v
    · subst h
      simp [Dev.contestOf, Dev.svc, Dev.setSvc, Dev.satInc, Dev.set]
    · simp [Dev.contestOf, Dev.svc, Dev.setSvc, Dev.satInc, Dev.set, tget_tset_ne _ _ _ _ _ h]

theorem contestOf_cycle (d : Dev) (k v : Nat) : Dev.contestOf { d with arb := { d.arb with cycle := k } } v = d.contestOf v := rfl
theorem contestOf_refills (d : Dev) (k v : Nat) : Dev.contestOf { d with arb := { d.arb with refills := k } } v = d.contestOf v := rfl
theorem contestOf_set (d : Dev) (ix sub x v : Nat) : (d.set ix sub x).contestOf v = d.contestOf v := rfl

theorem contestOf_settle (c v : Nat) (d : Dev) : (settle c d).contestOf v = d.contestOf v := by
  simp only [settle]
  rw [contestOf_cycle, each_keeps (Dev.contestOf · v) 38 (settleReq c) fun q _ e => contestOf_settleReq c q v e,
    each_keeps (Dev.contestOf · v) 6 (settleSvc c) fun u _ e => contestOf_settleSvc c u v e]

theorem contestOf_refill (v : Nat) (d : Dev) : (refill d).contestOf v = d.contestOf v := by
  simp only [refill]
  rw [contestOf_refills, each_keeps (Dev.contestOf · v) 38 _ fun _ _ e => contestOf_set e _ _ _ v]

/-- Cycles that pass change no grant, no decision and no wait. -/
theorem contestOf_arbGo (f c v : Nat) (d : Dev) : (arbGo f c d).contestOf v = d.contestOf v := by
  induction f generalizing d with
  | zero => exact contestOf_settle c v d
  | succ f ih =>
    unfold arbGo
    split
    · rw [ih, contestOf_refill, contestOf_settle]
    · exact contestOf_settle c v d

/-- The display of services and requesters changes the arbiter's own objects alone. -/
theorem arbShow_only (d : Dev) : OnlyArb [] d (arbShow d) := by
  unfold arbShow
  refine each_preserves (OnlyArb [] d) 38 _ (fun q hq e he => he.trans ?_) _ (each_preserves (OnlyArb [] d) 6 _ (fun v hv e he => he.trans ?_) d (OnlyArb.refl _ _))
  · exact (OnlyArb.set _ _ _ _ (by decide) (mem_arbObjs_req hq 0xA (.inr (.inl rfl)))).trans
      (OnlyArb.set _ _ _ _ (by decide) (mem_arbObjs_req hq 0xB (.inr (.inr rfl))))
  · exact OnlyArb.set _ _ _ _ (by decide) (mem_arbObjs_svc hv 1 (.inl rfl))

/-! ## Locked runs -/

/-- The first end of a locked run is the end of some locked grant. -/
theorem Dev.runEnd_eq {d : Dev} {e : Nat} (h : d.runEnd = some e) :
    ∃ v g, v < 6 ∧ (d.svc v).grant = some g ∧ g.locked = true ∧ e = (d.svc v).decided + runLimit := by
  obtain ⟨v, hv, hr⟩ := List.mem_filterMap.mp (List.min?_mem h)
  unfold Dev.runOf at hr
  split at hr
  · rename_i g hg
    split at hr
    · rename_i hl
      exact ⟨v, g, List.mem_range.mp hv, hg, hl, (Option.some.inj hr).symm⟩
    · cases hr
  · cases hr

/-- The next event is the end of a locked grant or the dead cycle of a service. -/
theorem Dev.nextEvent_eq {d : Dev} {e : Nat} (h : d.nextEvent = some e) :
    (∃ v g, v < 6 ∧ (d.svc v).grant = some g ∧ g.locked = true ∧ e = (d.svc v).decided + runLimit) ∨ ∃ v, v < 6 ∧ d.dueOf v = some e := by
  rcases List.mem_append.mp (List.min?_mem h) with hm | hm
  · exact .inl (Dev.runEnd_eq (Option.mem_toList.mp hm))
  · obtain ⟨v, hv, hr⟩ := List.mem_filterMap.mp hm
    exact .inr ⟨v, List.mem_range.mp hv, hr⟩

/-- Where no locked run reaches its limit and no dead cycle decides, the cycles pass without either. -/
theorem arbPass_hold {d : Dev} {dt : Nat} (h : RunsHold d dt) :
    arbPass dt d = arbGo ((d.arb.cycle + dt) / 1024 + 1 - d.arb.refills) (d.arb.cycle + dt) d := by
  have key : ∀ f, arbTo f (d.arb.cycle + dt) d = arbGo ((d.arb.cycle + dt) / 1024 + 1 - d.arb.refills) (d.arb.cycle + dt) d := by
    intro f
    cases f with
    | zero => rfl
    | succ f =>
      unfold arbTo
      cases hr : d.nextEvent with
      | none => rfl
      | some e =>
        have hn : ¬e ≤ d.arb.cycle + dt := by
          rcases Dev.nextEvent_eq hr with ⟨v, g, hv, hg, hl, rfl⟩ | ⟨v, hv, hd⟩
          · have := h.1 v g hv hg hl
            omega
          · have := h.2 v e hv hd
            omega
        show (if e ≤ d.arb.cycle + dt then _ else _) = _
        rw [if_neg hn]
        rfl
  exact key _

theorem arbPass_only {d : Dev} {dt : Nat} (h : RunsHold d dt) : OnlyArb [] d (arbPass dt d) := by
  rw [arbPass_hold h]
  exact arbGo_only _ _ _

/-- The rank of the billing engine stays while what it follows stays. -/
theorem stagedRank_same {d : Dev} (h : d.stagedTop = d.arb.top) : stagedRank d = d := by
  simp [stagedRank, h]

end Sys2Proof.Machine
end

