-- ==== Sys2Proof/Laws/Bits.lean ====
section
/-! SUPPORT. Fields and bits of a number after writing them, and the little-endian bytes of a number. -/
namespace Sys2Proof.Machine

/-- The low bits below a field, the field, and the bits above it. -/
theorem split_field (n lo w : Nat) : n = n % 2 ^ lo + 2 ^ lo * (field n lo w) + 2 ^ (lo + w) * (n / 2 ^ (lo + w)) := by
  have h1 := Nat.div_add_mod n (2 ^ lo)
  have h2 := Nat.div_add_mod (n / 2 ^ lo) (2 ^ w)
  unfold field
  rw [Nat.pow_add, ← Nat.div_div_eq_div_mul]
  generalize n / 2 ^ lo / 2 ^ w = q at *
  generalize n / 2 ^ lo % 2 ^ w = r at *
  generalize n / 2 ^ lo = m at *
  subst h2
  rw [Nat.mul_add] at h1
  rw [Nat.mul_assoc]
  omega

/-- What writing a field leaves. -/
theorem setField_eq (n lo w v : Nat) :
    setField n lo w v = n % 2 ^ lo + 2 ^ lo * (v % 2 ^ w) + 2 ^ (lo + w) * (n / 2 ^ (lo + w)) := by
  have h := split_field n lo w
  unfold setField
  rw [Nat.mul_comm (field n lo w), Nat.mul_comm (v % 2 ^ w)]
  generalize 2 ^ lo * field n lo w = a at *
  generalize 2 ^ (lo + w) * (n / 2 ^ (lo + w)) = b at *
  omega

/-- A bit after writing a field. -/
theorem testBit_setField (n lo w v j : Nat) :
    (setField n lo w v).testBit j = if lo ≤ j ∧ j < lo + w then v.testBit (j - lo) else n.testBit j := by
  rw [setField_eq, Nat.add_assoc, Nat.pow_add, Nat.mul_assoc, ← Nat.mul_add, Nat.add_comm, Nat.testBit_two_pow_mul_add _ (Nat.mod_lt _ (Nat.two_pow_pos lo))]
  by_cases h1 : j < lo
  · simp [h1, Nat.testBit_mod_two_pow, Nat.not_le.mpr h1]
  · have h1' : lo ≤ j := Nat.not_lt.mp h1
    rw [if_neg h1, Nat.add_comm, Nat.testBit_two_pow_mul_add _ (Nat.mod_lt _ (Nat.two_pow_pos w))]
    by_cases h2 : j - lo < w
    · have : j < lo + w := by omega
      simp [h2, h1', this, Nat.testBit_mod_two_pow]
    · have : ¬ j < lo + w := by omega
      simp only [h2, if_false, h1', this, and_false, ← Nat.pow_add]
      rw [Nat.testBit_div_two_pow]
      congr 1; omega

/-- A bit after setting or clearing one. -/
theorem testBit_setBit (n i : Nat) (b : Bool) (j : Nat) : (setBit n i b).testBit j = if j = i then b else n.testBit j := by
  unfold setBit
  rw [testBit_setField]
  by_cases h : j = i
  · subst h; cases b <;> simp
  · have : ¬ (i ≤ j ∧ j < i + 1) := by omega
    rw [if_neg this, if_neg h]

/-- The little-endian bytes of a number give its residue. -/
theorem leNat_natLE (n v : Nat) : leNat (natLE n v) = v % 256 ^ n := by
  induction n generalizing v with
  | zero => simp [natLE, leNat, Nat.mod_one]
  | succ n ih =>
    simp only [natLE, leNat, ih, BitVec.toNat_ofNat]
    exact (by rw [Nat.pow_succ, Nat.mul_comm, Nat.mod_mul] : v % 256 ^ (n + 1) = v % 256 + 256 * (v / 256 % 256 ^ n)).symm

/-- A slice has the length asked for. -/
@[simp] theorem sliceB_length (b : Bytes) (o n : Nat) : (sliceB b o n).length = n := by
  simp only [sliceB, List.length_append, List.length_take, List.length_drop, List.length_replicate]; omega

/-- So many little-endian bytes. -/
@[simp] theorem natLE_length (n v : Nat) : (natLE n v).length = n := by
  induction n generalizing v with
  | zero => rfl
  | succ n ih => simp [natLE, ih]

theorem crc32Bit_lt {c : Nat} (h : c < 2 ^ 32) : crc32Bit c < 2 ^ 32 := by
  unfold crc32Bit
  split
  · exact Nat.xor_lt_two_pow (by omega) (by decide)
  · omega

theorem crc32Bits_lt (n : Nat) {c : Nat} (h : c < 2 ^ 32) : crc32Bits n c < 2 ^ 32 := by
  induction n generalizing c with
  | zero => exact h
  | succ n ih => exact ih (crc32Bit_lt h)

/-- A CRC-32 has 32 bits. -/
theorem crc32_lt (b : Bytes) : crc32 b < 2 ^ 32 := by
  unfold crc32
  refine Nat.xor_lt_two_pow ?_ (by decide)
  suffices ∀ c, c < 2 ^ 32 → b.foldl (fun c x => crc32Bits 8 (c ^^^ x.toNat)) c < 2 ^ 32 from this _ (by decide)
  induction b with
  | nil => exact fun c h => h
  | cons x r ih =>
    intro c h
    exact ih _ (crc32Bits_lt 8 (Nat.xor_lt_two_pow h (by have := x.isLt; omega)))

end Sys2Proof.Machine
end

