-- ==== Sys2Proof/Laws/Display.lean ====
section
/-! SUPPORT. The waveform table as shipped keeps the rules of 14 R423. -/
namespace Sys2Proof.Machine

/-- The element at place `i` of part `k` of a list made of parts of one length. -/
theorem getD_flatMap_range {α : Type} (f : Nat → List α) (m : Nat) (z : α) (h : ∀ k, (f k).length = m) (n k i : Nat) (hk : k < n) (hi : i < m) :
    ((List.range n).flatMap f).getD (m * k + i) z = (f k).getD i z := by
  have hlen : ∀ n, ((List.range n).flatMap f).length = m * n := by
    intro n
    induction n with
    | zero => simp
    | succ n ih => simp [List.range_succ, ih, h, Nat.mul_succ]
  induction n with
  | zero => omega
  | succ n ih =>
    rw [List.range_succ, List.flatMap_append]
    by_cases hn : k < n
    · have hm : m * k + i < m * n :=
        Nat.lt_of_lt_of_le (by rw [Nat.mul_succ]; omega : m * k + i < m * (k + 1)) (Nat.mul_le_mul_left m hn)
      rw [List.getD_eq_getElem?_getD, List.getElem?_append_left (by rw [hlen]; exact hm), ← List.getD_eq_getElem?_getD]
      exact ih hn
    · have : k = n := by omega
      subst this
      rw [List.getD_eq_getElem?_getD, List.getElem?_append_right (by rw [hlen]; omega), hlen, Nat.add_sub_cancel_left]
      simp

/-- The record of levels `i / 16` and `i % 16` of the table as shipped. -/
def shippedRecord (i : Nat) : Bytes := if i / 16 = i % 16 then zeros 49 else [1#8, BitVec.ofNat 8 (17 * (i % 16))] ++ zeros 47

theorem shipped_record_length (k : Nat) : (shippedRecord k).length = 49 := by
  unfold shippedRecord; split <;> rfl

theorem shipped_byte (k i : Nat) (hk : k < 256) (hi : i < 49) : byteAt defaultWaveform (49 * k + i) = byteAt (shippedRecord k) i := by
  unfold byteAt
  exact congrArg BitVec.toNat (getD_flatMap_range shippedRecord 49 0 shipped_record_length 256 k i hk hi)

theorem shipped_table_ok : waveTableOk defaultWaveform = true := by
  unfold waveTableOk
  rw [List.all_eq_true]
  intro j hj
  have hj : j < 256 := List.mem_range.mp hj
  have hb : ∀ i, i < 49 → waveByte defaultWaveform (j / 16) (j % 16) i = byteAt (shippedRecord j) i := by
    intro i hi
    have : 16 * (j / 16) + j % 16 = j := Nat.div_add_mod j 16
    unfold waveByte
    rw [this]
    exact shipped_byte j i hj hi
  have hc : ∀ j, j < 256 → (let r := shippedRecord j
      let len := byteAt r 0
      len < 49 ∧ (if j / 16 = j % 16 then len == 0 else decide (1 ≤ len ∧ len ≤ 48) && byteAt r len / 16 == j % 16)
        ∧ (List.range 48).all fun i => decide (i < len) || byteAt r (i + 1) == 0) := by decide +kernel
  obtain ⟨h1, h2, h3⟩ := hc j hj
  unfold waveRecOk
  simp only [hb 0 (by omega), hb _ h1, Bool.and_eq_true]
  refine ⟨h2, ?_⟩
  rw [List.all_eq_true] at h3 ⊢
  intro i hi
  have hi' := List.mem_range.mp hi
  rw [hb (i + 1) (by omega)]
  exact h3 i hi

end Sys2Proof.Machine
end

