-- ==== Sys2Proof/Laws/Flags.lean ====
section
/-! SUPPORT. What raising an event source, a record on a stream and an entry of a log change, and that they change nothing else. -/
namespace Sys2Proof.Machine

/-! ## Bits of objects -/

theorem Dev.bitO_setBitO (d : Dev) (ix sub i : Nat) (b : Bool) (j : Nat) :
    (d.setBitO ix sub i b).bitO ix sub j = if j = i then b else d.bitO ix sub j := by
  simp [Dev.bitO, Dev.setBitO, testBit_setBit]

theorem Dev.get_setBitO_ne (d : Dev) (ix sub i : Nat) (b : Bool) (ix' sub' : Nat) (h : okey ix sub ≠ okey ix' sub') :
    (d.setBitO ix sub i b).get ix' sub' = d.get ix' sub' := by
  simp [Dev.setBitO, Dev.get_set_ne _ _ _ _ _ _ h]

theorem Dev.get_satInc_same (d : Dev) (w ix sub k : Nat) : (d.satInc w ix sub k).get ix sub = satAdd w (d.get ix sub) k := by
  simp [Dev.satInc]

theorem Dev.get_satInc_ne (d : Dev) (w ix sub k ix' sub' : Nat) (h : okey ix sub ≠ okey ix' sub') :
    (d.satInc w ix sub k).get ix' sub' = d.get ix' sub' := by
  simp [Dev.satInc, Dev.get_set_ne _ _ _ _ _ _ h]

/-! ## Event sources -/

theorem Dev.raiseEv_eq (d : Dev) (n : Nat) : d.raiseEv n = { d with objs := (d.raiseEv n).objs } := rfl

theorem Dev.get_raiseEv_ne (d : Dev) (n ix sub : Nat) (h : okey 0x2410 (n / 32 % 8 + 1) ≠ okey ix sub) : (d.raiseEv n).get ix sub = d.get ix sub :=
  Dev.get_setBitO_ne _ _ _ _ _ _ _ h

@[simp] theorem Dev.getB_raiseEv (d : Dev) (n ix sub : Nat) : (d.raiseEv n).getB ix sub = d.getB ix sub := rfl

/-- A source is pending after it is raised, and every other stays as it was. -/
theorem Dev.evPending_raiseEv (d : Dev) (n m : Nat) (hn : n < 256) (hm : m < 256) :
    (d.raiseEv n).evPending m = if m = n then true else d.evPending m := by
  unfold Dev.evPending Dev.raiseEv
  by_cases hs : m / 32 % 8 = n / 32 % 8
  · rw [hs, Dev.bitO_setBitO]
    have : (m % 32 = n % 32) ↔ (m = n) := by omega
    simp only [this]
  · have hk : okey 0x2410 (n / 32 % 8 + 1) ≠ okey 0x2410 (m / 32 % 8 + 1) := by unfold okey; omega
    have : m ≠ n := by intro h; subst h; exact hs rfl
    rw [if_neg this]
    unfold Dev.bitO
    rw [Dev.get_setBitO_ne _ _ _ _ _ _ _ hk]

/-! ## Streams -/

theorem Dev.stream_eq (d : Dev) (v : Nat) (r : StreamRec) : d.stream v r = { d with vcs := (d.stream v r).vcs } := by
  unfold Dev.stream; split <;> rfl

@[simp] theorem Dev.get_stream (d : Dev) (v : Nat) (r : StreamRec) (ix sub : Nat) : (d.stream v r).get ix sub = d.get ix sub := by
  rw [Dev.stream_eq]; rfl
@[simp] theorem Dev.getB_stream (d : Dev) (v : Nat) (r : StreamRec) (ix sub : Nat) : (d.stream v r).getB ix sub = d.getB ix sub := by
  rw [Dev.stream_eq]; rfl

/-- An enabled channel gets the record last. -/
theorem Dev.stream_out (d : Dev) (v : Nat) (r : StreamRec) (h : d.get (0x2618 + v) 1 = 1) :
    (tget {} (d.stream v r).vcs v).out = (tget {} d.vcs v).out ++ [r] := by
  simp [Dev.stream, h]

/-- The other channels stay as they were. -/
theorem Dev.stream_ne (d : Dev) (v : Nat) (r : StreamRec) (u : Nat) (h : v ≠ u) : tget ({} : VcRec) (d.stream v r).vcs u = tget {} d.vcs u := by
  unfold Dev.stream
  split
  · exact tget_tset_ne _ _ _ _ _ h
  · rfl

/-! ## Logs -/

theorem drainSkeinGo_eq (f : Nat) (d : Dev) : drainSkeinGo f d = { d with vcs := (drainSkeinGo f d).vcs, log := (drainSkeinGo f d).log } := by
  induction f generalizing d with
  | zero => rfl
  | succ f ih =>
    simp only [drainSkeinGo]
    split
    · rw [ih, Dev.stream_eq]
    · rfl

theorem drainEventsGo_eq (f : Nat) (d : Dev) : drainEventsGo f d = { d with vcs := (drainEventsGo f d).vcs, log := (drainEventsGo f d).log } := by
  induction f generalizing d with
  | zero => rfl
  | succ f ih =>
    simp only [drainEventsGo]
    split
    · rw [ih, Dev.stream_eq]
    · rfl

@[simp] theorem get_drainSkeinGo (f : Nat) (d : Dev) (ix sub : Nat) : (drainSkeinGo f d).get ix sub = d.get ix sub := by
  rw [drainSkeinGo_eq]; rfl
@[simp] theorem getB_drainSkeinGo (f : Nat) (d : Dev) (ix sub : Nat) : (drainSkeinGo f d).getB ix sub = d.getB ix sub := by
  rw [drainSkeinGo_eq]; rfl
@[simp] theorem get_drainEventsGo (f : Nat) (d : Dev) (ix sub : Nat) : (drainEventsGo f d).get ix sub = d.get ix sub := by
  rw [drainEventsGo_eq]; rfl
@[simp] theorem getB_drainEventsGo (f : Nat) (d : Dev) (ix sub : Nat) : (drainEventsGo f d).getB ix sub = d.getB ix sub := by
  rw [drainEventsGo_eq]; rfl

/-- A Skein entry changes objects, byte strings, the log's state and the streams alone. -/
theorem Dev.skein_eq (d : Dev) (e : Skein) :
    d.skein e = { d with objs := (d.skein e).objs, blobs := (d.skein e).blobs, log := (d.skein e).log, vcs := (d.skein e).vcs } := by
  unfold Dev.skein
  simp only
  rw [drainSkeinGo_eq]
  unfold Dev.when
  split <;> rfl

/-- The number of the latest Skein entry after one more. -/
theorem Dev.skein_number (d : Dev) (e : Skein) : (d.skein e).get 0x2400 1 = (d.get 0x2400 1 + 1) % 2 ^ 32 := by
  unfold Dev.skein
  simp only [get_drainSkeinGo]
  exact Dev.get_set_same _ _ _ _

/-- The objects that a Skein entry may change: the latest number, the count of entries overwritten, and EV6. -/
theorem Dev.get_skein_ne (d : Dev) (e : Skein) (ix sub : Nat) (h1 : okey 0x2400 1 ≠ okey ix sub) (h6 : okey 0x2400 6 ≠ okey ix sub)
    (he : okey 0x2410 1 ≠ okey ix sub) : (d.skein e).get ix sub = d.get ix sub := by
  unfold Dev.skein
  simp only [get_drainSkeinGo]
  refine (Dev.get_set_ne _ _ _ _ _ _ h1).trans ?_
  rw [Dev.get_setB]
  unfold Dev.when
  split
  · exact (Dev.get_raiseEv_ne _ _ _ _ he).trans (Dev.get_satInc_ne _ _ _ _ _ _ _ h6)
  · rfl

/-- A Skein entry writes the slot of its number alone. -/
theorem Dev.getB_skein_ne (d : Dev) (e : Skein) (ix sub : Nat)
    (h : okey (slotIx 0x2480 ((d.get 0x2400 1 + 1) % 16384)) (slotSub ((d.get 0x2400 1 + 1) % 16384)) ≠ okey ix sub) :
    (d.skein e).getB ix sub = d.getB ix sub := by
  unfold Dev.skein
  simp only [getB_drainSkeinGo]
  refine Eq.trans (Dev.getB_setB_ne _ _ _ _ _ _ h) ?_
  unfold Dev.when
  split <;> rfl

/-- A metrology event changes objects, byte strings, the log's state and the streams alone. -/
theorem Dev.eventEntry_eq (d : Dev) (t code role cont subject : Nat) (data : Bytes) :
    d.eventEntry t code role cont subject data =
      { d with objs := (d.eventEntry t code role cont subject data).objs, blobs := (d.eventEntry t code role cont subject data).blobs
               log := (d.eventEntry t code role cont subject data).log, vcs := (d.eventEntry t code role cont subject data).vcs } := by
  unfold Dev.eventEntry
  simp only
  rw [drainEventsGo_eq]
  unfold Dev.when
  split <;> rfl

/-- The number of the latest metrology event after one more. -/
theorem Dev.eventEntry_number (d : Dev) (t code role cont subject : Nat) (data : Bytes) :
    (d.eventEntry t code role cont subject data).get 0x4D40 1 = d.get 0x4D40 1 + 1 := by
  unfold Dev.eventEntry
  simp only [get_drainEventsGo]
  refine Eq.trans (Dev.get_set_ne _ _ _ _ _ _ (by decide)) ?_
  exact Dev.get_set_same _ _ _ _

/-- The objects that a metrology event may change: the latest, the oldest and the count overwritten. -/
theorem Dev.get_eventEntry_ne (d : Dev) (t code role cont subject : Nat) (data : Bytes) (ix sub : Nat) (h1 : okey 0x4D40 1 ≠ okey ix sub)
    (h2 : okey 0x4D40 2 ≠ okey ix sub) (h3 : okey 0x4D40 3 ≠ okey ix sub) : (d.eventEntry t code role cont subject data).get ix sub = d.get ix sub := by
  unfold Dev.eventEntry
  simp only [get_drainEventsGo]
  refine (Dev.get_set_ne _ _ _ _ _ _ h2).trans ((Dev.get_set_ne _ _ _ _ _ _ h1).trans ?_)
  rw [Dev.get_setB]
  unfold Dev.when
  split
  · exact Dev.get_satInc_ne _ _ _ _ _ _ _ h3
  · rfl

end Sys2Proof.Machine
end

