-- ==== Sys2Proof/Machine/Image.lean ====
section
/-! DEFINITION. The bytes of the billing partition that a save writes: the billing state image with its global block and its 36 meter blocks
(chapter 07, R261, R262). A save area holds the same state as fields; no command shows the bytes. -/
namespace Sys2Proof.Machine

/-- Bytes of an entry of the billing objects, little-endian (00 R6). -/
def Dev.field (d : Dev) (n ix sub : Nat) : Bytes := natLE n (d.get ix sub)

/-- A signed value of `n` bytes. -/
def fieldS (n : Nat) (v : Int) : Bytes := natLE n (v % 2 ^ (8 * n)).toNat

/-- The 112 bytes of a quantum that has closed, all zero for none (07 R262): by element ap, aq, ms and nv, then the length in samples and
the mark that a quantum is present. -/
def quantumBytes : Option Quantum → Bytes
  | none => zeros 112
  | some q =>
    padTo 112 ((List.range 4).flatMap (fun e => fieldS 8 (q.ap.getD e 0) ++ fieldS 8 (q.aq.getD e 0) ++ natLE 8 (q.ms.getD e 0)
      ++ natLE 2 (q.nv.getD e 0)) ++ natLE 2 (q.stop - q.first) ++ natLE 1 1)

/-- The 832 bytes of the register pairs: of rate r = 1 to 8 and quantity u = 0 to 7 the U64 count, then the U40 remainder (07 R261). -/
def Dev.pairBytes (d : Dev) (m : Nat) : Bytes :=
  (List.range 8).flatMap fun r => (List.range 8).flatMap fun u =>
    d.field 8 (meterIx m + 9 + r) (1 + u) ++ d.field 5 (meterIx m + 9 + r) (9 + u)

/-- The 64 bytes of the open subinterval (07 R261). -/
def Dev.openSubBytes (d : Dev) (m : Nat) : Bytes :=
  let b := meterIx m
  padTo 64 (d.field 8 (b + 0x19) 1 ++ d.field 4 (b + 0x19) 2 ++ d.field 12 (b + 0x19) 3 ++ d.field 12 (b + 0x19) 4 ++ d.field 12 (b + 0x19) 5
    ++ natLE 1 (d.meter m).window.length ++ d.field 1 (b + 8) 5 ++ d.field 1 (b + 8) 4)

/-- The 128 bytes of the open quantum: its sums in the form of a closed one with the samples so far as its length, the gates and the crossing
detector (07 R261; their places are the model's, log entry 107). -/
def Dev.openQuantumBytes (d : Dev) (m : Nat) : Bytes :=
  let r := d.meter m
  padTo 128 (quantumBytes r.cur ++ d.field 1 (meterIx m + 7) 1 ++ natLE 1 (b2n r.armed))

/-- The 1 152 bytes of the block of meter `m` (07 R261). -/
def Dev.meterBlock (d : Dev) (m : Nat) : Bytes :=
  let b := meterIx m + 6
  (List.range 9).flatMap (fun i => d.field 12 b (i + 1)) ++ d.field 8 b 0xA ++ d.field 4 b 0xB ++ d.field 4 b 0xC ++ zeros 4 ++ d.pairBytes m
    ++ d.openSubBytes m ++ d.openQuantumBytes m

/-- The staged records by what names them: first and last snapshot number, first and last session number, their count and their bytes
(07 R262, R265). -/
def Dev.stagedNames (d : Dev) : Bytes :=
  let of := fun (f : StagedRec → Nat) => (d.bill.staging.map f).filter (· != 0)
  let ends := fun (l : List Nat) => natLE 4 (l.headD 0) ++ natLE 4 (l.getLastD 0)
  ends (of StagedRec.snapshot) ++ ends (of StagedRec.session) ++ natLE 4 d.bill.staging.length ++ natLE 4 d.staged

/-- The 32 bytes of a pulse engine: what it counts and how long it has been low. -/
def Dev.pulseBytes (d : Dev) (j : Nat) : Bytes :=
  let ix := 0x49F0 + j
  padTo 32 (d.field 8 ix 5 ++ d.field 4 ix 6 ++ d.field 8 ix 7 ++ natLE 8 (d.pulse j).lowFrom ++ natLE 1 (b2n (d.pulse j).raised))

/-- Bytes 0 to 63 of the record of the open session of outlet `o` (07 R257, R262). -/
def Dev.openSessionBytes (d : Dev) (o : Nat) : Bytes :=
  match tfind d.bill.sessions o with
  | some x => padTo 64 (sessionBody d o x none)
  | none => zeros 64

/-- The battery clock at the save: seconds and 2^-15 s. -/
def Dev.clockBytes (d : Dev) : Bytes :=
  match d.tamper.clock with
  | some c => natLE 8 c.1 ++ natLE 2 c.2 ++ natLE 1 1
  | none => zeros 11

/-- Civil time and local time: the base pair, the validity, the slew and the local-time objects. -/
def Dev.civilBytes (d : Dev) : Bytes :=
  let c := d.civil
  fieldS 8 c.base ++ natLE 8 c.secs ++ natLE 4 c.frac ++ natLE 1 (b2n c.valid) ++ fieldS 4 c.slewLeft ++ fieldS 4 c.slewDone
    ++ (List.range 4).flatMap fun i => d.field 4 0x4A90 (0x10 + i)

/-- The 7 680 bytes of the global block (07 R262). -/
def Dev.globalBlock (d : Dev) : Bytes :=
  padTo 64 (natLE 4 0x4A584253 ++ natLE 8 d.now ++ d.clockBytes ++ d.field 2 0x1100 1 ++ natLE 4 Config.imageFlags) ++ padTo 256 d.civilBytes ++ padTo 384 (d.instants.flatMap (natLE 8))
    ++ padTo 64 (natLE 4 d.bill.nextSnapshot ++ natLE 4 d.bill.nextSession ++ d.stagedNames)
    ++ (List.range 32).flatMap d.openSessionBytes ++ (List.range 4).flatMap d.pulseBytes
    ++ (List.range 36).flatMap (fun m => quantumBytes (d.meter m).closed.head?) ++ zeros 704

/-- The 49 152 bytes of the billing state image (07 R261). -/
def Dev.imageBytes (d : Dev) : Bytes := d.globalBlock ++ (List.range 36).flatMap d.meterBlock

end Sys2Proof.Machine
end

