-- ==== Sys2Proof/Laws/Image.lean ====
section
/-! SUPPORT. The billing state image has the lengths of the spec's tables in every state (07 R261, R262). -/
namespace Sys2Proof.Machine

/-- A concatenation over a range of parts of one length. -/
theorem length_flatMap_range {f : Nat → Bytes} {k : Nat} (h : ∀ i, (f i).length = k) (n : Nat) :
    ((List.range n).flatMap f).length = n * k := by
  induction n with
  | zero => simp
  | succ n ih => simp [List.range_succ, ih, h, Nat.succ_mul]

@[simp] theorem length_padTo (n : Nat) (b : Bytes) : (padTo n b).length = n := by
  simp [padTo]

@[simp] theorem length_zeros (n : Nat) : (zeros n).length = n := by simp [zeros]

@[simp] theorem length_field (d : Dev) (n ix sub : Nat) : (d.field n ix sub).length = n := natLE_length ..

@[simp] theorem length_quantumBytes (q : Option Quantum) : (quantumBytes q).length = 112 := by
  cases q <;> simp [quantumBytes]

@[simp] theorem length_pairBytes (d : Dev) (m : Nat) : (d.pairBytes m).length = 832 :=
  length_flatMap_range (k := 104) (fun _ => length_flatMap_range (k := 13) (fun _ => by simp) 8) 8

/-- A meter block is 1 152 bytes long. -/
theorem length_meterBlock (d : Dev) (m : Nat) : (d.meterBlock m).length = 1152 := by
  have h := length_flatMap_range (f := fun i => d.field 12 (meterIx m + 6) (i + 1)) (k := 12) (fun _ => by simp) 9
  simp [Dev.meterBlock, Dev.openSubBytes, Dev.openQuantumBytes, h]

/-- The global block is 7 680 bytes long. -/
theorem length_globalBlock (d : Dev) : d.globalBlock.length = 7680 := by
  have hs := length_flatMap_range (f := d.openSessionBytes) (k := 64)
    (fun o => by unfold Dev.openSessionBytes; split <;> simp) 32
  have hp := length_flatMap_range (f := d.pulseBytes) (k := 32) (fun _ => by simp [Dev.pulseBytes]) 4
  have hq := length_flatMap_range (f := fun m => quantumBytes (d.meter m).closed.head?) (k := 112) (fun _ => by simp) 36
  simp [Dev.globalBlock, hs, hp, hq]

/-- A billing state image is 49 152 bytes long. -/
theorem length_imageBytes (d : Dev) : d.imageBytes.length = 49152 := by
  rw [Dev.imageBytes, List.length_append, length_globalBlock, length_flatMap_range (length_meterBlock d)]

/-- What a padded field holds is not cut: the parts fit in their fields of the tables. -/
theorem length_openSubBytes_parts (d : Dev) (m : Nat) :
    (d.field 8 (meterIx m + 0x19) 1 ++ d.field 4 (meterIx m + 0x19) 2 ++ d.field 12 (meterIx m + 0x19) 3 ++ d.field 12 (meterIx m + 0x19) 4
      ++ d.field 12 (meterIx m + 0x19) 5 ++ natLE 1 (d.meter m).window.length ++ d.field 1 (meterIx m + 8) 5
      ++ d.field 1 (meterIx m + 8) 4).length + 13 = 64 := by simp

end Sys2Proof.Machine
end

