-- ==== Sys2Proof/Laws/Mem.lean ====
section
/-! SUPPORT. The debug memory keeps its canonical form, and reads as it was written. -/
namespace Sys2Proof.Machine

/-- A list in canonical form whose addresses all lie above `a`. -/
def memAbove (a : Nat) (m : List Host.Cell) : Prop := ∀ c ∈ m, a < c.1

theorem memWf_cons (c : Host.Cell) (m : List Host.Cell) :
    memWf (c :: m) = true ↔ c.2 ≠ memDefault ∧ memAbove c.1 m ∧ memWf m = true := by
  induction m generalizing c with
  | nil => obtain ⟨a, b⟩ := c; simp [memWf, memAbove]
  | cons e r ih =>
    obtain ⟨a, b⟩ := c
    obtain ⟨a', b'⟩ := e
    simp only [memWf, Bool.and_eq_true, bne_iff_ne, ne_eq, decide_eq_true_eq]
    rw [ih (a', b')]
    constructor
    · rintro ⟨⟨h1, h2⟩, h3, h4, h5⟩
      refine ⟨h1, ?_, h3, h4, h5⟩
      intro c hc
      rcases List.mem_cons.mp hc with rfl | hc
      · exact h2
      · exact Nat.lt_trans h2 (h4 c hc)
    · rintro ⟨h1, h2, h3, h4, h5⟩
      exact ⟨⟨h1, h2 (a', b') (by simp)⟩, h3, h4, h5⟩

theorem memSet_above (m : List Host.Cell) (x a : Nat) (b : Byte) (h : memAbove x m) (hx : x < a) : memAbove x (memSet m a b) := by
  induction m with
  | nil => intro c hc; simp only [memSet] at hc; split at hc <;> simp_all
  | cons e r ih =>
    obtain ⟨k, w⟩ := e
    have hk : x < k := h (k, w) (by simp)
    have hr : memAbove x r := fun c hc => h c (List.mem_cons_of_mem _ hc)
    intro c hc
    simp only [memSet] at hc
    split at hc
    · split at hc
      · exact hr c hc
      · rcases List.mem_cons.mp hc with rfl | hc
        · exact hx
        · exact hr c hc
    · split at hc
      · split at hc
        · exact h c hc
        · rcases List.mem_cons.mp hc with rfl | hc
          · exact hx
          · exact h c hc
      · rcases List.mem_cons.mp hc with rfl | hc
        · exact hk
        · exact ih hr c hc

/-- Writing a byte keeps the canonical form. -/
theorem memSet_wf (m : List Host.Cell) (a : Nat) (b : Byte) (h : memWf m = true) : memWf (memSet m a b) = true := by
  induction m with
  | nil => simp only [memSet]; split <;> simp_all [memWf]
  | cons e r ih =>
    obtain ⟨k, w⟩ := e
    have hc := (memWf_cons (k, w) r).mp h
    simp only [memSet]
    split
    · rename_i hak
      subst hak
      split
      · exact hc.2.2
      · rename_i hb
        exact (memWf_cons _ _).mpr ⟨hb, hc.2.1, hc.2.2⟩
    · rename_i hak
      split
      · rename_i hlt
        split
        · exact h
        · rename_i hb
          refine (memWf_cons _ _).mpr ⟨hb, ?_, h⟩
          intro c hm
          rcases List.mem_cons.mp hm with rfl | hm
          · exact hlt
          · exact Nat.lt_trans hlt (hc.2.1 c hm)
      · rename_i hlt
        refine (memWf_cons _ _).mpr ⟨hc.1, memSet_above r k a b hc.2.1 ?_, ih hc.2.2⟩
        show k < a
        omega

/-- Writing bytes keeps the canonical form. -/
theorem memPut_wf (m : List Host.Cell) (a : Nat) (b : Bytes) (h : memWf m = true) : memWf (memPut m a b) = true := by
  induction b generalizing m a with
  | nil => exact h
  | cons x r ih => exact ih _ _ (memSet_wf m a x h)

/-- Dropping cells keeps the canonical form. -/
theorem memFilter_wf (m : List Host.Cell) (p : Host.Cell → Bool) (h : memWf m = true) : memWf (m.filter p) = true := by
  induction m with
  | nil => rfl
  | cons e r ih =>
    have hc := (memWf_cons e r).mp h
    by_cases hp : p e = true
    · simp only [List.filter_cons, hp, if_true]
      exact (memWf_cons _ _).mpr ⟨hc.1, fun c hm => hc.2.1 c (List.mem_filter.mp hm).1, ih hc.2.2⟩
    · simp only [List.filter_cons, hp]
      exact ih hc.2.2

theorem memGet_above (m : List Host.Cell) (a : Nat) (h : memAbove a m) : memGet m a = memDefault := by
  unfold memGet
  induction m with
  | nil => rfl
  | cons e r ih =>
    obtain ⟨k, w⟩ := e
    have hk : a < k := h (k, w) (by simp)
    simp only [tget]
    rw [if_neg (by omega)]
    exact ih fun c hc => h c (List.mem_cons_of_mem _ hc)

/-- A byte reads as it was written, and the others as before, in a list of canonical form. -/
theorem memGet_memSet (m : List Host.Cell) (a x : Nat) (b : Byte) (h : memWf m = true) :
    memGet (memSet m a b) x = if x = a then b else memGet m x := by
  induction m with
  | nil =>
    simp only [memSet]
    split
    · rename_i hb; by_cases hx : x = a <;> simp [memGet, tget, hx, hb]
    · by_cases hx : a = x
      · simp [memGet, tget, hx]
      · simp [memGet, tget, hx, Ne.symm hx]
  | cons e r ih =>
    obtain ⟨k, w⟩ := e
    have hc := (memWf_cons (k, w) r).mp h
    have ih := ih hc.2.2
    simp only [memSet]
    split
    · rename_i hak
      subst hak
      split
      · rename_i hb
        by_cases hx : x = a
        · rw [if_pos hx, hx, hb]; exact memGet_above r a hc.2.1
        · rw [if_neg hx]; simp [memGet, tget, Ne.symm hx]
      · by_cases hx : a = x
        · simp [memGet, tget, hx]
        · simp [memGet, tget, hx, Ne.symm hx]
    · rename_i hak
      split
      · rename_i hlt
        split
        · rename_i hb
          by_cases hx : x = a
          · rw [if_pos hx, hx, hb]
            refine memGet_above _ a ?_
            intro c hm
            rcases List.mem_cons.mp hm with rfl | hm
            · exact hlt
            · exact Nat.lt_trans hlt (hc.2.1 c hm)
          · rw [if_neg hx]
        · by_cases hx : a = x
          · simp [memGet, tget, hx]
          · simp [memGet, tget, hx, Ne.symm hx]
      · by_cases hk : k = x
        · subst hk
          have hka : ¬ (k = a) := fun h' => hak h'.symm
          rw [if_neg hka]
          simp [memGet, tget]
        · have : memGet ((k, w) :: memSet r a b) x = memGet (memSet r a b) x := by simp [memGet, tget, hk]
          rw [this, ih]
          simp [memGet, tget, hk]

end Sys2Proof.Machine
end

