-- ==== Sys2Proof/Tests/Slice0.lean ====
section
/-! SUPPORT. Terms that each check of well-formedness refuses, the spec's worked examples, published vectors of the standards that the
spec names, and for every statement with hypotheses a state and operands that meet them. -/

set_option Elab.async false

open Sys2Proof Sys2Proof.Machine

/-! ## Well-formed commands -/

theorem test_number_refused : (Instr.controlReclaim (2 ^ 64)).wellFormed = false := by decide
theorem test_bytes_refused : Instr.wellFormed (.hankCell (List.replicate 65536 0)) = false := by decide +kernel
theorem test_battery_refused : (Instr.tamperInputChange 0 (true, 0x20) (0, 32768)).wellFormed = false := by decide
theorem test_status_frame_refused : (Instr.warpTick ⟨[], [], [], [], [], [], [], [], none⟩).wellFormed = false := by decide
theorem test_start_refused : (Instr.coldStart ⟨none, 0, false, true, true, [4], [], true, 3000⟩).wellFormed = false := by decide
theorem test_mesh_frame_refused : (Instr.beacon 0 ⟨0x10, 2 ^ 18, 0, 0, true, false, []⟩).wellFormed = false := by decide
theorem test_visit_refused : (Instr.antennaVisit 0 ⟨100, [], [], [⟨1, 256, 0⟩]⟩).wellFormed = false := by decide
theorem test_tag_answer_refused : (Instr.getRandom 0 (.reply 256 [])).wellFormed = false := by decide
theorem test_ethernet_refused : (Instr.ethernetDatagram 0 false (zeros 4, zeros 16) (1, 0) false []).wellFormed = false := by decide
theorem test_presence_refused : (Instr.presenceCheck 0 (List.replicate 256 true)).wellFormed = false := by decide +kernel
theorem test_collapse_refused : (Instr.fieldCollapse (0, some 65536)).wellFormed = false := by decide
theorem test_units_refused : (Instr.serviceRequest 37 5 false (2 ^ 64, 0) 0).wellFormed = false := by decide
theorem test_mailbox_refused : (Instr.mailboxSubmit 0 1473 (List.replicate 1473 0)).wellFormed = false := by decide +kernel
theorem test_level_refused : (Instr.comparatorTrip 0 32768).wellFormed = false := by decide
theorem test_index_edge_refused : (Instr.indexEdge 0 false 2147483648).wellFormed = false := by decide
theorem test_codeword_refused : (Instr.controlFrame 0 [] []).wellFormed = false := by decide
theorem test_rows_refused : (Instr.bulkBlock 0 [[]] []).wellFormed = false := by decide

/-! ## The spec's worked examples -/

/-- 04 R125. -/
theorem test_rounding : (rdiv 5 2, rdiv 7 2, rdiv (-5) 2, rdiv (-7) 2) = (2, 4, -2, -4) := by decide

/-- The request of the example of 02 R68, by host queue 0. -/
theorem test_request_frame :
    let b : Bytes := [0x58, 0x4A, 1, 2, 7, 0, 16, 0, 0x41, 0x1F, 0, 0, 1, 0, 1, 0, 0x20, 0x11, 2, 0, 0, 0, 0, 0, 4, 0, 0, 0, 0xB0, 4, 0, 0]
    let r := parseRequest (.host 0) (srcHost 0) true false b
    r.malformed = false ∧ r.op = 2 ∧ r.epoch = 7 ∧ r.trans = 0x1F41 ∧ r.roleCode = 1
      ∧ r.entries = [{ ix := 0x1120, sub := 2, len := 4, data := natLE 4 1200 }] := by decide +kernel

/-- The allocation of the example of 10 R342. -/
theorem test_allocation :
    allocate 4 750000 [⟨0, 350000, 2, 0, false⟩, ⟨1, 400000, 1, 0, false⟩, ⟨2, 150000, 1, 0, false⟩, ⟨3, 22000, 1, 4140, false⟩]
      = [(2, 150000), (3, 22000), (0, 350000), (1, 228000)] := by decide +kernel

/-- The duty of the example of 10 R342. -/
theorem test_duty : dutyOf 510 = 5312 := by decide

/-- A state for the contest of the example of 18 R526: cycle 2 000, the host port granted at it. -/
def contestState : State :=
  { pending := [], mem := []
    dev := { loom := .running
             objs := [(okey (reqIx 33) 1, 4), (okey (reqIx 35) 1, 5), (okey (reqIx 36) 1, 4), (okey (reqIx 36) 2, 192), (okey (reqIx 36) 3, 300)]
             arb := { cycle := 2000, refills := 2, svcs := [(3, { grant := some { q := 36, units := 2, at' := 2000 }, decided := 2000, prev := 36 })] } } }

/-- The part of an outcome. -/
def devOf (o : Out) : Dev :=
  match o with
  | .next t => t.dev
  | _ => {}

/-- Pre-empted at cycle 2 100 by the log, the host port waits with a counter of 392 at cycle 2 420. -/
theorem test_preemption :
    let e := devOf (exec (.serviceRequest 35 3 false (1, 0) 100) contestState)
    ((e.svc 3).grant.map fun g => g.q, (e.svc 3).waiting.map fun w => w.q, e.get (reqIx 36) 5, (arbPass 320 e).get (reqIx 36) 3) = (some 35, [36], 1, 392) := by
  decide +kernel

/-! ## Published vectors of the standards -/

/-- FIPS 197, C.1. -/
theorem test_aes :
    aesBlock (natBE 16 0x000102030405060708090a0b0c0d0e0f) (natBE 16 0x00112233445566778899aabbccddeeff) = natBE 16 0x69c4e0d86a7b0430d8cdb78070b4c55a := by
  decide +kernel

/-- RFC 4493, example 2. -/
theorem test_cmac :
    aesCmac (natBE 16 0x2b7e151628aed2a6abf7158809cf4f3c) (natBE 16 0x6bc1bee22e409f96e93d7e117393172a) = natBE 16 0x070a16b46b4d4144f79bdd9dd04a287c := by
  decide +kernel

/-- SHAKE256 of the empty message. -/
theorem test_shake256 : shake256 32 [] = natBE 32 0x46b9dd2b0ba88d13233b3feb743eeb243fcd52ea62b81b82b50c27646ed5762f := by
  decide +kernel

/-- RFC 8032, 7.4: the public key of the blank message's private key. -/
theorem test_ed448 :
    ed448Public (natBE 57 0x6c82a562cb808d10d632be89c8513ebf6c929f34ddfa8c9f63c9960ef6e348a3528c8a3fcc2f044e39a3fc5b94492f8f032e7549a20098f95b)
      = natBE 57 0x5fd7449b59b461fd2ce787ec616ad46a1da1342485a70e1f8a0ea75d80e96778edf124769b46c7061bd6783df1e50f6cd1fa1abeafe8256180 := by
  decide +kernel

/-! ## States and operands that meet the hypotheses of the statements -/

/-- Meets the hypotheses of StepRunsTheFrontCommand. -/
theorem test_meets_step_runs_the_front_command :
    (State.reset).pending = [] := rfl

/-- Meets the hypotheses of StepKeepsMemoryCanonical. -/
theorem test_meets_step_keeps_memory_canonical :
    ∃ t, (State.reset).canonical ∧ step State.reset = .next t := ⟨State.reset, by unfold State.canonical; decide, rfl⟩

/-- Meets the hypotheses of WritesAreCheckedFirst. -/
theorem test_meets_writes_are_checked_first :
    (Instr.startPermit .O 3 1).isWrite = true := rfl

/-- Meets the hypotheses of ChecksOfAWrite. -/
theorem test_meets_checks_of_a_write :
    objIndexExists 0x1234 = false
    ∧ (objIndexExists 0x1017 = true ∧ objRow 0x1017 1 = none)
    ∧ ((objRow 0x2000 1).map (·.dir) = some .ro)
    ∧ ((objRow 0x1017 0).map (fun r => (r.dir, roleOk r.roles .U)) = some (.rw, false))
    ∧ ((objRow 0x3000 1).map (fun r => (r.dir, r.cls, roleOk r.roles .M)) = some (.rw, .metrology, true))
    ∧ ((objRow 0x1017 0).map (fun r => (r.dir, roleOk r.roles .O, r.cls)) = some (.rw, true, .config)) := by decide +kernel

/-- Meets the hypotheses of SupplyWarningLevels. -/
theorem test_meets_supply_warning_levels :
    ({} : Dev).loom = .unpowered ∧ ({ loom := .running } : Dev).loom ≠ .unpowered := by decide

/-- Meets the hypotheses of PowerFailSave. -/
theorem test_meets_power_fail_save :
    (let d : Dev := { loom := .running, now := 7, supply := { seenAt := some 7 } }
     d.running = true ∧ d.supply.seenAt = some d.now ∧ d.supply.writing = none)
    ∧ (let d : Dev := { loom := .running, now := 8, supply := { seenAt := some 7, writing := some 1 } }
       d.running = true ∧ d.supply.writing = some 1 ∧ d.supply.seenAt = some 7)
    ∧ (let d : Dev := { loom := .running, supply := { saved := true } }
       d.running = true ∧ d.supply.writing = none ∧ d.supply.saved = true ∧ d.supply.marked ≠ some d.now) := by decide

/-- Meets the hypotheses of RecoveryFromADip. -/
theorem test_meets_recovery_from_a_dip :
    (let d : Dev := { loom := .running, supply := { seenAt := some 7, writing := some 0 } }
     d.running = true ∧ d.supply.seenAt ≠ none ∧ d.supply.warning = false ∧ d.supply.writing = some 0 ∧ d.bill.deferred = false ∧ d.supply.hold = false
     ∧ d.trans = none ∧ d.reads.switchDue = false)
    ∧ (let d : Dev := { loom := .running, supply := { seenAt := some 7, areas := [(1, { committed := true })] } }
       d.running = true ∧ d.supply.seenAt ≠ none ∧ d.supply.warning = false ∧ d.supply.writing = none ∧ d.latestSave = some 1
       ∧ d.bill.deferred = false ∧ d.supply.hold = false ∧ d.trans = none ∧ d.reads.switchDue = false)
    ∧ (let d : Dev := { loom := .running, supply := { seenAt := some 7 } }
       d.running = true ∧ d.supply.seenAt ≠ none ∧ d.supply.warning = false ∧ d.supply.writing = none ∧ d.latestSave = none
       ∧ d.bill.deferred = false ∧ d.supply.hold = false ∧ d.trans = none ∧ d.reads.switchDue = false)
    ∧ (let d : Dev := { loom := .running, supply := { seenAt := some 7, hold := true } }
       d.running = true ∧ d.supply.seenAt ≠ none ∧ d.supply.warning = false ∧ (d.bill.deferred = true ∨ d.supply.hold = true)) := by decide

/-- Meets the hypotheses of ResetsOfTheLoomDie. -/
theorem test_meets_resets_of_the_loom_die :
    ({ loom := .running } : Dev).loom = .running ∧ ({ loom := .running } : Dev).dbg.halted = false ∧ ({ loom := .running } : Dev).dict.queue = [] ∧ ({ loom := .running } : Dev).tamper.stopped = false
    ∧ memWf [] = true
    ∧ Accepts { loom := .running } .O 0x2100 9 (.num 1) { atRange := if (1 : Nat) = 1 then 0 else 8 } := by
  unfold Accepts; decide +kernel

/-- Meets the hypotheses of ResetKeepsPersistentObjects. -/
theorem test_meets_reset_keeps_persistent_objects :
    ∃ t, exec .powerOnReset State.reset = .next t ∧ (objRow 0x1017 0).map (·.cls) = some .config
      ∧ (objRow 0x2000 2).map (·.cls) = some .vol ∧ State.reset.dev.bill.staging = [] ∧ State.reset.dev.dict.queue = [] ∧ State.reset.dev.reads.starts = []
      ∧ State.reset.dev.reads.snaps = [] :=
      ⟨_, rfl, by decide +kernel, by decide +kernel, rfl, rfl, rfl, rfl⟩

/-- Meets the hypotheses of StartsOfTheLoomDie. -/
theorem test_meets_starts_of_the_loom_die :
    ({} : Dev).loom = .unpowered ∧ ({ loom := .released } : Dev).loom = .released ∧ ({ loom := .released } : Dev).jtag.hold = false ∧ ({ loom := .started } : Dev).loom = .started
    ∧ (let d : Dev := { loom := .inReset, supply := { cause := 3 } }
       d.loom = .inReset ∧ 3 ≤ d.supply.cause ∧ d.jtag.hold = false) := by decide

/-- Meets the hypotheses of StartFromReset. -/
theorem test_meets_start_from_reset :
    ({ loom := .released } : Dev).loom = .released ∧ ({ loom := .released } : Dev).jtag.hold = false
    ∧ (let d : Dev := { loom := .inReset, supply := { cause := 3 } }
       d.loom = .inReset ∧ 3 ≤ d.supply.cause ∧ d.jtag.hold = false) := by decide

/-- Meets the hypotheses of ResetHoldWindow. -/
theorem test_meets_reset_hold_window :
    (let d : Dev := { hold := { active := true } }
     d.hold.active = true ∧ d.hold.safe = false)
    ∧ (let d : Dev := { hold := { active := true, safe := true } }
       d.hold.active = true ∧ d.hold.safe = true ∧ d.hold.opened.testBit 7 = false ∧ d.hold.confirmed.testBit 7 = false
       ∧ d.inZeroBand 7 (List.replicate 64 10) = true)
    ∧ (let d : Dev := { hold := { active := true, safe := true, confirmed := 128 } }
       d.hold.active = true ∧ d.hold.confirmed.testBit 7 = true ∧ d.hold.opened.testBit 7 = false)
    ∧ (let d : Dev := { loom := .running, hold := { active := true } }
       d.running = true ∧ d.hold.active = true) := by decide

/-- Meets the hypotheses of WarpTickCounts. -/
theorem test_meets_warp_tick_counts :
    ({ loom := .running } : Dev).loom = .running ∧ ({ loom := .running } : Dev).dbg.halted = false
    ∧ ({ loom := .running } : Dev).dbg.pending = false ∧ ({ loom := .released } : Dev).loom ≠ .running
    ∧ ({ loom := .released } : Dev).loom ≠ .unpowered ∧ ({} : Dev).loom = .unpowered := by decide

/-- Meets the hypotheses of RingMastership. -/
theorem test_meets_ring_mastership :
    (let d : Dev := { loom := .running, objs := [(okey 0x2000 6, 7), (okey 0x2661 1, 1)], tick := { p0Miss := 64 } }
     d.loom = .running ∧ d.position ≠ 0 ∧ d.master = 0 ∧ (d.portRun 0 = true ∨ d.portRun 1 = true) ∧ 64 ≤ d.tick.p0Miss)
    ∧ (let d : Dev := { loom := .running, now := 31999, objs := [(okey 0x2000 7, 1)], tick := { p0Back := true } }
       d.loom = .running ∧ d.tick.p0Back = true ∧ d.master ≠ 0 ∧ (d.now + 1) % 32000 = 0 ∧ (d.now + 2) % 32000 ≠ 0)
    ∧ ({} : Dev).tick.p0Miss < 64 := by decide +kernel

/-- Meets the hypotheses of HoldoverAndShares. -/
theorem test_meets_holdover_and_shares :
    (let d : Dev := { loom := .running, objs := [(okey 0x2000 6, 1)], tick := { markerMiss := 64, shareMiss := 64 } }
     d.running = true ∧ d.isMaster = false ∧ 64 ≤ d.tick.markerMiss ∧ 64 ≤ d.tick.shareMiss ∧ d.get 0x2000 2 ≠ 2 ∧ d.refused = false)
    ∧ (let d : Dev := { loom := .running }
       d.running = true ∧ d.isMaster = true) ∧ (zeros 16).length = 16 := by decide +kernel

/-- Meets the hypotheses of CurtailmentOfTheSite. -/
theorem test_meets_curtailment_of_the_site :
    Accepts { loom := .running } .O 0x5810 0 (.raw (zeros 16)) {} ∧ ({ loom := .running } : Dev).isMaster = true
    ∧ Accepts { loom := .running, objs := [(okey 0x2000 6, 1)] } .O 0x5810 0 (.raw (zeros 16)) {}
    ∧ ({ loom := .running, objs := [(okey 0x2000 6, 1)] } : Dev).isMaster = false
    ∧ (let d : Dev := { loom := .running, alloc := { waiting := true }, civil := { valid := true, secs := 0 } }
       d.running = true ∧ d.alloc.waiting = true ∧ d.civil.valid = true ∧ d.curtail.2.2 ≤ d.utcNext ∧ d.curtail.2.1 = 0
       ∧ d.alloc.inForce = false)
    ∧ (let d : Dev := { loom := .running, now := 9, alloc := { inForce := true, ends := some 10 } }
       d.running = true ∧ d.alloc.inForce = true ∧ d.alloc.ends = some 10 ∧ 10 ≤ d.now + 1) := by
  unfold Accepts; decide +kernel

/-- Meets the hypotheses of RingPorts. -/
theorem test_meets_ring_ports :
    (let d : Dev := { loom := .running, now := 1023 }
     d.loom = .running ∧ (d.now + 1) % 1024 = 0 ∧ d.refused = false ∧ (d.port 1).pings < 4 ∧ 1 % 8 ≠ d.position ∧ 8 % 8 = d.position)
    ∧ (let d : Dev := { loom := .running, now := 1023, objs := [(okey 0x2661 1, 1)], ports := [(1, { pings := 4 })] }
       (d.now + 1) % 1024 = 0 ∧ d.refused = false ∧ 4 ≤ (d.port 1).pings ∧ d.portRun 1 = true)
    ∧ (let d : Dev := { loom := .running, ports := [(1, { trips := [400] })] }
       d.portRun 1 = false ∧ (d.port 1).trips ≠ [] ∧ d.refused = false)
    ∧ (let d : Dev := { loom := .running, objs := [(okey 0x2661 1, 1)] }
       d.portRun 1 = true)
    ∧ (let d : Dev := { loom := .running, objs := [(okey 0x2000 6, 3)] }
       d.loom = .running ∧ d.isMaster = false ∧ d.refused = false ∧ d.ring.best = none ∧ byteAt (zeros 8) 4 % 8 ≠ d.position ∧ d.master = 0)
    ∧ (let d : Dev := { loom := .running, objs := [(okey 0x2000 6, 3), (okey 0x2000 7, 1)] }
       d.loom = .running ∧ d.refused = false ∧ d.position ≠ 0 ∧ byteAt (zeros 8) 4 % 8 = 0 ∧ d.master ≠ 0)
    ∧ (let d : Dev := { loom := .running }
       d.position = 0 ∧ byteAt (natLE 4 0 ++ natLE 4 1) 4 % 8 ≠ 0) := by decide +kernel

/-- Meets the hypotheses of LinkStartStates. -/
theorem test_meets_link_start_states :
    let at' := fun (st : Nat) (r : LinkRec) => ({ loom := .running, now := 100, objs := [(okey (linkIx 35) 2, st)], links := [(35, r)] } : Dev)
    let b : Bytes := [0x81, 1, 8, 0, 0, 0, 0, 0, 0, 0, 0, 0, 0, 0, BitVec.ofNat 8 (crc8 ([0x81, 1, 8] ++ zeros 11))]
    ((at' 0 {}).linkState 35 = 0 ∧ (at' 0 {}).get (linkIx 35) 9 = 1) ∧ (at' 1 {}).linkState 35 = 1 ∧ ((at' 1 {}).link 35).since + 64 ≤ (at' 1 {}).now
    ∧ ((at' 2 {}).linkState 35 = 2 ∧ ((at' 2 {}).link 35).held = none ∧ ((at' 2 {}).link 35).identity = none ∧ capSetOk b = true)
    ∧ (let d : Dev := { at' 2 { identity := some 5 } with objs := [(okey (linkIx 35) 2, 2), (okey 0x4000 2, 1), (okey 0x4001 1, 280)] }
       d.linkState 35 = 2 ∧ (d.link 35).identity = some 5 ∧ 5 ≠ capIdentity b ∧ d.meteringLink 35 = true)
    ∧ ((at' 3 { trips := List.replicate 15 16000 }).linkState 35 = 3 ∧ ((at' 3 { trips := List.replicate 15 16000 }).link 35).dAdj = 0
       ∧ ((at' 3 { trips := List.replicate 15 16000 }).link 35).trips.length = 15)
    ∧ ((at' 3 { dAdj := 2000 }).linkState 35 = 3 ∧ ((at' 3 { dAdj := 2000 }).link 35).dAdj ≠ 0)
    ∧ ((at' 3 { good := 16 }).linkState 35 = 3 ∧ ((at' 3 { good := 16 }).link 35).inTime 20000 = true ∧ 16 ≤ ((at' 3 { good := 16 }).link 35).good
       ∧ ¬(((at' 3 { good := 16 }).link 35).chosen = 2 ∧ ((at' 3 { good := 16 }).link 35).lineGen = 1))
    ∧ ((at' 3 { good := 16, chosen := 2 }).linkState 35 = 3 ∧ ((at' 3 { good := 16, chosen := 2 }).link 35).lineGen = 1)
    ∧ ((at' 4 { switchTick := 100 }).linkState 35 = 4 ∧ ((at' 4 { switchTick := 100 }).link 35).switchTick ≤ (at' 4 {}).now)
    ∧ (at' 6 { good := 16 }).linkState 35 = 6 ∧ 16 ≤ ((at' 6 { good := 16 }).link 35).good := by decide +kernel

/-- Meets the hypotheses of LinkFaultsAndRelinks. -/
theorem test_meets_link_faults_and_relinks :
    let at' := fun (st : Nat) (r : LinkRec) => ({ loom := .running, now := 164, objs := [(okey (linkIx 0) 2, st)], links := [(0, r)] } : Dev)
    ((at' 5 { noCore := 3 }).linkState 0 = 5 ∧ 3 ≤ ((at' 5 { noCore := 3 }).link 0).noCore)
    ∧ (1 ≤ (at' 6 {}).linkState 0 ∧ (at' 6 {}).linkState 0 ≤ 6)
    ∧ ((at' 6 { since := 116 }).linkState 0 = 6 ∧ ((at' 6 { since := 116 }).link 0).since + 48 ≤ (at' 6 {}).now)
    ∧ ((at' 2 { lineGen := 2, switchTick := 100 }).linkState 0 = 2 ∧ ((at' 2 { lineGen := 2, switchTick := 100 }).link 0).lineGen = 2
       ∧ ((at' 2 { lineGen := 2, switchTick := 100 }).link 0).switchTick + 64 ≤ (at' 2 {}).now)
    ∧ ((at' 5 { noCore := 2 }).linkState 0 = 5 ∧ ((at' 5 { noCore := 2 }).link 0).noCore < 3)
    ∧ (((at' 5 {}).link 0).inTime 20000 = true ∧ ((at' 5 {}).link 0).inTime 0 = false ∧ ((at' 5 {}).link 0).cw4Sent = [])
    ∧ (∃ b : Bytes, crc32 (sliceB b 1 299) = leAt b 300 4 ∧ crc32 (sliceB b 304 299) = leAt b 603 4) := by
  refine ⟨by decide +kernel, by decide +kernel, by decide +kernel, by decide +kernel, by decide +kernel, by decide +kernel, ?_⟩
  set_option maxRecDepth 20000 in
  let c := natLE 4 (crc32 (zeros 299))
  have h : leNat c = crc32 (zeros 299) := by rw [leNat_natLE]; exact Nat.mod_eq_of_lt (crc32_lt _)
  refine ⟨zeros 300 ++ c ++ zeros 299 ++ c, ?_, ?_⟩
  · have e1 : sliceB (zeros 300 ++ c ++ zeros 299 ++ c) 1 299 = zeros 299 := rfl
    have e2 : sliceB (zeros 300 ++ c ++ zeros 299 ++ c) 300 4 = c := rfl
    rw [leAt, e1, e2, h]
  · have e1 : sliceB (zeros 300 ++ c ++ zeros 299 ++ c) 304 299 = zeros 299 := rfl
    have e2 : sliceB (zeros 300 ++ c ++ zeros 299 ++ c) 603 4 = c := rfl
    rw [leAt, e1, e2, h]

/-- Meets the hypotheses of LinkWrites. -/
theorem test_meets_link_writes :
    Accepts { loom := .running } .O (linkIx 35) 9 (.num 0) (linkRules { loom := .running } 35 9 0)
    ∧ Accepts { loom := .running } .O (linkIx 35) 9 (.num 1) (linkRules { loom := .running } 35 9 1)
    ∧ (let d : Dev := { loom := .running, objs := [(okey 0x2200 1, 3), (okey (linkIx 35) 2, 2)], links := [(35, { held := some 9 })] }
       Accepts d .S (linkIx 35) 0xB (.num 1) (linkRules d 35 0xB 1) ∧ d.linkState 35 = 2 ∧ (d.link 35).held = some 9 ∧ (d.link 34).held = none)
    ∧ Accepts { loom := .running } .O (linkIx 35) 0xC (.num 0x40000000) (linkRules { loom := .running } 35 0xC 0x40000000) := by
  unfold Accepts; decide +kernel

/-- Meets the hypotheses of RequestsEnterTheQueue. -/
theorem test_meets_requests_enter_the_queue :
    let d : Dev := { loom := .running, objs := [(okey 0x2641 2, 0xC0A80001)] }
    let b : Bytes := [0x58, 0x4A, 1, 1, 0, 0, 12, 0, 9, 0, 0, 0, 0, 0, 1, 0, 0x17, 0x10, 0, 0, 0, 0, 0, 0, 2, 0, 0, 0]
    ReadAdmitted d (parseRequest (.host 3) (srcHost 3) (d.get 0x1121 4 == 1) false b)
    ∧ ReadAdmitted d (parseRequest (.ether 1 false (zeros 4) 5 0x1860 [0xC0, 0xA8, 0, 1] []) (srcEther 1 false (zeros 4) 5) false false b)
    ∧ (b.length ≤ 1472 ∧ 2 ≤ b.length ∧ leAt b 0 2 = 0x4A58 ∧ d.get 0x1120 1 = 0x1860 ∧ d.ownAddress 1 false [0xC0, 0xA8, 0, 1] = true
       ∧ d.ownAddress 1 false (zeros 4) = false)
    ∧ (d.canServed true 127 = true ∧ ReadAdmitted d (parseRequest (.can 1 true 127) (srcCan 1 true 127) (d.canBound 1 true 127) false b))
    ∧ (d.canBound 1 true 127 = false
       ∧ ReadAdmitted d { dest := .can 1 true 127, src := srcCan 1 true 127, op := 5, entries := [{ ix := 0x1017 }] })
    ∧ (∃ (k : Bytes) (f : MeshFrame), Dev.forPart { loom := .running, keys := [(17, { active := some k })] } f = true
        ∧ ReadAdmitted { loom := .running, keys := [(17, { active := some k })] }
        (parseCompact (.twist 2 false f.hopSrc f.far (!f.up)) (padTo 32 f.payload))) := by
  refine ⟨by unfold ReadAdmitted; decide +kernel, by unfold ReadAdmitted; decide +kernel, by decide +kernel,
    by unfold ReadAdmitted; decide +kernel, by unfold ReadAdmitted; decide +kernel, ?_⟩
  let x : Bytes := [9, 0, 0, 0, 0, 0x11, 1, 0x40] ++ zeros 16
  refine ⟨[], { ty := 4, hopSrc := 0, hopDst := 0, far := 0, up := true, ack := false, payload := x ++ respTag [] x }, rfl, ?_⟩
  obtain ⟨y, hz, hy⟩ : ∃ y, respTag [] x = y ∧ y.length = 8 := ⟨_, rfl, sliceB_length _ _ _⟩
  simp only [hz]
  match y, hy with
  | [a, b, c, d, e, f, g, h], _ =>
    let z := padTo 32 (x ++ [a, b, c, d, e, f, g, h])
    have h7 : byteAt z 7 = 64 := rfl
    have h8 : sliceB z 8 16 = zeros 16 := rfl
    have h0 : padTo 24 z = x := rfl
    have h24 : sliceB z 24 8 = [a, b, c, d, e, f, g, h] := rfl
    have hk : ({ loom := .running, keys := [(17, { active := some [] })] } : Dev).key 17 = some [] := rfl
    have ha : (({ loom := .running, keys := [(17, { active := some [] })] } : Dev).slotAttr 17).testBit 3 = true := by decide +kernel
    have ho : ({ loom := .running, keys := [(17, { active := some [] })] } : Dev).slotOwner 17 = 2 := by decide +kernel
    refine ⟨rfl, rfl, rfl, ?_, ?_, rfl, ?_⟩
    · simp only [parseCompact]; rw [h7]; decide
    · simp only [parseCompact]; rw [h7]; decide
    · simp [Dev.front, Dev.roleFor, parseCompact, z, h7, h8, h0, h24, hk, ha, ho, hz, field, allZero, zeros]
      rfl

/-- Meets the hypotheses of RequestsInTheQueueAreServed. -/
theorem test_meets_requests_in_the_queue_are_served :
    let r : DReq := { dest := .host 3, src := srcHost 3, op := 1, entries := [{ ix := 0x1017, len := 2, data := [1, 0] }], phase := .accepted, role := .O }
    let d : Dev := { loom := .running, dict := { queue := [r] } }
    WaitsAlone d r .accepted ∧ (d.mb 3).ready = none
    ∧ WaitsAlone { d with dict := { queue := [{ r with op := 2 }] } } { r with op := 2 } .accepted
    ∧ (∀ x ∈ writeStatuses d { r with op := 2 }, x = 0)
    ∧ (let e : Dev := { d with dict := { queue := [{ r with op := 2, phase := .checked }] }, arb := { svcs := [(3, { grant := some { q := 36 } })] } }
       WaitsAlone e { r with op := 2, phase := .checked } .checked ∧ e.granted 36 3 = true)
    ∧ WaitsAlone { d with dict := { queue := [{ r with op := 2, phase := .ready }] } } { r with op := 2, phase := .ready } .ready
    ∧ ReadingsDone d := by
  unfold WaitsAlone ReadingsDone; decide +kernel

/-- Meets the hypotheses of SegmentedTransfers. -/
theorem test_meets_segmented_transfers :
    let x : DEntry := { ix := 0x4A00, sub := 2, len := 4, data := zeros 4 }
    let r : DReq := { dest := .host 3, src := srcHost 3, op := 3, trans := 7, entries := [x], phase := .accepted, role := .U }
    let d : Dev := { loom := .running, dict := { queue := [r], segs := [{ src := r.src, trans := 7, ix := 0x4A00, sub := 2 }] } }
    let r4 : DReq := { r with op := 4, entries := [{ ix := 0x4A00, sub := 1, len := 100 }] }
    let b : Bytes := [0x58, 0x4A, 1, 3, 0, 0, 16, 0, 7, 0, 0, 0, 0, 0, 1, 0, 0x00, 0x4A, 2, 0, 0, 0, 0, 0, 4, 0, 0, 0, 1, 2, 3, 4]
    (let e : Dev := { loom := .running }
     let p := parseRequest (.host 3) (srcHost 3) (e.get 0x1121 4 == 1) false b
     e.pauseHolds p = false ∧ (e.front p).1 = 0 ∧ p.op = 3 ∧ p.entries = [{ ix := 0x4A00, sub := 2, len := 4, data := [1, 2, 3, 4] }]
     ∧ e.inWindow p = none ∧ e.srcHigh p < p.trans ∧ e.srcTake p ≠ none)
    ∧ (WaitsAlone d r .accepted ∧ (d.mb 3).ready = none)
    ∧ (WaitsAlone { d with dict := { queue := [r4] } } r4 .accepted
       ∧ (readEntry { d with dict := { queue := [r4] } } r4 { ix := 0x4A00, sub := 1, len := 100 }).1 = 0)
    ∧ (let e : Dev := { loom := .running, now := 32000 * 10, dict := { segs := [{}], srcs := [(47, {})] } }
       e.running = true ∧ e.dict.segs[0]? = some ({} : SegRec) ∧ 0 + 32000 * e.get 0x1120 3 ≤ e.now)
    ∧ (let e : Dev := { loom := .running, now := 32000 * 600, dict := { srcs := [(47, {})] } }
       e.running = true ∧ tfind e.dict.srcs 47 = some ({} : SrcRec) ∧ 0 + 32000 * e.get 0x1120 2 ≤ e.now) := by
  unfold WaitsAlone; decide +kernel

/-- Meets the hypotheses of HostPortCommands. -/
theorem test_meets_host_port_commands :
    let b : Bytes := [0x58, 0x4A, 1, 1, 0, 0, 12, 0, 9, 0, 0, 0, 0, 0, 1, 0, 0x17, 0x10, 0, 0, 0, 0, 0, 0, 2, 0, 0, 0]
    let d : Dev := { loom := .running }
    ((d.mb 3).busy = false ∧ (d.mb 3).waiting.length < 16
       ∧ ReadAdmitted d (parseRequest (.host 3) (srcHost 3) (d.get 0x1121 4 == 1) false (padTo 28 (patchBytes (padTo 2048 (d.mb 3).area) 0 b))))
    ∧ (let e : Dev := { d with mbox := [(3, { busy := true })] }
       (e.mb 3).busy = true)
    ∧ (let e : Dev := { d with mbox := [(3, { ready := some [], waiting := [[1]] }), (4, { ready := some [] })] }
       (e.mb 3).ready = some [] ∧ (e.mb 3).held = none ∧ (e.mb 3).waiting = [1] :: [] ∧ (e.mb 4).waiting = [])
    ∧ Accepts d .O 0x2410 9 (.raw (zeros 32)) {} ∧ d.get 0x1017 0 ≠ 0 ∧ d.dict.sent = [] := by
  unfold Accepts ReadAdmitted; decide +kernel

/-- Meets the hypotheses of FilterChainWrites. -/
theorem test_meets_filter_chain_writes :
    let d : Dev := { loom := .running, objs := [(okey 0x2200 1, 3)] }
    Accepts d .S (0x3000 + 287) 2 (.num 5) (chanRules (d.set (0x3000 + 287) 2 5) 287)
    ∧ Accepts d .S (0x3400 + 3 * 16 + 1 * 2 + 1) 0 (.raw (zeros 44)) (bankRules d 3 1 1 (zeros 44) true)
    ∧ Accepts d .S (0x3480 + 3) 2 (.raw (zeros 20)) (swapRules d 3 (zeros 20))
    ∧ Accepts d .S (0x3480 + 3) 0xD (.num (2 ^ 3)) { atLife := if d.inService then 0 else 4 }
    ∧ Accepts d .S (0x34C0 + 3) 2 (.num 1) (lockRules d 2 1) := by
  unfold Accepts; decide +kernel

/-- Meets the hypotheses of CalibrationAndCaptures. -/
theorem test_meets_calibration_and_captures :
    let d : Dev := { loom := .running, now := 32000, objs := [(okey 0x2200 1, 3)] }
    Accepts d .S (0x3600 + 287) 4 (.raw (zeros 4)) (calRules (d.store (0x3600 + 287) 4 (.raw (zeros 4))))
    ∧ Accepts d .S (0x3600 + 287) 0xD (.num 1048576) {} ∧ Accepts d .S (0x3600 + 287) 0xD (.num 0) {}
    ∧ (let e : Dev := { d with objs := [(okey (0x3600 + 287) 0xE, 1)], cals := [(287, { cap := { start := 31001, len := 1000 } })] }
       e.get (0x3600 + 287) 0xE % 4 = 1 ∧ (e.cal 287).cap.start + (e.cal 287).cap.len ≤ e.now + 1)
    ∧ (let e : Dev := { d with objs := [(okey (0x3600 + 287) 5, 0), (okey (0x3600 + 287) 8, 0)] }
       e.get (0x3600 + 287) 5 < 288 ∧ (e.cal (e.get (0x3600 + 287) 5)).tempAt + 32000 ≤ e.now ∧ e.bitO (0x3600 + 287) 8 3 = false)
    ∧ (d.running = true ∧ d.isSealed = false ∧ ({ loom := .running, now := 32000, objs := [(okey 0x2200 1, 2)] } : Dev).isSealed = true
       ∧ ({} : Dev).tick.calCheck + 32000 ≤ d.now) := by
  unfold Accepts; decide +kernel

/-- Meets the hypotheses of MetersAndPulses. -/
theorem test_meets_meters_and_pulses :
    let d : Dev := { loom := .running, now := 100 }
    (let e : Dev := { d with meters := [(35, { due := some {}, closed := [{}] })] }
     (e.meter 35).due = some ({} : Quantum) ∧ (e.meter 35).closed = ({} : Quantum) :: [] ∧ ({} : Quantum).regAt ≤ e.now
       ∧ 1 ≤ e.get (meterIx 35 + 8) 5 ∧ e.get (meterIx 35 + 8) 5 ≤ 8)
    ∧ (let e : Dev := { d with objs := [(okey 0x2200 1, 3)] }
       Accepts e .S (meterIx 35 + 4) 3 (.num 2000) (meterRules (e.set (meterIx 35 + 4) 3 2000)))
    ∧ (let e : Dev := { d with pulses := [(3, { high := some 101 })] }
       (e.pulse 3).high = some 101 ∧ 101 ≤ e.now + 1)
    ∧ (let e : Dev := { d with objs := [(okey 0x2200 1, 3)] }
       Accepts e .S (0x49F0 + 3) 4 (.num 640) {}) := by
  unfold Accepts; decide +kernel

/-- Meets the hypotheses of BoundarySteps. -/
theorem test_meets_boundary_steps :
    let d : Dev := { loom := .running, now := 32000 * 900 }
    (d.running = true ∧ QuietStep d)
    ∧ (let e : Dev := { d with supply := { hold := true }, bill := { commanded := some 1 } }
       e.running = true ∧ e.stepWaits = true ∧ e.stepDue (e.now + 1) = true ∧ e.deviceDue 35 (e.now + 1) = true)
    ∧ (let e : Dev := { loom := .running, bill := { deferred := true } }
       e.bill.deferred = true ∧ QuietStep { e with bill := { e.bill with deferred := false } } ∧ (∀ m, m < 36 → e.deviceDue m (e.now + 1) = false))
    ∧ (d.civil.valid = false ∧ d.stepWaits = false ∧ d.bill.deferred = false ∧ d.get (meterIx 35 + 0x19) 1 + d.subLen 35 * 32000 ≤ d.now + 1)
    ∧ (let e : Dev := { d with arb := { svcs := [(3, { grant := some { q := 32 } })] } }
       e.granted 32 3 = true) := by
  unfold QuietStep ReadingsDone; decide +kernel

/-- Meets the hypotheses of CivilTimeCommands. -/
theorem test_meets_civil_time_commands :
    let d : Dev := { loom := .running, now := 5 }
    Accepts d .U 0x4A90 2 (.raw (zeros 20)) (stepRules d (zeros 20)) ∧ Accepts d .U 0x4A90 3 (.num 4294967295) {}
    ∧ (let e : Dev := { d with civil := { valid := true, base := 6, secs := 3600 } }
       e.running = true ∧ e.civil.valid = true ∧ e.hourAt (e.now + 1) = true) := by
  unfold Accepts; decide +kernel

/-- Meets the hypotheses of TariffWritesAndSnapshots. -/
theorem test_meets_tariff_writes_and_snapshots :
    let d : Dev := { loom := .running, objs := [(okey 0x2200 1, 3)] }
    Accepts d .U (meterIx 35 + 8) 4 (.num 8) (billingRules (d.set (meterIx 35 + 8) 4 8) 35 4)
    ∧ Accepts d .U (calendarIx 3) 2 (.raw defaultCalendar) (calendarRules defaultCalendar true)
    ∧ Accepts d .U (calendarIx 3) 3 (.num 1) {} ∧ QuietStep d
    ∧ Accepts d .U 0x4C00 3 (.num 1) (snapshotRules d) ∧ Accepts d .U 0x4C00 3 (.num 2) (snapshotRules d) := by
  unfold Accepts QuietStep ReadingsDone; decide +kernel

/-- Meets the hypotheses of SessionRecordsAndReadings. -/
theorem test_meets_session_records_and_readings :
    let d : Dev := { loom := .running, now := 1920000, objs := [(okey 0x2200 1, 3)], keys := [(8, { active := some [1] })] }
    (let e : Dev := { loom := .running, now := 1086, bill := { sessions := [(31, { ended := some 0 })] } }
     e.running = true ∧ (tfind e.bill.sessions 31).map (·.ended) = some (some 0) ∧ 0 + 1086 ≤ e.now ∧ e.stepWaits = false ∧ e.key 8 = none)
    ∧ Accepts d .U (0x4D90 + 35) 2 (.num 1) (readingRules d 1)
    ∧ (let e : Dev := { d with objs := [(okey (0x4D90 + 35) 3, 1), (okey 0x2200 1, 3)] }
       e.get (0x4D90 + 35) 3 ≠ 0 ∧ e.now % (e.get (0x4D90 + 35) 3 * 1920000) = 0 ∧ e.key 8 = some [1] ∧ (1 ≤ e.life ∧ e.life ≤ 3) ∧ e.pausing 3 = false
       ∧ e.upd.noMetrology = false ∧ e.reads.queue.length < 1024
       ∧ (({ reads := { periodic := [35] } } : Dev).reads.starts = [] ∧ ({ reads := { periodic := [35] } } : Dev).reads.periodic = [35])
       ∧ ({ e with supply := { hold := true } } : Dev).supply.hold = true)
    ∧ (let e : Dev := { d with reads := { queue := [{ key := [1] }] } }
       e.running = true ∧ e.reads.queue = ({ key := [1] } : ReadingRec) :: [] ∧ ({ key := [1] } : ReadingRec).sig = none ∧ ({ key := [1] } : ReadingRec).key ≠ [])
    ∧ (let k : Bytes := zeros 57
       let r : ReadingRec := { key := k, sig := some (padTo 114 (ed448Sign k readingContext [])) }
       let e : Dev := { d with reads := { queue := [r] } }
       e.running = true ∧ e.reads.queue = r :: [] ∧ r.sig.isSome = true ∧ r.verified = true ∧ e.dict.queue = [] ∧ e.trans = none ∧ e.reads.switchDue = false)
    ∧ (let e : Dev := { d with reads := { lost := [{}] } }
       e.running = true ∧ e.reads.lost = ({} : LostReading) :: [] ∧ e.reads.queue = [] ∧ e.key 8 = some [1] ∧ (1 ≤ e.life ∧ e.life ≤ 3)
       ∧ ({} : LostReading).meter < 36 ∧ e.supply.hold = false ∧ e.recordCommitted {} = true) := by
  unfold Accepts; decide +kernel

/-- Meets the hypotheses of TamperDomain. -/
theorem test_meets_tamper_domain :
    let d : Dev := { loom := .running, objs := [(okey 0x2200 1, 3)] }
    (d.tamper.stopped = false ∧ d.bitO 0x4DE0 6 7 ≠ true ∧ ({ enabled := 0xFF } : TamperRec).enabled.testBit 7 = true ∧ d.tamper.debounce.getD 7 0x20 ≤ 32
      ∧ d.tamperSlot = some 0)
    ∧ (let e : Dev := { d with blobs := [(okey 0x4DE2 64, zeros 8 ++ [5, 0, 0, 0, 0, 0, 0, 0])] }
       e.tamperDue 63 = true ∧ (e.tamperRec 63).length = 16)
    ∧ d.bitO 0x4DE0 4 1 = false ∧ ({ stopped := true } : TamperRec).stopped = true ∧ ({} : Dev).loom = .unpowered
    ∧ Accepts d .S (0x4DE0 + 0) 1 (.num 0xFF) {} := by
  unfold Accepts; decide +kernel

/-- Meets the hypotheses of PilotAndSlac. -/
theorem test_meets_pilot_and_slac :
    let d : Dev := { loom := .running, objs := [(okey (outletIx 31) 1, 0x84), (okey (outletIx 31 + 3) 1, 1), (okey (outletIx 31 + 3) 2, 2)], outs := [(31, { cand := 0, candRun := 2, slac := { stage := 1, mac := 7, run := 9 } })] }
    (d.running = true ∧ 2 ≤ (d.out 31).candRun ∧ (d.out 31).cand ≠ d.pilotState 31 ∧ (d.out 31).cand < 8)
    ∧ (d.slacOn 31 = true ∧ (d.out 31).slac.stage = 1 ∧ (d.out 31).slac.mac = 7 ∧ (d.out 31).slac.run = 9)
    ∧ (let e : Dev := d.setSlac 31 { stage := 2, left := 1, sounds := 1, sums := [3] }
       e.slacOn 31 = true ∧ (e.out 31).slac.stage = 2 ∧ 1 ≤ (e.out 31).slac.left ∧ 1 ≤ (e.out 31).slac.sounds ∧ 1 ≤ (e.out 31).slac.sums.length)
    ∧ (let e : Dev := d.setSlac 31 { stage := 4, average := 0 }
       e.slacOn 31 = true ∧ (e.out 31).slac.average ≤ e.get (outletIx 31 + 5) 2)
    ∧ (let e : Dev := d.setSlac 31 { stage := 4, average := 1000 }
       e.slacOn 31 = true ∧ e.get (outletIx 31 + 5) 2 < (e.out 31).slac.average) := by
  decide +kernel

/-- Meets the hypotheses of VehicleFrames. -/
theorem test_meets_vehicle_frames :
    let d := fun k st : Nat => ({ loom := .running, now := 400000, objs := [(okey (linkIx 31) 2, 5), (okey 0x261C 1, 1), (okey (outletIx 31 + 3) 1, st), (okey (outletIx 31 + 4) 8, 1)],
                                             links := [(31, { lineGen := 2 })], outs := [(31, { code := k, slac := { stage := 5 } })] } : Dev)
    ((d 4 2).etherOpen 31 = true ∧ (d 4 2).get 0x261C 1 = 1 ∧ (d 4 2).running = true ∧ ((2 ≤ (d 4 2).code 31 ∧ (d 4 2).code 31 ≤ 4) ∨ (d 4 2).code 31 = 7) ∧ (d 4 2).stepIn 31 2 6 = true ∧ ((d 4 2).out 31).frameAt + 320000 ≤ (d 4 2).now + 1)
    ∧ (d 1 6).etherOpen 31 = false
    ∧ ((d 4 2).frameBytes 31 = 0
       ∧ (let e : Dev := { (d 4 2) with vcs := [(4, { out := [⟨0x40, 31, List.replicate (Config.frameShare + 1) 0⟩] })] }
          Config.frameShare < e.frameBytes 31 + ([] : Bytes).length ∧ e.frameBytes 31 - (Config.frameShare + 1) + ([] : Bytes).length ≤ Config.frameShare
          ∧ e.get 0x261C 1 = 1))
    ∧ ((d 5 6).canOpen 31 = true ∧ (d 5 6).running = true ∧ (d 5 6).tunnel 31 = true ∧ (d 5 6).code 31 = 5 ∧ (0x7FF < 0x800 ∧ 0x7FF ≠ 0x102)
       ∧ (d 5 6).stepIn 31 2 6 = true ∧ ((d 5 6).out 31).reqAt + 32 * (d 5 6).get (outletIx 31 + 6) 0xA ≤ (d 5 6).now + 1)
    ∧ (d 6 2).code 31 = 6 ∧ (d 6 2).tunnel 31 = true
    ∧ ((d 7 5).code 31 = 7 ∧ (d 7 5).stepIn 31 5 6 = true ∧ (d 7 5).pilotSample 31 < (d 7 5).get (outletIx 31 + 4) 8) := by
  refine ⟨by decide +kernel, by decide +kernel, ⟨by decide +kernel, ?_, ?_, by decide +kernel⟩, by decide +kernel, by decide +kernel, by decide +kernel, by decide +kernel⟩
  · simp [Dev.frameBytes, tget, sumN]
  · simp [Dev.frameBytes, tget, sumN]

/-- Meets the hypotheses of SequencerTimeouts. -/
theorem test_meets_sequencer_timeouts :
    let d := fun st : Nat => ({ loom := .running, now := 4000000, objs := [(okey (outletIx 31 + 3) 1, st)], outs := [(31, { limitsAt := some 0 })] } : Dev)
    ((d 5).running = true ∧ (d 5).stepIn 31 2 6 = true ∧ (d 5).warned = false ∧ (d 5).get (outletIx 31 + 6) ((d 5).step 31) ≠ 0
      ∧ ((d 5).out 31).since + (d 5).get (outletIx 31 + 6) ((d 5).step 31) ≤ (d 5).now + 1)
    ∧ ((d 8).step 31 = 8 ∧ (d 8).get (outletIx 31 + 6) 8 ≠ 0 ∧ ((d 8).out 31).since + (d 8).get (outletIx 31 + 6) 8 ≤ (d 8).now + 1)
    ∧ ((d 0).limitsOld 31 ((d 0).now + 1) = true ∧ (d 0).bitO (outletIx 31 + 3) 2 3 = false
       ∧ ((d 0).set (outletIx 31 + 3) 2 8).bitO (outletIx 31 + 3) 2 3 = true)
    ∧ ({} : Dev).running = false := by
  decide +kernel

/-- Meets the hypotheses of OutletWrites. -/
theorem test_meets_outlet_writes :
    let d := fun st : Nat => ({ loom := .running, objs := [(okey 0x2200 1, 3), (okey (outletIx 31 + 3) 1, st)] } : Dev)
    Accepts (d 0) .O (outletIx 31 + 1) 1 (.num 65535) {}
    ∧ Accepts (d 1) .O (outletIx 31 + 2) 1 (.num 1) (controlRules (d 1) 31 1 1)
    ∧ (Accepts (d 2) .O (outletIx 31 + 2) 1 (.num 1) {} ∧ (d 2).step 31 ≠ 1)
    ∧ (Accepts (d 6) .O (outletIx 31 + 2) 4 (.num 1) {} ∧ Accepts (d 6) .O (outletIx 31 + 2) 4 (.num 2) {}
       ∧ Accepts (d 6) .O (outletIx 31 + 2) 4 (.num 4) {})
    ∧ Accepts (d 0) .S (outletIx 31 + 2) 5 (.num 1) (controlRules (d 0) 31 5 1) ∧ Accepts (d 0) .S (outletIx 31 + 2) 5 (.num 0) {}
    ∧ Accepts (d 0) .O (outletIx 31) 1 (.num 0x86) (outletRules (d 0) (d 0) 31 1 0x86)
    ∧ Accepts (d 6) .O (outletIx 31) 1 (.num 0x00) (outletRules (d 6) (d 6) 31 1 0x00) := by
  unfold Accepts; decide +kernel

/-- Meets the hypotheses of OutletTrips. -/
theorem test_meets_outlet_trips :
    let d : Dev := { loom := .running, now := 6400, prots := [(31, { selfTest := some 0, firstDone := true })] }
    (({} : Dev).tripHeld 31 = false ∧ (15 ≠ 0 ∧ 15 ≠ 11 ∧ 15 < 16 ∧ 31 < 32))
    ∧ (d.loom ≠ .unpowered ∧ 4 * (d.get (protIx 7) 0x20 : Int) < 400000)
    ∧ (let e : Dev := d.setProt 31 { selfTest := some 0, win := [{ y := 100000000 }] }
       (e.prot 31).firstDone = false ∧ dcAbove (windowSums (residualW e 31) (e.prot 31).win).1 (residualW e 31) (e.get (protIx 31) 0xE) 1 2 = true)
    ∧ (d.running = true ∧ (d.prot 31).selfTest = some 0 ∧ (d.prot 31).firstDone = true ∧ 0 + 6400 ≤ d.now + 1
       ∧ dcAbove (windowSums (residualW d 31) (d.prot 31).win).1 (residualW d 31) (bandLevel d 31 4) 1 2 = false)
    ∧ (let e : Dev := d.setProt 31 { selfTest := some 0, firstDone := true, win := [{ y := 100000000 }] }
       dcAbove (windowSums (residualW e 31) (e.prot 31).win).1 (residualW e 31) (bandLevel e 31 4) 1 2 = true ∧ e.tripHeld 31 = false) := by
  decide +kernel

/-- Meets the hypotheses of InsulationAndClearing. -/
theorem test_meets_insulation_and_clearing :
    let d := fun k : Nat => ({ loom := .running, now := 400000, objs := [(okey 0x2200 1, 3)], prots := [(31, { ins := { state := k } })] } : Dev)
    ((d 1).running = true ∧ ((d 1).prot 31).ins.state = 1 ∧ ((d 1).prot 31).ins.start + (d 1).insTicks 31 ≤ (d 1).now + 1)
    ∧ (((d 2).prot 31).ins.vp1 - ((d 2).prot 31).ins.vn1 < 655360000)
    ∧ (let i : InsRec := { state := 2, vp1 := 1000000000, vn1 := -10000000, vp := 1010000000, vn := 0 }
       let e : Dev := (d 2).setProt 31 { ins := i }
       let u1 := i.vp1 - i.vn1
       let u2 := i.vp - i.vn
       let det := i.vp1 * i.vn - i.vn1 * i.vp
       let riso := e.get (insIx 31) 4 * det / (i.vp1 * u2)
       655360000 ≤ u1 ∧ (u2 - u1).natAbs * 50 ≤ u1 ∧ 0 < det ∧ i.vn = 0 ∧ 0 < i.vp1 * u2 ∧ riso < 0xFFFFFFFF
       ∧ e.get (insIx 31) 7 * e.ratedV 31 < riso)
    ∧ (let e : Dev := { d 0 with groups := [(7, { zeroRun := 64 })] }
       Accepts e .O (protIx 7) 0x26 (.num 1) (protRules e (e.set (protIx 7) 0x26 1) .O 7 0x26 1))
    ∧ (let e : Dev := (d 0).set (protIx 31) 0x12 1
       Accepts e .O (protIx 31) 0x15 (.num 1) (protRules e (e.set (protIx 31) 0x15 1) .O 31 0x15 1)
       ∧ (e.tripHeld 31 = true ∧ (e.set (protIx 31) 0xF 1).get (protIx 31) 0xF = 1 ∧ e.bitO (protIx 31) 0x12 11 = false ∧ tripClearable e 31 = true))
    ∧ (let e : Dev := (d 0).set (outletIx 31 + 3) 1 2
       Accepts e .O (protIx 31) 0x15 (.num 1) {} ∧ 2 ≤ e.step 31 ∧ e.bitO (protIx 31) 0x12 11 = false)
    ∧ Accepts (d 0) .O (protIx 31) 0xF (.num 1) (protRules (d 0) ((d 0).set (protIx 31) 0xF 1) .O 31 0xF 1)
    ∧ Accepts (d 0) .O (protIx 7) 0x22 (.num 3) (protRules (d 0) ((d 0).set (protIx 7) 0x22 3) .O 7 0x22 3)
    ∧ Accepts (d 0) .O (insIx 31) 1 (.num 1) (insRules (d 0) ((d 0).set (insIx 31) 1 1) 31 1 1) := by
  unfold Accepts; decide +kernel

/-- Meets the hypotheses of AxisCommands. -/
theorem test_meets_axis_commands :
    let d : Dev := { loom := .running, objs := [(okey 0x2200 1, 3), (okey (axisIx 3) 0x10, 5), (okey (axisIx 3) 0x30, 0x81)], axes := [(3, { clean := 32 })] }
    (Accepts d .O (axisIx 3) 0x20 (.num 1) {} ∧ d.ax 3 4 = false)
    ∧ (let e : Dev := d.set (axisIx 3) 0x30 0x10
       Accepts e .O (axisIx 3) 0x20 (.num 1) {} ∧ e.ax 3 4 = true ∧ e.ax 3 2 = false
       ∧ Accepts e .O (axisIx 3) 0x20 (.num 3) {} ∧ e.ax 3 0 = false ∧ e.ax 3 3 = false ∧ e.get (axisIx 3) 0x10 ≠ 0)
    ∧ Accepts d .O (axisIx 3) 0x20 (.num 2) (stoRules d 3 2)
    ∧ (let e : Dev := d.set (axisIx 3) 0x30 0x85
       Accepts e .O (axisIx 3) 0x20 (.num 2) {} ∧ e.ax 3 2 = true ∧ Accepts e .O (axisIx 3) 0x22 (.num 1) (axisRules e (e.set (axisIx 3) 0x22 1) .O 3 0x22 1))
    ∧ Accepts d .O (axisIx 3) 0x21 (.num 1) {} ∧ Accepts d .O (axisIx 3) 0x18 (.num 4294967295) (axisRules d (d.set (axisIx 3) 0x18 4294967295) .O 3 0x18 4294967295) := by
  unfold Accepts; decide +kernel

/-- Meets the hypotheses of AxisEvents. -/
theorem test_meets_axis_events :
    let d : Dev := { loom := .running, now := 4000000, objs := [(okey (axisIx 3) 0x10, 5), (okey (axisIx 3) 0x30, 0)] }
    d.loom ≠ .unpowered
    ∧ (let e := d.setAxis 3 { ss1 := some { host := true }, standRun := 32 }
       e.running = true ∧ (e.axis 3).ss1 = some { host := true } ∧ e.takingOver = false ∧ e.ax 3 4 = false ∧ 32 ≤ (e.axis 3).standRun)
    ∧ (let e := d.setAxis 3 { ss1 := some { host := true }, standRun := 31 }
       (e.axis 3).standRun < 32 ∧ 0 + 32 * e.get (axisIx 3) 0x12 ≤ e.now + 1 ∧ e.ax 3 2 = false)
    ∧ (let e := d.setAxis 3 { degradedAt := some 0 }
       (e.axis 3).degradedAt = some 0 ∧ 0 + 32000 * e.get (axisIx 3) 0x13 ≤ e.now + 1 ∧ e.ax 3 0 = false ∧ e.ax 3 3 = false
       ∧ e.get (axisIx 3) 0x10 ≠ 0 ∧ e.takingOver = false)
    ∧ (let e := (d.setAxis 3 { degradedAt := some 0 }).set (axisIx 3) 0x30 3
       (e.axis 3).degradedAt = some 0 ∧ 0 + 32000 * e.get (axisIx 3) 0x13 ≤ e.now + 1 ∧ e.ax 3 0 = true ∧ e.ax 3 2 = false ∧ e.takingOver = false)
    ∧ (let e := d.setAxis 3 { armed := true }
       (e.axis 3).armed = true ∧ (e.axis 3).x.edge = false ∧ (e.axis 3).y.edge = false)
    ∧ (let e := d.setAxis 3 { armed := true, y := { edge := true } }
       let r := e.axis 3
       r.armed = true ∧ r.x.edge = false ∧ r.y.edge = true
       ∧ indexLate (e.unitsOf 3) (e.get (axisIx 3) 0x15) (e.res 3 false) (e.res 3 true) { r.x with p := r.x.p + countStep r.x.last 0 } r.y = false
       ∧ ((r.x.p - (r.x.p + countStep r.x.last 0)) * e.unitsOf 3 * (e.res 3 true : Int) + e.getS 64 (axisIx 3) 0x14 * (e.res 3 false : Int) * (e.res 3 true : Int)
            - ((r.y.p - r.y.origin) * e.unitsOf 3 * (e.res 3 false : Int) + r.y.ref * (e.res 3 false : Int) * (e.res 3 true : Int))).natAbs
          ≤ e.get (axisIx 3) 6 * (e.res 3 false : Int) * (e.res 3 true : Int))
    ∧ (let e : Dev := { d with whorl := { sto := 0 } }
       e.stoHigh 3 true = true ∧ e.pulseOld 32000 (e.axis 3).pulseY = true ∧ e.pulseOld 16000 (e.axis 3).pulseX = true ∧ e.ax 3 2 = false)
    ∧ (let e := (((d.setAxis 3 { armed := true, y := { edge := true } }).set (axisIx 3) 2 1).set (axisIx 3) 3 1).set (axisIx 3) 0x15 1
       let r := e.axis 3
       indexLate (e.unitsOf 3) (e.get (axisIx 3) 0x15) (e.res 3 false) (e.res 3 true) { r.x with p := r.x.p + countStep r.x.last 9 } r.y = true) := by
  decide +kernel

/-- Meets the hypotheses of WhorlPairsAndIsland. -/
theorem test_meets_whorl_pairs_and_island :
    let d := fun p : Nat => ({ loom := .running, now := 20, objs := [(okey 0x6800 0x40, p)] } : Dev)
    ((d 1).running = true ∧ (d 1).activePair = 1 ∧ (d 1).pairFailed 1 = false ∧ (d 1).pairFailed (1 - 1) = false)
    ∧ ((d 5).activePair = 1 ∧ (d 5).pairFailed 1 = false ∧ (d 5).pairFailed (1 - 1) = true)
    ∧ ((d 0).activePair = 1 - 1 ∧ (d 0).pairFailed 1 = false)
    ∧ (let e : Dev := { d 7 with whorl := { takeover := some 14 } }
       e.whorl.takeover = some 14 ∧ 14 ≤ e.now ∧ e.now + 1 ≤ 14 + 7)
    ∧ (let e : Dev := { d 7 with whorl := { takeover := some 5, spareOk := true } }
       e.whorl.takeover = some 5 ∧ e.whorl.spareOk = true ∧ 5 + 16 ≤ e.now + 1 ∧ ∀ a, a < 4 → (e.axis a).due = none ∧ (e.axis a).dueSs1 = false)
    ∧ (let e : Dev := { d 7 with whorl := { takeover := some 5, spareOk := true }, axes := [(3, { due := some (2, false) })] }
       (e.axis 3).due = some (2, false) ∧ e.ax 3 4 = false ∧ e.ax 3 2 = false ∧ ∀ b, b < 4 → b ≠ 3 → (e.axis b).due = none ∧ (e.axis b).dueSs1 = false)
    ∧ (let e : Dev := { d 0 with whorl := { silent := 32 } }
       e.loom = .running ∧ e.whorl.island = false ∧ 32 ≤ e.whorl.silent) := by
  decide +kernel

/-- Meets the hypotheses of LoadChannelStates. -/
theorem test_meets_load_channel_states :
    let d := fun st : Nat => ({ objs := [(okey (loadIx 63) 1, 5), (okey (loadIx 63) 0x10, st)], loads := [(63, { offTicks := 336 })] } : Dev)
    ((d 1).loadState 63 = 1 ∧ (d 4).loadState 63 = 4 ∧ (d 5).loadState 63 = 5 ∧ (d 3).loadState 63 = 3)
    ∧ (((d 0).set (loadIx 56) 0x22 0).bankLow (8 * 7) = false ∧ (d 0).bankLow (8 * 7) = true)
    ∧ ((d 0).bitO (loadIx 63) 1 2 = true ∧ (d 0).loadState 63 = 0 ∧ ((d 0).load 63).phaseEnd + 16 ≤ ((d 0).load 63).offTicks) := by
  decide +kernel

/-- Meets the hypotheses of LoadCommandsAndBudget. -/
theorem test_meets_load_commands_and_budget :
    let d := fun st : Nat => ({ loom := .running, objs := [(okey 0x2200 1, 3), (okey (loadIx 63) 1, 0x21), (okey (loadIx 63) 0x10, st), (okey (loadIx 63) 0x22, 0)],
                                budget := { mean := 6001 * 32768, since := 3200 } } : Dev)
    (Accepts (d 0) .O (loadIx 63) 3 (.num 1) (loadRules (d 0) .O 63 3 1) ∧ (d 0).loadState 63 = 0 ∧ (d 0).bankLow 63 = false
      ∧ Accepts (d 3) .O (loadIx 63) 3 (.num 0) (loadRules (d 3) .O 63 3 0) ∧ (d 3).hold.active = false
      ∧ (let e : Dev := { d 0 with hold := { active := true } }
         Accepts e .O (loadIx 63) 3 (.num 1) (loadRules e .O 63 3 1) ∧ e.hold.active = true))
    ∧ (let e : Dev := ((d 0).set (outletIx 31) 1 0x80).set (outletIx 31) 2 63
       Accepts e .O (loadIx 63) 3 (.num 1) {} ∧ e.owner 63 = some 31)
    ∧ Accepts (d 0) .O (loadIx 63) 2 (.num 100) (loadRules (d 0) .O 63 2 100) ∧ Accepts (d 3) .O (loadIx 63) 1 (.num 0x77) (loadRules (d 3) .O 63 1 0x77)
    ∧ (Accepts (d 6) .O (loadIx 63) 0x17 (.num 1) (loadRules (d 6) .O 63 0x17 1) ∧ (d 6).loadState 63 = 6)
    ∧ ((d 3).overBudget = true ∧ 3200 ≤ (d 3).budget.since ∧ (d 3).shedNext = some 63 ∧ (d 0).shedNext = none)
    ∧ (let e : Dev := { d 7 with budget := { order := [63], under := 32000, since := 3200 } }
       e.budget.order = 63 :: [] ∧ 32000 ≤ e.budget.under ∧ 3200 ≤ e.budget.since ∧ e.loadState 63 = 7) := by
  unfold Accepts; decide +kernel

/-- Meets the hypotheses of PanelCommands. -/
theorem test_meets_panel_commands :
    let d : Dev := { loom := .running, now := 126, objs := [(okey 0x2200 1, 3), (okey 0x7409 16, 0x80000000)] }
    (d.running = true ∧ d.pausing 1 = false ∧ (d.now + 1) % 128 = 127 ∧ ({} : Dev).running = false)
    ∧ Accepts d .O (dispIx 1) 1 (.num 0) (portRules d (d.set (dispIx 1) 1 0) 1 1 0) ∧ Accepts d .O (dispIx 1) 1 (.num 1) (portRules d (d.set (dispIx 1) 1 1) 1 1 1)
    ∧ Accepts d .O (0x7420 + 1) (15 + 1) (.raw [0x0F]) (updateRules d (d.setB (0x7420 + 1) (15 + 1) [0x0F]) 1 15 [0x0F])
    ∧ Accepts d .O (0x7408 + 1) 0x10 (.num 0x80000000) (regionRules d (d.set (0x7408 + 1) 0x10 0x80000000) .O 1 0x10 0x80000000)
    ∧ Accepts d .S (0x7410 + 8 * 1 + 5) 0 (.raw defaultWaveform) (waveRules d defaultWaveform true) := by
  refine ⟨by decide +kernel, by unfold Accepts; decide +kernel, by unfold Accepts; decide +kernel, by unfold Accepts; decide +kernel,
    by unfold Accepts; decide +kernel, ?_⟩
  have h : waveRules { loom := .running, now := 126, objs := [(okey 0x2200 1, 3), (okey 0x7409 16, 0x80000000)] } defaultWaveform true = {} := by
    unfold waveRules; rw [shipped_table_ok]; rfl
  rw [h]; unfold Accepts; decide +kernel

set_option maxRecDepth 100000 in
/-- A row of zeros is a codeword. -/
theorem test_zero_row_decodes : (rsBytes 32 (zeros 255) []).isSome = true := by decide +kernel

/-- Meets the hypotheses of TwistLanes. -/
theorem test_meets_twist_lanes :
    let m : Bytes := [0] ++ List.replicate 12 1 ++ List.replicate 8 5 ++ List.replicate 11 0
    let d : Dev := { loom := .running, objs := [(okey 0x2200 1, 3), (okey (laneIx 2) 0x10, 2)], blobs := [(okey 0x7814 0, m)] }
    d.running = true ∧ d.laneState 2 = 2 ∧ d.laneTarget 2 ≠ 2
    ∧ Accepts d .O (laneIx 2) 1 (.num 1) {} ∧ Accepts d .O (laneIx 2) 3 (.num 5) {}
    ∧ Accepts d .O (0x7818 + 5) 0 (.raw (d.getB (0x7818 + 5) 0)) (mapRules d 5 (d.getB (0x7818 + 5) 0))
    ∧ (let e : Dev := { d with
         objs := [(okey (laneIx 0) 0x10, 1), (okey 0x7820 1, 1)], civil := { valid := true, secs := 5 }, lanes := [(0, { wins := [(d.now + 3, 0)] })] }
       e.mapsPending = true ∧ e.civil.valid = true ∧ e.activates 0 = true)
    ∧ (rsBytes 32 (zeros 255) []).isSome = true
    ∧ (let x : BulkRx := { wins := List.replicate 256 (some [0]), caps := [[1, 1, 1, 1, 1, 1, 1, 1]] }
       x.rows = [zeros 255] ∧ x.erased = [])
    ∧ (({} : BulkRx).rows = [] ∧ ({} : CtlTx).prio ≤ 4)
    ∧ (let e : Dev := d.setLane 2 { ctlQ := [{}], burst := [{}] }
       e.mayTransmit 2 = true ∧ (e.lane 2).txBits = [] ∧ (e.lane 2).flight = none ∧ (e.lane 2).controlFree = true ∧ e.mesh.queue = []
       ∧ (e.lane 2).ctlQ = [({} : CtlTx)] ∧ (e.lane 2).burst = [({} : BulkTx)] ∧ ({} : BulkTx).prio ≠ 4 ∧ (e.lane 2).burstWait = 0
       ∧ (e.lane 2).txBulk = [] ∧ (e.lane 2).bulkFree = true ∧ 8 ≤ classBits (e.map 2 0) true) := by
  refine ⟨by decide +kernel, by decide +kernel, by decide +kernel, by unfold Accepts; decide +kernel, by unfold Accepts; decide +kernel,
    by unfold Accepts; decide +kernel, by decide +kernel, test_zero_row_decodes, by decide +kernel, by decide +kernel, by decide +kernel⟩

/-- Meets the hypotheses of MeshNode. -/
theorem test_meets_mesh_node :
    let f := fun t : Nat => (⟨t, 5, 9, 9, true, false, zeros 24⟩ : MeshFrame)
    let m : Bytes := [0] ++ List.replicate 8 1 ++ List.replicate 8 5 ++ List.replicate 15 0
    let d : Dev := { loom := .running, now := 1000000000, objs := [(okey 0x1018 2, 0), (okey 0x1018 4, 0), (okey 0x2200 1, 3), (okey 0x7A00 1, 1), (okey 0x7A00 0x10, 9)],
                     mesh := { nbrs := [(nbrKey 2 5, { err := 0, relays := true, heardAt := 1000000000 })], joinAt := some 0, down := [(7, {})] } }
    (d.running = true ∧ d.meshRole = 1 ∧ (f 0x10).ack = false ∧ leAt (f 0x10).payload 0 2 = d.get 0x7A00 2)
    ∧ (thas d.mesh.nbrs (nbrKey 2 (f 0x12).hopSrc) = true ∧ leAt (f 0x12).payload 0 8 = d.longIdent ∧ (f 0x15).hopDst = d.meshAddr
       ∧ ({ f 0x12 with hopDst := meshNew } : MeshFrame).hopDst = meshNew)
    ∧ (d.mesh.joinAt = some 0 ∧ d.mesh.joined = false ∧ 0 + 3 * d.beaconTicks ≤ d.now)
    ∧ (let e : Dev := { d with mesh := { d.mesh with joined := true, down := [] } }
       e.mesh.joined = true ∧ e.mesh.parent = none ∧ (bestParent e.parents).isSome = true ∧ e.mesh.down = []
       ∧ ({ e with mesh := { e.mesh with parent := some (2, 5) } } : Dev).mesh.keepAt ≠ e.now / max 1 e.keepTicks + 1)
    ∧ (let e := d.setLane 0 { await := [{ since := 100, tries := 2 }] }
       (e.lane 0).await = [({ since := 100, tries := 2 } : CtlTx)] ∧ (e.lane 1).await = [] ∧ (e.lane 2).await = [] ∧ 100 ≤ (100 : Nat)
       ∧ ({ since := 100, tries := 3 } : CtlTx).tag = none)
    ∧ (tfind d.mesh.down 7 = some {} ∧ ({} : DownRec).at' + 4 * d.keepTicks ≤ d.now)
    ∧ (let p : Bytes := zeros 8 ++ m ++ m ++ m ++ m ++ m ++ m
       d.mesh.floods.contains 9 = false ∧ ({ floods := [9] } : MeshRec).floods.contains 9 = true ∧ p.length = 200
       ∧ ∀ w, w < 6 → mapOk (sliceB p (8 + 32 * w) 32) (sliceB p (8 + 32 * (if w % 2 = 0 then w + 1 else w - 1)) 32) = true)
    ∧ Accepts d .U 0x7A00 (1 + 1) (.num 65535) {} ∧ Accepts d .U 0x7A00 (0 + 1) (.num 2) {} := by
  unfold Accepts; decide +kernel

/-- Meets the hypotheses of MeshCollector. -/
theorem test_meets_mesh_collector :
    let f := fun t : Nat => (⟨t, 5, 0, 31, true, false, zeros 32⟩ : MeshFrame)
    let r : EndRec := { state := 1 }
    let d : Dev := { loom := .running, now := 1000000000, objs := [(okey 0x2200 1, 3), (okey 0x7A00 1, 2), (okey 0x7A00 6, 1), (okey 0x7A00 0x10, 0)],
                     mesh := { nbrs := [(nbrKey 2 5, {})], table := [(31, { state := 1 })], rebuild := some 0 } }
    let v : Bytes := natLE 8 77 ++ natLE 4 262141 ++ [3, 1, 0, 0]
    (d.running = true ∧ d.meshRole = 2 ∧ d.mapsPending = false ∧ d.mesh.beaconAt ≠ d.now / max 1 d.beaconTicks + 1)
    ∧ ((⟨0x11, meshNew, 0, meshNew, true, false, zeros 32⟩ : MeshFrame).hopSrc = meshNew ∧ 0 = d.meshAddr
       ∧ d.mesh.table.find? (fun x => x.2.ident == leAt (f 0x11).payload 0 8) = some (31, r) ∧ d.joinOk 31 (f 0x11).payload = true)
    ∧ ((f 0x13).up = true ∧ thas d.mesh.nbrs (nbrKey 2 (f 0x13).hopSrc) = true ∧ (f 0x13).hopDst = d.meshAddr
       ∧ tfind d.mesh.table (f 0x13).far = some r ∧ ({ d.mesh with rebuild := none } : MeshRec).rebuild = none)
    ∧ (r.state = 1 ∧ r.heard + 4 * d.keepTicks ≤ d.now)
    ∧ (Accepts d .U 0x7A20 1 (.raw v) (listRules d v) ∧ (byteAt v 13).testBit 1 = false)
    ∧ (Accepts d .U 0x7A20 1 (.raw (natLE 8 0 ++ natLE 4 31 ++ [0, 2, 0, 0])) (listRules d (natLE 8 0 ++ natLE 4 31 ++ [0, 2, 0, 0])))
    ∧ (d.mesh.rebuild = some 0 ∧ 0 + 19200000 ≤ d.now) := by
  unfold Accepts; decide +kernel

/-- Meets the hypotheses of MeshQueue. -/
theorem test_meets_mesh_queue :
    let j : Bytes := [0, 0, 1, 1, 0, 2, 0, 0] ++ natLE 4 60 ++ zeros 20
    let d : Dev := { loom := .running, objs := [(okey 0x2200 1, 3), (okey (laneIx 2) 0x10, 2)] }
    let c : Dev := { loom := .running, now := 5, objs := [(okey 0x7A00 1, 2)], blobs := [(okey 0x7A3F 1, j)], civil := { valid := true },
                     mesh := { table := [(31, { state := 1 })] } }
    let b := padTo 40 [1]
    let bf : Bytes := [14, 0, 1] ++ zeros 7
    Accepts d .O (0x7A30 + 15) 1 (.raw j) (jobRules (d.setB (0x7A30 + 15) 1 j) 15 j)
    ∧ (leAt (c.getB (0x7A30 + 15) 1) 8 4 ≠ 0 ∧ leAt (c.getB (0x7A30 + 15) 1) 12 8 ≤ c.utc ∧ c.meshRole = 2
       ∧ tget 0 c.mesh.cycles 15 ≠ (c.utc - leAt (c.getB (0x7A30 + 15) 1) 12 8) / leAt (c.getB (0x7A30 + 15) 1) 8 4 + 1 ∧ c.mesh.queue = [])
    ∧ (byteAt [0, 31, 0, 0, 2, 1] 0 = 0 ∧ byteAt [0, 31, 0, 0, 2, 1] 4 ≤ 2 ∧ byteAt [0, 31, 0, 0, 2, 1] 5 ≤ 1
       ∧ (tget {} c.mesh.table (leAt [0, 31, 0, 0, 2, 1] 1 3 % 2 ^ 18)).state = 1 ∧ c.get 0x261D 1 = 1 ∧ d.meshRole ≠ 2
       ∧ ((List.replicate 512 ({} : SubmRec)).filter fun y => y.job.isNone).length = 512)
    ∧ (let e : Dev := { c with mesh := { queue := [{ deadline := 4 }] } }
       e.mesh.queue = [({ deadline := 4 } : SubmRec)] ∧ 4 < e.now)
    ∧ (let e := d.setLane 2 { bulkQ := List.replicate 8 {} }
       e.mesh.queue = [] ∧ (e.lane 2).burst = [] ∧ 8 ≤ (e.lane 2).bulkQ.length)
    ∧ (decodeControl { bits := List.replicate 480 none, caps := [2] } = none)
    ∧ (let f := meshParse (byteAt b 0) (sliceB b 1 7) (sliceB b 8 32)
       let x : RxFrame := { bits := (controlBits b).map some, caps := [2] }
       decodeControl x = some (b ++ natLE 2 (crc16 b), 0, 240) ∧ crc16 b = leAt (b ++ natLE 2 (crc16 b)) 40 2 ∧ d.meshRole = 0 ∧ d.mesh.nbrs = [] ∧ f.ty = 1 ∧ f.far = 0)
    ∧ (let g := bf ++ natLE 4 (crc32 bf)
       let e := d.setLane 2 { ready := [g] }
       let f := meshParse (byteAt g 2) (sliceB g 3 7) (sliceB g 10 (g.length - 14))
       (e.lane 2).ready = [g] ∧ 14 ≤ g.length ∧ crc32 (g.take (g.length - 4)) = leAt g (g.length - 4) 4 ∧ f.ty = 1 ∧ f.far = 0
       ∧ crc32 (bf.take (bf.length - 4)) ≠ leAt bf (bf.length - 4) 4)
    ∧ (let e : Dev := { c with objs := [(okey 0x7A00 1, 1)], mesh := { joined := true, nbrs := [(nbrKey 2 5, {})] } }
       e.meshRole = 1 ∧ e.mesh.joined = true ∧ thas e.mesh.nbrs (nbrKey 2 5) = true ∧ e.mesh.floods.contains 9 = false ∧ e.dict.queue = []) := by
  unfold Accepts; decide +kernel

/-- Meets the hypotheses of ReaderFields. -/
theorem test_meets_reader_fields :
    let d : Dev := { loom := .running, now := 400000, objs := [(okey 0x2200 1, 3), (okey (readerIx 3) 1, 1), (okey (readerIx 3) 2, 0x80)], tick := { framed := true } }
    let h : Dev := d.setReader 3 { phase := 2, cards := [{ ident := [1] }], sess := some { stage := 5 }, queue := [(7, 0, 9)] }
    (d.running = true ∧ d.drives = true ∧ d.get (readerIx 3) 1 = 1 ∧ (d.reader 3).phase = 0 ∧ d.supply.hold = false ∧ d.pausing 1 = false ∧ (d.reader 3).drain = none
       ∧ (d.reader 3).since + 32 ≤ d.now ∧ d.nextAntenna 3 = some 7 ∧ (d.reader 3).cards = [] ∧ (d.reader 3).sess = none
       ∧ antennaBad ((tfind (d.reader 3).learnt 7).getD 100) 100 = false
       ∧ antennaBad ((tfind ((d.setReader 3 { learnt := [(7, 100)] }).reader 3).learnt 7).getD 151) 151 = true)
    ∧ (let e := d.setReader 3 { phase := 1 }
       (e.reader 3).wr = none ∧ (e.reader 3).phase = 1 ∧ (e.reader 3).since + 32 * (e.reader 3).dwell ≤ e.now)
    ∧ ((h.reader 3).wr = none ∧ (h.reader 3).phase = 2 ∧ (h.reader 3).checkAt + 3200 ≤ h.now ∧ (h.reader 3).cards ≠ []
       ∧ (h.reader 3).holds = true ∧ (h.reader 3).exch = none ∧ (h.reader 3).cards.getLast? = some { ident := [1] } ∧ h.keptFor { stage := 5 } = none
       ∧ (∀ v, v < 9 → (h.vc v).fenced = []) ∧ antennaBad (tget 0 (h.reader 3).learnt 0) 0 = false ∧ antennaBad (tget 0 (h.reader 3).learnt 0) 1 = true
       ∧ (((h.setReader 3 { exch := some ([1], 400000) }).reader 3).exch = some ([1], 400000))
       ∧ (h.vc 6).taken = [] ∧ h.get 0x261E 1 = 1 ∧ (h.reader 3).sess = some ({ stage := 5 } : TagSess) ∧ (h.reader 3).queue = (7, 0, 9) :: []
       ∧ (h.reader 3).ignored.contains 7 = false)
    ∧ (let e := d.setReader 3 { phase := 2, wr := some { step := 4 } }
       (e.reader 3).phase ≠ 0 ∧ (e.reader 3).wr = some ({ step := 4 } : TagWrite) ∧ e.get 0x261E 1 = 1 ∧ e.unresolved.length < 64)
    ∧ (let e : Dev := { d with unresolved := [{ until' := 400000 }] }
       e.unresolved[0]? = some ({ until' := 400000 } : TagWrite) ∧ 400000 ≤ e.now)
    ∧ Accepts d .O (readerIx 3) 1 (.num 0) {} := by
  unfold Accepts; decide +kernel

/-- Meets the hypotheses of TagSessions. -/
theorem test_meets_tag_sessions :
    let d := fun x : TagSess => ({ loom := .running, objs := [(okey 0x22A8 1, 2), (okey 0x22B0 1, 16), (okey (readerIx 3) 6, 0), (okey (readerIx 3) 7, 0)],
                                      keys := [(40, { active := some [1] }), (48, { active := some [2] })], readers := [(3, { sess := some x })] } : Dev)
    let w := fun k : Nat => ({ step := k, data := zeros 16 } : TagWrite)
    ((d {}).running = true ∧ ((d {}).reader 3).sess = some {} ∧ ((d {}).reader 3).groupS ≠ 0xFF ∧ ({} : TagSess).flags % 4 = 0)
    ∧ ((d { stage := 1 }).slotKey (40 + ((d { stage := 1 }).reader 3).groupS % 8) 1 = some [1])
    ∧ (((d { flags := 1 }).reader 3).groupL ≠ 0xFF ∧ (d { flags := 1 }).slotKey (48 + ((d { flags := 1 }).reader 3).groupL % 8) 4 = some [2])
    ∧ ((d { stage := 3 }).reader 3).wr = none ∧ (d { stage := 3 }).keptFor { stage := 3 } = none ∧ unsecure { stage := 3 } 0 (zeros 16) = some (zeros 16) ∧ (d {}).get 0x261E 1 = 1
    ∧ (d {}).keptFor { stage := 4, flags := 1 } = none ∧ unsecure { stage := 4, flags := 1 } 0 [] = none
    ∧ (let p := natLE 8 5 ++ [1, 4] ++ zeros 64
       (d { stage := 4, ident := 5 }).writable (leAt p 0 8) = some (3, { stage := 4, ident := 5 }) ∧ byteAt p 9 = 4 ∧ p.length = 10 + 16 * byteAt p 9
       ∧ (d { stage := 3 }).writable (leAt p 0 8) = none)
    ∧ (let e := (d {}).setReader 3 { sess := some { stage := 4 }, wr := some (w 4) }
       (e.reader 3).sess = some ({ stage := 4 } : TagSess) ∧ (e.reader 3).wr = some (w 4) ∧ (w 4).ident = ({ stage := 4 } : TagSess).ident ∧ (e.reader 3).drain = none)
    ∧ (let e : Dev := { d { stage := 4 } with unresolved := [{ w 4 with until' := 9 }] }
       e.keptFor { stage := 4 } = some { w 4 with until' := 9 }) := by
  decide +kernel

/-- Meets the hypotheses of ArbiterContests. -/
theorem test_meets_arbiter_contests :
    let d : Dev := { loom := .running, now := 32000, arb := { cycle := 4, refills := 1 } }
    let g : ArbReq := { q := 37, at' := 1 }
    let w : ArbReq := { q := 36, at' := 3 }
    (d.running = true ∧ 5 ∈ servicesOf 37 ∧ (d.svc 5).waiting = [] ∧ (d.svc 5).grant = none ∧ d.arb.cycle ≤ d.arb.refills * 1024
       ∧ d.now % 32000 = 0 ∧ d.arb.occAt < d.now ∧ d.stagedTop = d.arb.top ∧ unitsOk 5 (1, 2) = true ∧ unitsOk 5 (2, 2) = false ∧ d.mayAsk 37 5 = true ∧ d.mayAsk 1 4 = false
       ∧ (d.svc 5).dead = none ∧ ((d.setSvc 5 { dead := some 5 }).svc 5).dead = some 5 ∧ ∀ u, u < 6 → d.svcHas 37 u true = false)
    ∧ (let e := d.setSvc 5 { grant := some g, decided := 3 }
       (e.svc 5).grant = some g ∧ g.q ≠ 34 ∧ (e.svc 5).decided < e.arb.cycle + 0 ∧ e.rankOf g.q < e.rankOf 34 ∧ g.locked = false
       ∧ (e.svc 5).waiting = [] ∧ 5 ∈ servicesOf 34)
    ∧ (let e := d.setSvc 5 { grant := some { g with locked := true }, decided := 3, waiting := [w] }
       e.svcHas 37 5 true = true ∧ e.arb.cycle + 0 < (e.svc 5).decided + runLimit ∧ 3 + runLimit ≤ e.arb.cycle + 245759
       ∧ (e.svc 5).grant = some { g with locked := true } ∧ (e.svc 5).waiting = [w] ∧ w.q < 38 ∧ ({ g with locked := true } : ArbReq).locked = true)
    ∧ (let e := d.setSvc 5 { waiting := [w] }
       (e.svc 5).grant = none ∧ (e.svc 5).waiting = [w] ∧ w.q = 36)
    ∧ Accepts d .O (reqIx 37) 1 (.num 6) {} ∧ Accepts d .O (reqIx 37) 8 (.num 0xFFFFFFFF) {} ∧ Accepts d .O 0x2500 1 (.num 1) {}
    ∧ Accepts d .O 0x2500 1 (.num 0) {} := by
  unfold Accepts; decide +kernel

/-- Meets the hypotheses of WaitThreshold. -/
theorem test_meets_wait_threshold :
    let d : Dev := { loom := .running, objs := [(okey (reqIx 37) 8, 9)] }
    let w : ArbReq := { q := 37 }
    (d.setSvc 5 { waiting := [w] }).running = true ∧ (d.setSvc 5 { waiting := [w] }).get (reqIx 37) 8 ≠ 0
    ∧ ((d.setSvc 5 { waiting := [w] }).svc 5).waiting = [w] ∧ w.told = false
    ∧ (let e := d.setSvc 5 { grant := some { q := 36, locked := true }, waiting := [w] }
       (e.svc 5).waiting = [w] ∧ max e.arb.cycle (w.at' + e.get (reqIx 37) 8) < (e.svc 5).decided + runLimit)
    ∧ ((d.setSvc 5 { waiting := [{ w with told := true }] }).svc 5).waiting = [{ w with told := true }] := by
  decide +kernel

/-- Meets the hypotheses of Fences. -/
theorem test_meets_fences :
    let d : Dev := { loom := .running }
    let r := fun sub : Nat => ({ hostWrite 3 7 0x2580 sub (natLE 4 0x1FF) with bound := d.get 0x1121 4 == 1, roleCode := 0 } : DReq)
    let b : Bytes := [0x58, 0x4A, 1, 1, 0, 0, 12, 0, 9, 0, 0, 0, 0, 0, 1, 0, 0x17, 0x10, 0, 0, 0, 0, 0, 0, 2, 0, 0, 0]
    let p := parseRequest (.host 3) (srcHost 3) (d.get 0x1121 4 == 1) false b
    WriteAdmitted d (r 1) ∧ WriteAdmitted d (r 2)
    ∧ (d.pauseHolds p = false ∧ d.trans = none ∧ p.op ≠ 2 ∧ p.op ≠ 3 ∧ (d.front p).1 = 0 ∧ (r 2).writes 0x2580 2 = true ∧ (r 1).writes 0x2580 1 = true
       ∧ (r 1).src = p.src ∧ (r 1).writes 0x2580 2 = false ∧ (r 1).writes 0x2200 2 = false ∧ ({ r 1 with src := srcHost 0 } : DReq).provesRole p = false
       ∧ ({ r 1 with src := srcHost 0 } : DReq).src ≠ p.src)
    ∧ (let f := { r 1 with phase := DPhase.ready }
       let e : Dev := { d with dict := { queue := [f] } }
       WaitsAlone e f .ready ∧ ReadingsDone e ∧ f.op = 2 ∧ f.dest = .host 3 ∧ (e.mb 3).ready = none
       ∧ f.entries = [{ ix := 0x2580, sub := 1, len := 4, data := natLE 4 0x1FF }])
    ∧ ((vcBuffer 8).isSome = true ∧ (d.vc 8).taken = [] ∧ (d.vc 8).fenced = [])
    ∧ (((d.setVc 6 { got := 3, taken := [(3, ⟨0x61, 0, []⟩)] }).vc 6).taken = [(3, ⟨0x61, 0, []⟩)] ∧ (vcBuffer 6).isSome = true) := by
  unfold WriteAdmitted WaitsAlone ReadingsDone; decide +kernel

set_option maxRecDepth 100000 in
/-- Meets the hypotheses of HankAndRing. -/
theorem test_meets_hank_and_ring :
    let d : Dev := { loom := .running, objs := [(okey 0x2610 1, 1)], hank := { rxRun := true, txRun := true } }
    let cell := fun (v ty : Nat) (p : Bytes) (a : Bool) => hankCell 0 0xFF v ty p a
    let rec' := recordBytes ⟨0x50, 0, [0]⟩ 1
    let ring := fun (dst : Nat) => ringBytes 0x10 7 dst 7 65535 (zeros 8)
    (({ loom := .running } : Dev).ticking = true ∧ ({ loom := .running } : Dev).get 0x2610 1 = 0 ∧ ({ loom := .running } : Dev).hank.rxRun = false ∧ d.hank.rxRun = true ∧ d.hank.txRun = true
       ∧ d.hank.bad < 7 ∧ 7 ≤ ({ rxRun := true, txRun := true, bad := 7 } : HankRec).bad ∧ 7 ≤ ({ good := 7 } : HankRec).good ∧ d.get 0x2610 1 = 1 ∧ d.hank.unacked = [])
    ∧ cellGood [] = false
    ∧ (cellGood (cell 0 2 [] false) = true ∧ cellAborted (cell 0 2 [] false) = false ∧ byteAt (cell 0 2 [] false) 4 / 16 = 2)
    ∧ (cellGood (cell 15 1 [] false) = true ∧ byteAt (cell 15 1 [] false) 4 / 16 = 1 ∧ byteAt (cell 15 1 [] false) 2 = d.hank.expect
       ∧ vcBuffer (byteAt (cell 15 1 [] false) 4 % 16) = none ∧ byteAt (hankCell 9 0xFF 0 1 [] false) 2 ≠ d.hank.expect
       ∧ cellGood (hankCell 9 0xFF 0 1 [] false) = true)
    ∧ (cellGood (cell 8 1 [] true) = true ∧ cellAborted (cell 8 1 [] true) = true ∧ (vcBuffer (byteAt (cell 8 1 [] true) 4 % 16)).isSome = true)
    ∧ (splitRecords 64 ([] ++ sliceB (cell 5 1 rec' false) 6 256) = ([(1, ⟨0x50, 0, [0]⟩)], []) ∧ cellAborted (cell 5 1 rec' false) = false)
    ∧ (({ d with objs := [(okey (outletIx 31) 1, 7), (okey (linkIx 31) 2, 5)], links := [(31, { lineGen := 2 })] } : Dev).etherOpen 31 = true)
    ∧ (({ d with objs := [(okey (outletIx 31) 1, 6), (okey (linkIx 31) 2, 5)], links := [(31, { lineGen := 2 })] } : Dev).canOpen 31 = true)
    ∧ (d.etherOpen 31 = false ∧ d.refused = false ∧ d.position = 0)
    ∧ (let v := zeros 8 ++ natLE 4 32768 ++ [1, 0, 8, 0] ++ (List.range 8).flatMap fun i => natLE 2 (280 + i)
       Accepts d .O 0x2630 1 (.raw v) (hankCapRules d v))
    ∧ (let f := ring 3
       f.length = leAt f 6 2 + 12 ∧ crc32 (f.take (8 + leAt f 6 2)) = leAt f (8 + leAt f 6 2) 4 ∧ byteAt f 1 = 7 ∧ byteAt f 2 = 3 ∧ 2 < byteAt f 0 ∧ 1 < byteAt f 3
       ∧ (tget [] d.ring.seen 7).contains (leAt f 4 2) = false ∧ byteAt (ring 0) 2 = d.position
       ∧ (let g := ringBytes 0x10 0 3 7 65535 (zeros 8)
          byteAt g 1 = d.position ∧ d.foreign (byteAt g 0) (leAt g 4 2) = true ∧ ({ d with ring := { seq := 65536 } } : Dev).foreign (byteAt g 0) (leAt g 4 2) = false))
    ∧ (let e : Dev := { d with objs := [(okey (ringIx 0) 1, 1), (okey (ringIx 1) 1, 1)] }
       e.running = true ∧ e.refused = false ∧ e.portRun 0 = true ∧ e.portRun 1 = true) := by
  unfold Accepts; decide +kernel

/-- Meets the hypotheses of KeysAndLifecycle. -/
theorem test_meets_keys_and_lifecycle :
    let d : Dev := { loom := .running, keys := [(0, { active := some (natBE 16 0x000102030405060708090a0b0c0d0e0f) })] }
    let at' := fun life : Nat => ({ loom := .running, objs := [(okey 0x2200 1, life)], keys := [(8, { active := some [1] })] } : Dev)
    (let v := zeros 4 ++ natBE 16 0xfb8b862865e2fc7eaa333e8b0cf9a6d8
     Accepts d .O (slotObj 47) 4 (.raw v) (keyLoadRules d .O 47 v))
    ∧ (Accepts (at' 3) .M (slotObj 8) 8 (.num 1) (generateRules (at' 3) .M 8 1) ∧ Accepts (at' 3) .M (slotObj 8) 8 (.num 0) (generateRules (at' 3) .M 8 0))
    ∧ (Accepts (at' 3) .U (slotObj 17) 6 (.raw (zeros 16)) (proofRules (at' 3) .U 17 (zeros 16)) ∧ (at' 3).proofRight 17 (zeros 16) = false)
    ∧ (let e : Dev := { at' 3 with keys := [(17, { pend := some [1], challenge := some [] })] }
       let v := padTo 16 (aesCmac [1] ([] ++ natLE 1 17 ++ e.nextGen 17))
       e.proofRight 17 v = true)
    ∧ Accepts (at' 3) .S (slotObj 55) 9 (.num 1) (destroyRules (at' 3) .S 55 1)
    ∧ ((at' 3).trans = none ∧ Accepts (at' 3) .M 0x2200 2 (.num 2) (transRules (at' 3) .M 2)
       ∧ Accepts (at' 2) .S 0x2200 2 (.num 3) (transRules (at' 2) .S 3)
       ∧ (let e : Dev := { at' 3 with keys := [] }
          Accepts e .U 0x2200 2 (.num 4) (transRules e .U 4) ∧ e.key 8 = none)
       ∧ (Accepts (at' 3) .U 0x2200 2 (.num 4) (transRules (at' 3) .U 4) ∧ (at' 3).signs = true ∧ (at' 3).readingsWait 36 = false ∧ (at' 3).readingsWait 1 = false ∧ ReadingsDone (at' 3) ∧ (at' 3).reads.snaps = []
         ∧ ({ at' 3 with supply := { hold := true } } : Dev).readingsWait 36 = true
         ∧ Accepts { at' 3 with supply := { hold := true } } .U 0x2200 2 (.num 4) (transRules { at' 3 with supply := { hold := true } } .U 4))
       ∧ (let e : Dev := { at' 0 with keys := [1, 2, 3, 4, 5, 6, 8, 16, 17, 18, 19].map fun k => (k, { active := some [1] }) }
          Accepts e .O 0x2200 2 (.num 1) (transRules e .O 1)))
    ∧ (let e : Dev := { at' 2 with trans := some { target := 3 } }
       e.trans = some { target := 3 } ∧ e.dict.queue = [] ∧ e.slotUsed 0 = true ∧ (e.slotAttr 0).testBit 17 = true ∧ (e.slotAttr 17).testBit 19 = false) := by
  unfold Accepts ReadingsDone; decide +kernel

/-- A part whose image key is the neutral point, whose signature is the same of every message. -/
def imagePart (x : ImageRec) (objs : List (Nat × Nat)) : Dev :=
  { loom := .running, objs := objs, keys := [(1, { active := some ([1] ++ zeros 56) }), (17, { active := some (zeros 16) })], upd := { images := [(1, x), (3, x)], flashBad := [] } }

/-- A header of kind 1, version 9 and a body of 4 000 bytes, and its block. -/
def imageHeader : Bytes := [0x4D, 0x49, 0x58, 0x4A, 1, 1, 0, 0, 9, 0, 0, 0, 0xA0, 0x0F, 0, 0] ++ zeros 72 ++ [1] ++ zeros 167

set_option maxRecDepth 100000 in
/-- Meets the hypotheses of FirmwareUpdate. -/
theorem test_meets_firmware_update :
    let d := imagePart {} [(okey (imageIx 1) 3, 8)]
    let v : Bytes := [1, 0, 0, 0] ++ natLE 4 0 ++ padTo 4096 imageHeader
    let w : Bytes := [1, 0, 0, 0] ++ natLE 4 1 ++ zeros 4096
    let x : ImageRec := { running := true, header := imageHeader, blocks := [(0, zeros 4096)], stored := [0] }
    let f := imagePart x []
    Accepts d .O 0x2330 1 (.raw v) (blockRules d v)
    ∧ (leAt v 4 4 = 0 ∧ Accepts f .O 0x2330 1 (.raw w) (blockRules f w) ∧ leAt w 4 4 ≠ 0)
    ∧ (let b : Bytes := [1, 3] ++ zeros 2 ++ natLE 4 9 ++ natLE 4 1 ++ zeros 4 ++ padTo 16 (shake256 16 imageHeader) ++ zeros 4128
       (imagePart x [(okey (imageIx 1) 3, 8)]).get (imageIx 1) 3 < leAt b 4 4 ∧ leAt (f.image 1).header 8 4 = leAt b 4 4 ∧ sliceB b 16 16 = padTo 16 (shake256 16 (f.image 1).header)
       ∧ leAt b 4 4 ≤ (imagePart x [(okey (imageIx 1) 3, 9)]).get (imageIx 1) 3 ∧ f.running = true ∧ byteAt b 0 = 1 ∧ b.length = 4160 ∧ f.activatingKind 1 = false ∧ f.flashFails 1 1 = false ∧ (imagePart x [(okey 0x2300 2, 5)]).activatingKind 1 = true ∧ leAt b 8 4 ≠ 0 ∧ (f.image 1).running = true
       ∧ leAt b 8 4 < blockCount (f.image 1).header)
    ∧ (leAt (zeros 4 ++ natLE 4 0xFFFFFFFF) 4 4 = 0xFFFFFFFF ∧ leAt (zeros 8) 4 4 ≠ 0xFFFFFFFF ∧ f.upd.waiting = [])
    ∧ (let e : Dev := { f with now := 64, upd := { unacked := [{ at' := 0, dst := 7 }] } }
       e.upd.unacked = [({ at' := 0, dst := 7 } : RingBlk)] ∧ 0 + 64 ≤ e.now)
    ∧ (let e := imagePart { x with stored := [0, 1] } []
       (e.image 3).running = true ∧ (e.image 3).stored.length = blockCount (e.image 3).header ∧ (e.image 3).origin = none ∧ e.successor = none)
    ∧ (let p : Bytes := natLE 4 9 ++ natLE 2 4095 ++ natLE 2 4096 ++ zeros 64
       let r := p ++ padTo 8 (aesCmac (zeros 16) p)
       let e := imagePart {} [(okey (imageIx 3) 3, 8)]
       r.length = 80 ∧ e.key 17 = some (zeros 16) ∧ e.activatingKind 3 = false ∧ sliceB r 72 8 = padTo 8 (aesCmac (zeros 16) (r.take 72))
       ∧ e.get (imageIx 3) 3 < leAt r 0 4 ∧ e.get 0x2320 1 < leAt r 0 4 ∧ 4 ≤ leAt r 4 2 ∧ leAt r 4 2 < leAt r 6 2 ∧ leAt r 6 2 ≤ 4096
       ∧ sliceB (zeros 80) 72 8 ≠ padTo 8 (aesCmac (zeros 16) ((zeros 80).take 72)))
    ∧ (let e := imagePart {} [(okey (imageIx 3) 5, 2), (okey (imageIx 3) 2, 9)]
       let a : Bytes := [3, 0, 0, 0, 9, 0, 0, 0]
       Accepts e .U 0x2300 1 (.raw a) (activateRules e .U a))
    ∧ (let e : Dev := { imagePart x [(okey 0x2300 2, 7)] with now := 10000 }
       let g : Dev := { imagePart x [(okey 0x2300 2, 11)] with now := 10000 }
       e.running = true ∧ e.get 0x2300 2 = 2 + 1 + 4 ∧ e.civil.valid = false ∧ g.dict.queue = [] ∧ g.get 0x2300 2 = 2 + 1 + 8
       ∧ g.upd.since + pauseBound 3 + 3200 ≤ g.now + 1) := by
  unfold Accepts; decide +kernel

/-- Meets the hypotheses of DebugPort. -/
theorem test_meets_debug_port :
    let d : Dev := { loom := .running }
    let k := natBE 16 0x2b7e151628aed2a6abf7158809cf4f3c
    let e : Dev := { d with objs := [(okey 0x1018 4, 5)], dbg := { challenge := some (zeros 16) }, keys := [(19, { active := some k })] }
    let b : Bytes := zeros 12 ++ [3, 24, 0, 0]
    d.debugAwake = true
    ∧ (e.dbg.fails < 8 ∧ e.debugMacRight (padTo 16 (aesCmac k (zeros 16 ++ natLE 4 5))) = true ∧ e.debugMacRight (zeros 16) = false
       ∧ ({ e with dbg := { fails := 8 } } : Dev).dbg.fails = 8 ∧ (zeros 16).length = 16)
    ∧ (d.mayHalt = true ∧ d.haltable = true ∧ d.dbg.halted = false ∧ d.dbg.pending = false ∧ d.supply.warning = false
       ∧ ({ d with objs := [(okey 0x2200 1, 3)] } : Dev).mayHalt = false ∧ ({ d with objs := [(okey 0x2300 2, 5)] } : Dev).haltable = false
       ∧ ({ d with dbg := { pending := true } } : Dev).dbg.pending = true ∧ 15 ≤ 15 ∧ b.length = 16)
    ∧ (let f := fun (p : Bool) (o : List (Nat × Nat)) => ({ d with objs := o, dbg := { points := [(15, b)], pending := p, cause := 1, cycle := 9, index := 2 } } : Dev)
       (f false []).running = true ∧ tfind (f false []).dbg.points 15 = some b ∧ (f false []).pointMatches b true 0xFFFFFF 7 = true ∧ (f true []).haltable = true
       ∧ (f false [(okey 0x2300 2, 5)]).haltable = false) := by
  decide +kernel

/-- Meets the hypotheses of DebugAccessAndScan. -/
theorem test_meets_debug_access_and_scan :
    let d : Dev := { loom := .running }
    let e : Dev := { d with objs := [(okey 0x2200 1, 3)] }
    let w : Bytes := (List.range 40).map fun i => BitVec.ofNat 8 (i * i + 1)
    (d.debugAwake = true ∧ debugLen 4 = true ∧ debugLen 2 = false ∧ readable 0x017FFFFC 4 = true ∧ readable 0x01800000 4 = false ∧ d.mayReadAll = true
       ∧ inFabric 0x017FFFFC = false ∧ readable 0x6000FC00 1024 = true ∧ inFabric 0x6000FC00 = true ∧ e.mayReadAll = false)
    ∧ (debugWriteStatus 0x017FFC00 1024 d = 0 ∧ debugWriteStatus 0x40000000 4 d = 4 ∧ debugWriteStatus 0 4 e = 3 ∧ debugWriteStatus 0 1028 d = 1
       ∧ (⟨[], [], d⟩ : State).canonical)
    ∧ (d.mayReset = true ∧ e.mayReset = false) ∧ (e.life ≠ 0 ∧ d.life = 0 ∧ d.jtag.hold = false)
    ∧ (rsBytes 8 (zeros 40) [] = some (zeros 40) ∧ rsBytes 8 ([1] ++ zeros 39) [] = some (zeros 40) ∧ [1] ++ zeros 39 ≠ zeros 40 ∧ w.length = 40
       ∧ rsBytes 8 w [] = none)
    ∧ ((zeros 40).length = 40 ∧ readable 0 4 = true)
    ∧ (runAll inMirror 0 4 = false ∨ runAll inMirror 0x017FFFFC 4 = false) := by
  refine ⟨by decide +kernel, by unfold State.canonical; decide +kernel, by decide +kernel, by decide +kernel, by decide +kernel, by decide +kernel, ?_⟩
  generalize hb : Config.mirrorBase = b
  have key : ∀ a n, 0 < n → ¬(b ≤ a ∧ a < b + 0x10000) → runAll inMirror a n = false := by
    intro a n hn h
    cases hr : runAll inMirror a n with
    | false => rfl
    | true =>
      have h0 := List.all_eq_true.mp hr 0 (List.mem_range.mpr hn)
      unfold inMirror at h0
      rw [hb] at h0
      exact absurd (of_decide_eq_true h0) h
  by_cases h : b ≤ 0x10000
  · exact .inr (key _ _ (by omega) (by omega))
  · exact .inl (key _ _ (by omega) (by omega))
end

section
/-! SUPPORT. Commands that act on the part alone; the numeric objects that a chain of updates keeps; pending events. -/
namespace Sys2Proof.Machine

open Sys2Proof

/-! ## Commands that complete -/

/-- A command that works on the part alone completes with what its function gives. -/
theorem completes_onDev {c : Instr} {s : State} {f : Dev → Dev} {p : Dev → Prop} (h : exec c s = onDev f s) (hp : p (f s.dev)) :
    Completes c s p :=
  ⟨f s.dev, h.trans (onDev_next f s), hp⟩

/-- A command of the working part completes with what its function gives. -/
theorem completes_onRun {c : Instr} {s : State} {f : Dev → Dev} {p : Dev → Prop} (h : exec c s = onRun f s) (hr : s.dev.running = true)
    (hp : p (f s.dev)) : Completes c s p :=
  ⟨f s.dev, h.trans (onRun_next f s hr), hp⟩

theorem Dev.ticking_of_running {d : Dev} (h : d.loom = .running) : d.ticking = true := by simp [Dev.ticking, h]

/-- A write that every check admits has its effect and status 0. -/
theorem writeObj_of_accepts {d : Dev} {role : Role} {ix sub : Nat} {v : Val} {x : Rules} (h : Accepts d role ix sub v x) (eff : Dev → Dev) :
    writeObj role ix sub v x eff d = (eff d).answer 0 :=
  writeObj_done role ix sub v x eff d h.1 h.2

theorem sumN_cons (a : Nat) (l : List Nat) : sumN (a :: l) = a + sumN l := by
  simp only [sumN, ← List.sum_eq_foldl_nat, List.sum_cons]

/-! ## Kept objects -/

theorem KeepsObjs.refl (but : List (Nat × Nat)) (d : Dev) : KeepsObjs but d d := fun _ _ _ _ => rfl

/-- An object that is listed is not one that is kept. -/
theorem okey_ne_of_mem {but : List (Nat × Nat)} {ix sub ix' sub' : Nat} (hm : (ix', sub') ∈ but) (hs' : sub' < 256) (hs : sub < 256)
    (hn : (ix, sub) ∉ but) : okey ix' sub' ≠ okey ix sub := fun hk => by
  obtain ⟨rfl, rfl⟩ := (okey_inj hs' hs).mp hk
  exact hn hm

section
variable {but : List (Nat × Nat)} {d e : Dev} (h : KeepsObjs but d e)
include h

/-- An update that leaves the store of numeric objects alone. -/
theorem KeepsObjs.of_objs_eq {f : Dev} (ho : f.objs = e.objs) : KeepsObjs but d f := fun ix sub hs hm => by
  have hf : f.get ix sub = e.get ix sub := by simp only [Dev.get, ho]
  exact hf.trans (h ix sub hs hm)

/-- What is kept of one part is kept of another with the same numeric objects. -/
theorem KeepsObjs.rebase {d' : Dev} (ho : d.objs = d'.objs) : KeepsObjs but d' e := fun ix sub hs hm => by
  have hd : d.get ix sub = d'.get ix sub := by simp only [Dev.get, ho]
  exact (h ix sub hs hm).trans hd

theorem KeepsObjs.trans {f : Dev} (hf : KeepsObjs but e f) : KeepsObjs but d f := fun ix sub hs hm => (hf ix sub hs hm).trans (h ix sub hs hm)

theorem KeepsObjs.set {ix sub : Nat} (hm : (ix, sub) ∈ but) (hs : sub < 256) (v : Nat) : KeepsObjs but d (e.set ix sub v) :=
  fun ix' sub' hs' hn => (Dev.get_set_ne _ _ _ _ _ _ (okey_ne_of_mem hm hs hs' hn)).trans (h ix' sub' hs' hn)

theorem KeepsObjs.raiseEv {n : Nat} (hm : evObj n ∈ but) (hn : n < 256) : KeepsObjs but d (e.raiseEv n) := by
  have hi : n / 32 % 8 = n / 32 := Nat.mod_eq_of_lt (by omega)
  unfold evObj at hm
  unfold Dev.raiseEv Dev.setBitO
  rw [hi]
  exact h.set hm (by omega) _

/-- A Skein entry changes the objects of `skeinObjs` alone. -/
theorem KeepsObjs.skein (hm : skeinObjs ⊆ but) (x : Skein) : KeepsObjs but d (e.skein x) := fun ix sub hs hn => by
  have hk : ∀ y ∈ skeinObjs, y.2 < 256 → okey y.1 y.2 ≠ okey ix sub := fun y hy hy' => okey_ne_of_mem (hm hy) hy' hs hn
  exact (Dev.get_skein_ne e x ix sub (hk (0x2400, 1) (by decide) (by decide)) (hk (0x2400, 6) (by decide) (by decide))
    (hk (0x2410, 1) (by decide) (by decide))).trans (h ix sub hs hn)

/-- A metrology event changes the objects of `eventObjs` alone. -/
theorem KeepsObjs.eventEntry (hm : eventObjs ⊆ but) (t code role cont subject : Nat) (data : Bytes) :
    KeepsObjs but d (e.eventEntry t code role cont subject data) := fun ix sub hs hn => by
  have hk : ∀ y ∈ eventObjs, y.2 < 256 → okey y.1 y.2 ≠ okey ix sub := fun y hy hy' => okey_ne_of_mem (hm hy) hy' hs hn
  exact (Dev.get_eventEntry_ne e t code role cont subject data ix sub (hk (0x4D40, 1) (by decide) (by decide))
    (hk (0x4D40, 2) (by decide) (by decide)) (hk (0x4D40, 3) (by decide) (by decide))).trans (h ix sub hs hn)

end

/-! ## Pending events and byte strings -/

theorem Dev.evPending_set (d : Dev) {ix sub : Nat} (v n : Nat) (hi : ix ≠ 0x2410) (hs : sub < 256) :
    (d.set ix sub v).evPending n = d.evPending n := by
  have hk : okey ix sub ≠ okey 0x2410 (n / 32 % 8 + 1) := fun hk => hi ((okey_inj hs (by omega)).mp hk).1
  simp only [Dev.evPending, Dev.bitO, Dev.get_set_ne _ _ _ _ _ _ hk]

/-- A Skein entry raises EV6 at most. -/
theorem Dev.evPending_skein (d : Dev) (x : Skein) {n : Nat} (h6 : n ≠ 6) (hn : n < 256) : (d.skein x).evPending n = d.evPending n := by
  have key : ∀ (b : Bool) (sl ss m : Nat) (v : Bytes),
      (((d.when b fun d => (d.inc 0x2400 6).raiseEv 6).setB sl ss v).set 0x2400 1 m).evPending n = d.evPending n := by
    intro b sl ss m v
    refine (Dev.evPending_set _ _ _ (by decide) (by decide)).trans ?_
    show (d.when b fun d => (d.inc 0x2400 6).raiseEv 6).evPending n = d.evPending n
    cases b with
    | false => rfl
    | true =>
      refine (Dev.evPending_raiseEv _ 6 n (by decide) hn).trans ((if_neg h6).trans ?_)
      exact Dev.evPending_set _ _ _ (by decide) (by decide)
  unfold Dev.skein
  simp only [Dev.evPending, Dev.bitO, get_drainSkeinGo]
  exact key _ _ _ _ _

/-- The slot of an entry is a sub-index. -/
theorem slotSub_lt (n : Nat) : slotSub n < 256 := by unfold slotSub; omega

/-- A byte string outside the logs is not at the slot of a log. -/
theorem okey_slot_ne {base n ix sub : Nat} (hs : sub < 256) (hb : logSlot (slotIx base n) = true) (hl : logSlot ix = false) :
    okey (slotIx base n) (slotSub n) ≠ okey ix sub := fun hk => by
  rw [((okey_inj (slotSub_lt n) hs).mp hk).1, hl] at hb
  exact absurd hb (by decide)

/-- Of the byte strings a Skein entry writes slots of the log alone. -/
theorem keepsBlobs_skein (but : List (Nat × Nat)) (d : Dev) (x : Skein) : KeepsBlobs but d (d.skein x) := by
  intro ix sub hs _ hl
  refine Dev.getB_skein_ne d x ix sub (okey_slot_ne hs ?_ hl)
  have : (d.get 0x2400 1 + 1) % 16384 < 16384 := Nat.mod_lt _ (by decide)
  unfold logSlot slotIx
  exact decide_eq_true (by omega)

/-- Of the byte strings a metrology event writes slots of the log alone. -/
theorem keepsBlobs_eventEntry (but : List (Nat × Nat)) (d : Dev) (t code role cont subject : Nat) (data : Bytes) :
    KeepsBlobs but d (d.eventEntry t code role cont subject data) := by
  intro ix sub hs _ hl
  unfold Dev.eventEntry
  simp only [getB_drainEventsGo, Dev.getB_set]
  refine (Dev.getB_setB_ne _ _ _ _ _ _ (okey_slot_ne hs ?_ hl)).trans ?_
  · have : (d.get 0x4D40 1 + 1) % 8192 < 8192 := Nat.mod_lt _ (by decide)
    unfold logSlot slotIx
    exact decide_eq_true (by omega)
  · unfold Dev.when
    split <;> rfl

/-- A Skein entry writes a log alone. -/
theorem onlyLogged_skein (d : Dev) (x : Skein) : OnlyLogged d (d.skein x) := ⟨Dev.skein_eq d x, keepsBlobs_skein [] d x⟩

/-- A metrology event writes a log alone. -/
theorem onlyLogged_eventEntry (d : Dev) (t code role cont subject : Nat) (data : Bytes) :
    OnlyLogged d (d.eventEntry t code role cont subject data) :=
  ⟨Dev.eventEntry_eq d t code role cont subject data, keepsBlobs_eventEntry [] d t code role cont subject data⟩

end Sys2Proof.Machine
end

section
/-! SUPPORT. The operations on a Roving link (chapter 03): what each leaves of the link's record and of the objects. -/
namespace Sys2Proof.Machine

open Sys2Proof

/-! ## The record and the objects of a link -/

@[simp] theorem Dev.link_setLink (d : Dev) (l : Nat) (r : LinkRec) : (d.setLink l r).link l = r := tget_tset_same _ _ _ _
@[simp] theorem Dev.link_set (d : Dev) (ix sub v l : Nat) : (d.set ix sub v).link l = d.link l := rfl
@[simp] theorem Dev.link_answer (d : Dev) (st l : Nat) : (d.answer st).link l = d.link l := rfl
@[simp] theorem Dev.link_raiseEv (d : Dev) (n l : Nat) : (d.raiseEv n).link l = d.link l := rfl
@[simp] theorem Dev.link_satInc (d : Dev) (w ix sub k l : Nat) : (d.satInc w ix sub k).link l = d.link l := rfl
@[simp] theorem Dev.get_setLink (d : Dev) (l : Nat) (r : LinkRec) (ix sub : Nat) : (d.setLink l r).get ix sub = d.get ix sub := rfl
@[simp] theorem Dev.linkState_setLink (d : Dev) (l : Nat) (r : LinkRec) (k : Nat) : (d.setLink l r).linkState k = d.linkState k := rfl
@[simp] theorem Dev.linkState_answer (d : Dev) (st l : Nat) : (d.answer st).linkState l = d.linkState l := rfl
@[simp] theorem Dev.linkState_badPeriod (d : Dev) (l p k : Nat) : (d.badPeriod l p).linkState k = d.linkState k := rfl
@[simp] theorem Dev.get_badPeriod (d : Dev) (l p ix sub : Nat) : (d.badPeriod l p).get ix sub = d.get ix sub := rfl
@[simp] theorem Dev.link_badPeriod (d : Dev) (l p : Nat) : (d.badPeriod l p).link l = { d.link l with badPeriod := p + 1, core := none } :=
  Dev.link_setLink d l _

theorem KeepsObjs.setLink {but : List (Nat × Nat)} {d e : Dev} (h : KeepsObjs but d e) (l : Nat) (r : LinkRec) : KeepsObjs but d (e.setLink l r) :=
  h.of_objs_eq rfl
theorem KeepsObjs.badPeriod {but : List (Nat × Nat)} {d e : Dev} (h : KeepsObjs but d e) (l p : Nat) : KeepsObjs but d (e.badPeriod l p) :=
  h.of_objs_eq rfl
theorem KeepsObjs.answer {but : List (Nat × Nat)} {d e : Dev} (h : KeepsObjs but d e) (st : Nat) : KeepsObjs but d (e.answer st) :=
  h.of_objs_eq rfl

/-- Two objects of one index differ by their sub-index. -/
theorem okey_ne_of_sub {sub sub' : Nat} (ix : Nat) (h : sub ≠ sub') : okey ix sub ≠ okey ix sub' := by unfold okey; omega

theorem Dev.linkState_set_sub (d : Dev) (l v : Nat) {sub : Nat} (h : sub ≠ 2) : (d.set (linkIx l) sub v).linkState l = d.linkState l :=
  Dev.get_set_ne _ _ _ _ _ _ (okey_ne_of_sub _ h)

/-- A link's index is not an index of the logs or of the event bits, which stand below it. -/
theorem linkIx_ne {ix : Nat} (l : Nat) (h : ix < 0x2680) : linkIx l ≠ ix := by unfold linkIx; omega

/-- Where an entry of a log has been written, an update of objects and links leaves the same to be said. -/
theorem OnlyLogged.with_links {d e f : Dev} (h : OnlyLogged d e) (hf : f = { e with objs := f.objs, links := f.links }) :
    OnlyLogged { d with links := f.links } f := by
  obtain ⟨he, hb⟩ := h
  have hblobs : f.blobs = e.blobs := by rw [hf]
  have hlog : f.log = e.log := by rw [hf]
  have hvcs : f.vcs = e.vcs := by rw [hf]
  refine ⟨?_, fun ix sub hs hm hl => ?_⟩
  · rw [hblobs, hlog, hvcs]
    exact hf.trans (congrArg (fun z : Dev => { z with objs := f.objs, links := f.links }) he)
  · have hget : f.getB ix sub = e.getB ix sub := by simp only [Dev.getB, hblobs]
    exact hget.trans (hb ix sub hs hm hl)

/-- What is said beyond one part is said beyond another that differs in objects and links alone. -/
theorem OnlyLogged.rebase {d d' e : Dev} {ls : Tab LinkRec} (h : OnlyLogged { d' with links := ls } e)
    (hd : d' = { d with objs := d'.objs, links := d'.links }) : OnlyLogged { d with links := ls } e := by
  rw [hd] at h
  exact h

/-- Two updates of objects and links in turn are one. -/
theorem Dev.objs_links_trans {d e f : Dev} (he : e = { d with objs := e.objs, links := e.links })
    (hf : f = { e with objs := f.objs, links := f.links }) : f = { d with objs := f.objs, links := f.links } :=
  hf.trans (congrArg (fun z : Dev => { z with objs := f.objs, links := f.links }) he)

/-! ## Entering a state -/

/-- The record of a link that enters state `st` in tick `now`. -/
def LinkRec.entered (r : LinkRec) (st now : Nat) : LinkRec :=
  { r with
    trips := if st = 3 then [] else r.trips, dAdj := if st = 3 then 0 else r.dAdj
    since := now, noCore := 0, good := 0, everRun := r.everRun || st == 5 }

@[simp] theorem Dev.link_enterLink (d : Dev) (l st : Nat) : (d.enterLink l st).link l = (d.link l).entered st d.now := by
  unfold Dev.enterLink
  rw [Dev.link_setLink]
  by_cases h : st = 3 <;> simp [h, LinkRec.entered]

@[simp] theorem Dev.linkState_enterLink (d : Dev) (l st : Nat) : (d.enterLink l st).linkState l = st := Dev.get_set_same d _ _ _

theorem Dev.get_enterLink_sub (d : Dev) (l st : Nat) {sub : Nat} (h : sub ≠ 2) :
    (d.enterLink l st).get (linkIx l) sub = d.get (linkIx l) sub :=
  Dev.get_set_ne _ _ _ _ _ _ (okey_ne_of_sub _ h.symm)

theorem Dev.enterLink_eq (d : Dev) (l st : Nat) :
    d.enterLink l st = { d with objs := (d.enterLink l st).objs, links := (d.enterLink l st).links } := rfl

theorem KeepsObjs.enterLink {but : List (Nat × Nat)} {d e : Dev} (h : KeepsObjs but d e) {l : Nat} (hm : (linkIx l, 2) ∈ but) (st : Nat) :
    KeepsObjs but d (e.enterLink l st) :=
  (h.set hm (by decide) st).of_objs_eq rfl

/-! ## A relink -/

/-- The part with the relink counted and logged. -/
def Dev.relinkLogged (d : Dev) (l : Nat) (x : Skein) : Dev := ((d.inc (linkIx l) 8).raiseEv 12).skein x

/-- The state that a relink enters; on the way to DOWN the generation is given up. -/
def Dev.relinkEnters (d : Dev) (l st : Nat) : Dev :=
  let e := d.enterLink l st
  if st = 0 then (e.set (linkIx l) 3 0).setLink l { e.link l with lineGen := 1, held := none } else e

/-- A relink counts and logs, then enters its state. -/
theorem Dev.relink_steps (d : Dev) (l st : Nat) : ∃ x, d.relink l st = (d.relinkLogged l x).relinkEnters l st := ⟨_, rfl⟩

@[simp] theorem Dev.linkState_relinkEnters (d : Dev) (l st : Nat) : (d.relinkEnters l st).linkState l = st := by
  unfold Dev.relinkEnters
  split
  · rw [Dev.linkState_setLink, Dev.linkState_set_sub _ _ _ (by decide), Dev.linkState_enterLink]
  · exact Dev.linkState_enterLink d l st

theorem Dev.relinkEnters_eq (d : Dev) (l st : Nat) :
    d.relinkEnters l st = { d with objs := (d.relinkEnters l st).objs, links := (d.relinkEnters l st).links } := by
  unfold Dev.relinkEnters; split <;> rfl

theorem KeepsObjs.relinkEnters {but : List (Nat × Nat)} {d e : Dev} (h : KeepsObjs but d e) {l st : Nat} (h2 : (linkIx l, 2) ∈ but)
    (h3 : st = 0 → (linkIx l, 3) ∈ but) : KeepsObjs but d (e.relinkEnters l st) := by
  unfold Dev.relinkEnters
  split
  · rename_i h0
    exact ((h.enterLink h2 st).set (h3 h0) (by decide) 0).setLink l _
  · exact h.enterLink h2 st

/-- The numeric objects of a link's state and of its generation, which a relink enters. -/
theorem Dev.keepsObjs_relinkEnters (d : Dev) (l st : Nat) : KeepsObjs [(linkIx l, 2), (linkIx l, 3)] d (d.relinkEnters l st) :=
  (KeepsObjs.refl _ d).relinkEnters (by simp) (by simp)

@[simp] theorem Dev.link_relinkLogged (d : Dev) (l : Nat) (x : Skein) : (d.relinkLogged l x).link l = d.link l := by
  unfold Dev.relinkLogged; rw [Dev.skein_eq]; rfl

@[simp] theorem Dev.now_relinkLogged (d : Dev) (l : Nat) (x : Skein) : (d.relinkLogged l x).now = d.now := by
  unfold Dev.relinkLogged; rw [Dev.skein_eq]; rfl

theorem KeepsObjs.relinkLogged {but : List (Nat × Nat)} {d e : Dev} (h : KeepsObjs but d e) {l : Nat} (h8 : (linkIx l, 8) ∈ but)
    (h12 : evObj 12 ∈ but) (hs : skeinObjs ⊆ but) (x : Skein) : KeepsObjs but d (e.relinkLogged l x) :=
  ((h.set h8 (by decide) _).raiseEv h12 (by decide)).skein hs x

/-- The count of relinks after one more (03 R107). -/
theorem Dev.relinks_relinkLogged (d : Dev) (l : Nat) (x : Skein) :
    (d.relinkLogged l x).get (linkIx l) 8 = satAdd 32 (d.get (linkIx l) 8) 1 := by
  have hk : ∀ ix sub, ix < 0x2680 → sub < 256 → okey ix sub ≠ okey (linkIx l) 8 := fun ix sub hi hs hk =>
    linkIx_ne l hi ((okey_inj hs (by decide)).mp hk).1.symm
  have hlog : (d.relinkLogged l x).get (linkIx l) 8 = ((d.inc (linkIx l) 8).raiseEv 12).get (linkIx l) 8 :=
    Dev.get_skein_ne _ x _ _ (hk _ _ (by decide) (by decide)) (hk _ _ (by decide) (by decide)) (hk _ _ (by decide) (by decide))
  calc (d.relinkLogged l x).get (linkIx l) 8
    _ = ((d.inc (linkIx l) 8).raiseEv 12).get (linkIx l) 8 := hlog
    _ = (d.inc (linkIx l) 8).get (linkIx l) 8 := Dev.get_raiseEv_ne _ 12 _ _ (hk _ _ (by decide) (by decide))
    _ = satAdd 32 (d.get (linkIx l) 8) 1 := Dev.get_satInc_same d 32 _ _ 1

theorem Dev.evPending_relinkLogged (d : Dev) (l : Nat) (x : Skein) : (d.relinkLogged l x).evPending 12 = true :=
  (Dev.evPending_skein _ x (by decide) (by decide)).trans ((Dev.evPending_raiseEv _ 12 12 (by decide) (by decide)).trans (if_pos rfl))

@[simp] theorem Dev.linkState_relink (d : Dev) (l st : Nat) : (d.relink l st).linkState l = st := by
  obtain ⟨x, hx⟩ := d.relink_steps l st
  rw [hx, Dev.linkState_relinkEnters]

theorem Dev.relinks_relink (d : Dev) (l st : Nat) : (d.relink l st).get (linkIx l) 8 = satAdd 32 (d.get (linkIx l) 8) 1 := by
  obtain ⟨x, hx⟩ := d.relink_steps l st
  rw [hx]
  exact (Dev.keepsObjs_relinkEnters _ l st _ 8 (by decide) (by simp)).trans (Dev.relinks_relinkLogged d l x)

theorem Dev.evPending_relink (d : Dev) (l st : Nat) : (d.relink l st).evPending 12 = true := by
  obtain ⟨x, hx⟩ := d.relink_steps l st
  rw [hx]
  unfold Dev.evPending Dev.bitO
  rw [Dev.keepsObjs_relinkEnters _ l st _ _ (by decide) (by simp [linkIx])]
  exact Dev.evPending_relinkLogged d l x

/-- A relink to DOWN shows no generation. -/
theorem Dev.generation_relink_down (d : Dev) (l : Nat) : (d.relink l 0).get (linkIx l) 3 = 0 := by
  obtain ⟨x, hx⟩ := d.relink_steps l 0
  rw [hx]
  exact Dev.get_set_same _ _ _ _

@[simp] theorem Dev.link_relink_down (d : Dev) (l : Nat) :
    (d.relink l 0).link l = { (d.link l).entered 0 d.now with lineGen := 1, held := none } := by
  obtain ⟨x, hx⟩ := d.relink_steps l 0
  rw [hx]
  refine (Dev.link_setLink _ _ _).trans ?_
  rw [Dev.link_enterLink, Dev.link_relinkLogged, Dev.now_relinkLogged]

@[simp] theorem Dev.link_relink_recover (d : Dev) (l : Nat) : (d.relink l 6).link l = (d.link l).entered 6 d.now := by
  obtain ⟨x, hx⟩ := d.relink_steps l 6
  rw [hx]
  refine (Dev.link_enterLink _ _ _).trans ?_
  rw [Dev.link_relinkLogged, Dev.now_relinkLogged]

/-- The objects that a relink changes: state, count, EV12 and those of a Skein entry, and on the way to DOWN the generation. -/
theorem KeepsObjs.relink {but : List (Nat × Nat)} {d e : Dev} (h : KeepsObjs (but ++ skeinObjs) d e) {l st : Nat}
    (hm : [(linkIx l, 2), (linkIx l, 8), evObj 12] ⊆ but) (h3 : st = 0 → (linkIx l, 3) ∈ but) :
    KeepsObjs (but ++ skeinObjs) d (e.relink l st) := by
  have hin : ∀ x ∈ [(linkIx l, 2), (linkIx l, 8), evObj 12], x ∈ but ++ skeinObjs := fun x hx => List.mem_append_left _ (hm hx)
  obtain ⟨x, hx⟩ := e.relink_steps l st
  rw [hx]
  exact (h.relinkLogged (hin _ (by simp)) (hin _ (by simp)) (List.subset_append_right _ _) x).relinkEnters (hin _ (by simp))
    fun h0 => List.mem_append_left _ (h3 h0)

/-- Beyond objects and links, a relink writes the Skein log alone. -/
theorem Dev.onlyLogged_relink (d : Dev) (l st : Nat) : OnlyLogged { d with links := (d.relink l st).links } (d.relink l st) := by
  obtain ⟨x, hx⟩ := d.relink_steps l st
  rw [hx]
  exact (onlyLogged_skein ((d.inc (linkIx l) 8).raiseEv 12) x).with_links (Dev.relinkEnters_eq _ l st)

end Sys2Proof.Machine
end

section
/-! The start of a Roving link: each command of 03 R103 to R106 where its condition holds. -/
namespace Sys2Proof.Machine

open Sys2Proof

/-! ## Taking a head into use -/

@[simp] theorem Dev.linkState_acceptHead (d : Dev) (l ident caps : Nat) : (d.acceptHead l ident caps).linkState l = 3 :=
  Dev.linkState_enterLink _ l 3

@[simp] theorem Dev.link_acceptHead (d : Dev) (l ident caps : Nat) :
    (d.acceptHead l ident caps).link l = { (d.link l).entered 3 d.now with identity := some ident, held := none } := by
  unfold Dev.acceptHead
  rw [Dev.link_setLink, Dev.link_enterLink]
  rfl

theorem Dev.identity_acceptHead (d : Dev) (l ident caps : Nat) : (d.acceptHead l ident caps).get (linkIx l) 4 = ident :=
  (Dev.get_enterLink_sub _ l 3 (by decide)).trans
    ((Dev.get_set_ne _ _ _ _ _ _ (okey_ne_of_sub _ (by decide))).trans (Dev.get_set_same d _ _ _))

theorem Dev.capabilities_acceptHead (d : Dev) (l ident caps : Nat) : (d.acceptHead l ident caps).get (linkIx l) 0xA = caps :=
  (Dev.get_enterLink_sub _ l 3 (by decide)).trans (Dev.get_set_same _ _ _ _)

theorem Dev.acceptHead_eq (d : Dev) (l ident caps : Nat) :
    d.acceptHead l ident caps = { d with objs := (d.acceptHead l ident caps).objs, links := (d.acceptHead l ident caps).links } :=
  Dev.objs_links_trans (e := ((d.set (linkIx l) 4 ident).set (linkIx l) 0xA caps).enterLink l 3)
    (Dev.objs_links_trans (e := (d.set (linkIx l) 4 ident).set (linkIx l) 0xA caps) rfl (Dev.enterLink_eq _ l 3)) rfl

theorem KeepsObjs.acceptHead {but : List (Nat × Nat)} {d e : Dev} (h : KeepsObjs but d e) {l : Nat} (h2 : (linkIx l, 2) ∈ but)
    (h4 : (linkIx l, 4) ∈ but) (hA : (linkIx l, 0xA) ∈ but) (ident caps : Nat) : KeepsObjs but d (e.acceptHead l ident caps) :=
  (((h.set h4 (by decide) ident).set hA (by decide) caps).enterLink h2 3).setLink l _

/-- The record of a link that has heard the capability set `b`: generation chosen and turnaround (03 R104, R105). -/
def Dev.heardSet (d : Dev) (l : Nat) (b : Bytes) : LinkRec :=
  { d.link l with
    chosen := if (d.link l).lineGen = 2 then 2 else if (byteAt b 1).testBit 1 then d.linkOffer l else 1
    turnaround := leAt b 3 2 }

/-- The capabilities of a set as 0x2680+L.0A holds them. -/
def capsShown (b : Bytes) : Nat := byteAt b 1 + 256 * byteAt b 2 + 65536 * byteAt b 13

/-- The hold of R106: a metrology event and EV13, and the new identity kept. -/
def Dev.holdHead (d : Dev) (l old ident caps : Nat) : Dev :=
  let e := (d.event 0x0007 0xFF l (natLE 8 old) (natLE 8 ident)).raiseEv 13
  e.setLink l { e.link l with held := some ident, heldCaps := caps }

section
variable {d : Dev} {l : Nat} {b : Bytes} (hr : d.loom = .running) (hs : d.linkState l = 2) (hh : (d.link l).held = none) (hok : capSetOk b = true)
include hr hs hh hok

/-- A valid set of a head that is not held is taken into use. -/
theorem capabilitySet_accepts (hid : (d.link l).identity = none ∨ d.meteringLink l = false ∨ (d.link l).identity = some (capIdentity b)) :
    capabilitySet l b d = (d.setLink l (d.heardSet l b)).acceptHead l (capIdentity b) (capsShown b) := by
  unfold capabilitySet
  rw [if_pos (by simp [Dev.ticking_of_running hr, hs, hh, hok])]
  dsimp only
  split
  · rename_i old hold
    refine if_neg fun hc => ?_
    obtain ⟨hne, hmet⟩ := Bool.and_eq_true_iff.mp hc
    obtain hnone | hnot | hsame := hid
    · simp [hold] at hnone
    · exact Bool.false_ne_true (hnot.symm.trans hmet)
    · exact of_decide_eq_true hne (Option.some.inj (hold.symm.trans hsame))
  · rfl

/-- A valid set of another head on a metering link holds the link. -/
theorem capabilitySet_holds {old : Nat} (hid : (d.link l).identity = some old) (hne : old ≠ capIdentity b) (hm : d.meteringLink l = true) :
    capabilitySet l b d = (d.setLink l (d.heardSet l b)).holdHead l old (capIdentity b) (capsShown b) := by
  unfold capabilitySet
  rw [if_pos (by simp [Dev.ticking_of_running hr, hs, hh, hok])]
  dsimp only
  split
  · rename_i old' hold
    obtain rfl := Option.some.inj (hid.symm.trans hold)
    exact if_pos (Bool.and_eq_true_iff.mpr ⟨decide_eq_true hne, hm⟩)
  · rename_i hnone
    simp [hid] at hnone

end

/-- The hold changes EV13 and what a metrology event changes. -/
theorem Dev.keepsObjs_holdHead (d : Dev) (l old ident caps : Nat) : KeepsObjs ([evObj 13] ++ eventObjs) d (d.holdHead l old ident caps) :=
  (((KeepsObjs.refl _ d).eventEntry (by simp) _ _ _ _ _ _).raiseEv (by simp) (by decide)).setLink l _

@[simp] theorem Dev.link_eventEntry (d : Dev) (t code role cont subject : Nat) (data : Bytes) (l : Nat) :
    (d.eventEntry t code role cont subject data).link l = d.link l := by
  rw [Dev.eventEntry_eq]; rfl

@[simp] theorem Dev.link_holdHead (d : Dev) (l old ident caps : Nat) :
    (d.holdHead l old ident caps).link l = { d.link l with held := some ident, heldCaps := caps } := by
  unfold Dev.holdHead Dev.event Dev.eventAt
  simp

theorem Dev.evPending_holdHead (d : Dev) (l old ident caps : Nat) : (d.holdHead l old ident caps).evPending 13 = true :=
  (Dev.evPending_raiseEv _ 13 13 (by decide) (by decide)).trans (if_pos rfl)

theorem Dev.eventNumber_holdHead (d : Dev) (l old ident caps : Nat) : (d.holdHead l old ident caps).get 0x4D40 1 = d.get 0x4D40 1 + 1 :=
  (Dev.get_raiseEv_ne _ 13 _ _ (by decide)).trans (Dev.eventEntry_number d _ _ _ _ _ _)

theorem Dev.onlyLogged_holdHead (d : Dev) (l old ident caps : Nat) :
    OnlyLogged { d with links := (d.holdHead l old ident caps).links } (d.holdHead l old ident caps) :=
  (onlyLogged_eventEntry d _ _ _ _ _ _).with_links rfl

/-! ## The states of a start -/

section
variable {d : Dev} {l : Nat} (hr : d.loom = .running)
include hr

theorem linkAcquire_enters (hs : d.linkState l = 0) (h9 : d.get (linkIx l) 9 = 1) : linkAcquire l d = d.enterLink l 1 :=
  Dev.when_pos (by simp [Dev.ticking_of_running hr, hs, h9]) _ d

theorem alignmentHeld_enters (hs : d.linkState l = 1) (ht : (d.link l).since + 64 ≤ d.now) : alignmentHeld l d = d.enterLink l 2 :=
  Dev.when_pos (by simp [Dev.ticking_of_running hr, hs, ht]) _ d

theorem recoverSuccess_enters (hs : d.linkState l = 6) (hg : 16 ≤ (d.link l).good) : recoverSuccess l d = d.enterLink l 5 :=
  Dev.when_pos (by simp [Dev.ticking_of_running hr, hs, hg]) _ d

theorem rateSwitch_enters (hs : d.linkState l = 4) (ht : (d.link l).switchTick ≤ d.now) :
    rateSwitch l d = (d.enterLink l 1).setLink l { (d.link l).entered 1 d.now with lineGen := 2, switchTick := d.now } := by
  refine (Dev.when_pos (by simp [Dev.ticking_of_running hr, hs, ht]) _ d).trans ?_
  simp only [Dev.link_enterLink]
  rfl

section
variable {at' : Nat} (hs : d.linkState l = 3) (hin : (d.link l).inTime at' = true) (hg : 16 ≤ (d.link l).good)
include hs hin hg

theorem alignComplete_runs (hc : ¬((d.link l).chosen = 2 ∧ (d.link l).lineGen = 1)) :
    alignComplete l at' d = (d.enterLink l 5).set (linkIx l) 3 (d.link l).lineGen :=
  (Dev.when_pos (by simp [Dev.ticking_of_running hr, hs, hin, hg]) _ d).trans (if_neg (by simpa using hc))

theorem alignComplete_rates (hc : (d.link l).chosen = 2) (hgen : (d.link l).lineGen = 1) :
    alignComplete l at' d = (d.enterLink l 4).setLink l { (d.link l).entered 4 d.now with switchTick := d.now + 9 } := by
  refine (Dev.when_pos (by simp [Dev.ticking_of_running hr, hs, hin, hg]) _ d).trans ((if_pos (by simp [hc, hgen])).trans ?_)
  simp only [Dev.link_enterLink]
  rfl

end

/-- In ALIGN, before the delay is known, a frame's marker is measured. -/
theorem upstreamFrame_measures {at' m : Nat} {b : Bytes} (hs : d.linkState l = 3) (hd : (d.link l).dAdj = 0) :
    upstreamFrame l at' m b d = measureTrip l at' d := by
  simp [upstreamFrame, Dev.ticking_of_running hr, hs, hd]

/-- In ALIGN, once the delay is known, a frame's marker is counted. -/
theorem upstreamFrame_counts {at' m : Nat} {b : Bytes} (hs : d.linkState l = 3) (hd : (d.link l).dAdj ≠ 0) :
    upstreamFrame l at' m b d = d.setLink l ((d.link l).marked at') := by
  simp [upstreamFrame, Dev.ticking_of_running hr, hs, hd]

end

/-- The sixteenth marker gives the one-way delay, and D_adj the rest of 2 500 ns (03 R102). -/
theorem measureTrip_sixteenth {d : Dev} {l at' : Nat} (ht : (d.link l).trips.length = 15) :
    let dl := (at' + sumN (d.link l).trips - 64 * (d.link l).turnaround) / 32
    measureTrip l at' d = (d.set (linkIx l) 5 (min dl 8000)).setLink l
      { d.link l with trips := [], dAdj := if dl ≤ 8000 then 10000 - dl else 0 } := by
  unfold measureTrip
  rw [if_neg (by simp [ht]), sumN_cons]
  simp only
  split <;> rfl

/-- Settles O20: each command of a start takes its link on by the equation of its meaning, and the lemmas on entering a state, on taking a
head into use and on the hold say what that leaves. -/
theorem linkStartStates : Obligations.LinkStartStates := by
  unfold Obligations.LinkStartStates
  refine ⟨?acquire, ?held, ?accepted, ?holds, ?measured, ?counted, ?runs, ?rates, ?switched, ?recovered⟩
  case acquire =>
    intro s l hr hs h9
    refine completes_onDev (f := linkAcquire l) rfl ?_
    rw [linkAcquire_enters hr hs h9]
    exact ⟨by simp, by simp [LinkRec.entered], by simp [LinkRec.entered], (KeepsObjs.refl _ _).enterLink (by simp) 1, rfl⟩
  case held =>
    intro s l hr hs ht
    refine completes_onDev (f := alignmentHeld l) rfl ?_
    rw [alignmentHeld_enters hr hs ht]
    exact ⟨by simp, by simp [LinkRec.entered], (KeepsObjs.refl _ _).enterLink (by simp) 2, rfl⟩
  case accepted =>
    intro s l b hr hs hh hok hid
    refine completes_onDev (f := capabilitySet l b) rfl ?_
    rw [capabilitySet_accepts hr hs hh hok hid]
    exact ⟨by simp, by simp, Dev.identity_acceptHead _ _ _ _, Dev.capabilities_acceptHead _ _ _ _, by simp [LinkRec.entered, Dev.heardSet],
      ((KeepsObjs.refl _ s.dev).setLink l _).acceptHead (by simp) (by simp) (by simp) _ _,
      Dev.objs_links_trans (e := s.dev.setLink l (s.dev.heardSet l b)) rfl (Dev.acceptHead_eq _ _ _ _)⟩
  case holds =>
    intro s l b old hr hs hh hok hid hne hm
    refine completes_onDev (f := capabilitySet l b) rfl ?_
    rw [capabilitySet_holds hr hs hh hok hid hne hm]
    have hkeeps : KeepsObjs ([evObj 13] ++ eventObjs) s.dev _ :=
      (Dev.keepsObjs_holdHead (s.dev.setLink l (s.dev.heardSet l b)) l old (capIdentity b) (capsShown b)).rebase rfl
    have hstate : (linkIx l, 2) ∉ [evObj 13] ++ eventObjs := by
      have := l.isLt
      simp only [evObj, eventObjs, linkIx, List.cons_append, List.nil_append, List.mem_cons, Prod.mk.injEq, List.not_mem_nil, or_false]
      omega
    exact ⟨(hkeeps _ 2 (by decide) hstate).trans hs, by simp, by simpa [Dev.heardSet] using hid, Dev.evPending_holdHead _ _ _ _ _,
      Dev.eventNumber_holdHead _ _ _ _ _, hkeeps, (Dev.onlyLogged_holdHead _ _ _ _ _).rebase rfl⟩
  case measured =>
    intro s l at' m b hr hs hd ht
    refine completes_onDev (f := upstreamFrame l at' m b) rfl ?_
    rw [upstreamFrame_measures hr hs hd, measureTrip_sixteenth ht]
    exact ⟨Dev.get_set_same _ _ _ _, by simp, by simp, (Dev.linkState_set_sub _ _ _ (by decide)).trans hs,
      ((KeepsObjs.refl _ s.dev).set (by simp) (by decide) _).setLink l _, rfl⟩
  case counted =>
    intro s l at' m b hr hs hd
    refine completes_onDev (f := upstreamFrame l at' m b) rfl ?_
    rw [upstreamFrame_counts hr hs hd]
    exact ⟨by simp [LinkRec.marked], rfl⟩
  case runs =>
    intro s l at' hr hs hin hg hc
    refine completes_onDev (f := alignComplete l at') rfl ?_
    rw [alignComplete_runs hr hs hin hg hc]
    exact ⟨(Dev.linkState_set_sub _ _ _ (by decide)).trans (Dev.linkState_enterLink _ _ _), Dev.get_set_same _ _ _ _,
      ((KeepsObjs.refl _ s.dev).enterLink (by simp) 5).set (by simp) (by decide) _, rfl⟩
  case rates =>
    intro s l at' hr hs hin hg hc hgen
    refine completes_onDev (f := alignComplete l at') rfl ?_
    rw [alignComplete_rates hr hs hin hg hc hgen]
    exact ⟨by simp, by simp, ((KeepsObjs.refl _ s.dev).enterLink (by simp) 4).setLink l _, rfl⟩
  case switched =>
    intro s l hr hs ht
    refine completes_onDev (f := rateSwitch l) rfl ?_
    rw [rateSwitch_enters hr hs ht]
    exact ⟨by simp, by simp, ((KeepsObjs.refl _ s.dev).enterLink (by simp) 1).setLink l _, rfl⟩
  case recovered =>
    intro s l hr hs hg
    refine completes_onDev (f := recoverSuccess l) rfl ?_
    rw [recoverSuccess_enters hr hs hg]
    exact ⟨by simp, (KeepsObjs.refl _ s.dev).enterLink (by simp) 5, rfl⟩

end Sys2Proof.Machine
end

section
/-! The faults of a Roving link: each command of 03 R107 where its condition holds, and a frame in RUN. -/
namespace Sys2Proof.Machine

open Sys2Proof

/-! ## Relinks -/

/-- A relink leaves the count of missing cores as it was. -/
theorem Dev.missing_relink (d : Dev) (l st : Nat) : (d.relink l st).get (linkIx l) 7 = d.get (linkIx l) 7 := by
  have hkeeps : KeepsObjs ([(linkIx l, 2), (linkIx l, 3), (linkIx l, 8), evObj 12] ++ skeinObjs) d (d.relink l st) :=
    (KeepsObjs.refl _ d).relink (by simp) (by simp)
  exact hkeeps _ 7 (by decide) (by simp [evObj, skeinObjs, linkIx])

section
variable {d : Dev} {l : Nat} (hr : d.loom = .running)
include hr

theorem fourFrames_relinks (hs : d.linkState l = 5) (hn : 3 ≤ (d.link l).noCore) :
    fourFrames l d = ((d.inc (linkIx l) 7).badPeriod l (d.now - 1)).relink l 6 :=
  Dev.when_pos (by simp [Dev.ticking_of_running hr, hs, hn]) _ d

theorem markerOut_relinks (hs : d.linkState l = 5) : markerOut l d = (d.badPeriod l (d.now - 1)).relink l 6 :=
  Dev.when_pos (by simp [Dev.ticking_of_running hr, hs]) _ d

theorem alignmentLost_relinks (h1 : 1 ≤ d.linkState l) (h6 : d.linkState l ≤ 6) :
    alignmentLost l d = (d.badPeriod l (d.now - 1)).relink l 0 :=
  Dev.when_pos (by simp [Dev.ticking_of_running hr, h1, h6]) _ d

theorem recoverTimeout_relinks (hs : d.linkState l = 6) (ht : (d.link l).since + 48 ≤ d.now) : recoverTimeout l d = d.relink l 0 :=
  Dev.when_pos (by simp [Dev.ticking_of_running hr, hs, ht]) _ d

theorem gen2Timeout_relinks (hg : (d.link l).lineGen = 2) (hs : d.linkState l = 1 ∨ d.linkState l = 2)
    (ht : (d.link l).switchTick + 64 ≤ d.now) :
    gen2Timeout l d = (d.relink l 0).setLink l { (d.relink l 0).link l with gen2Failed := true, chosen := 1 } :=
  Dev.when_pos (by simp [Dev.ticking_of_running hr, hg, hs, ht]) _ d

/-! ## Frames in RUN -/

/-- A missing core before the fourth is counted and makes the samples of its period invalid, and no more. -/
theorem coreMissing_stays (hs : d.linkState l = 5) (hn : (d.link l).noCore < 3) :
    let e := (d.inc (linkIx l) 7).badPeriod l (d.now - 1)
    ∃ x, coreMissing l d = e.setLink l { e.link l with noCore := (e.link l).noCore + 1, good := 0, modem := x } := by
  have hcores : (((d.inc (linkIx l) 7).badPeriod l (d.now - 1)).link l).noCore = (d.link l).noCore := by simp [Dev.inc]
  refine ⟨_, (Dev.when_pos (by simp [Dev.ticking_of_running hr, hs]) _ d).trans (Dev.when_neg ?_ _ _)⟩
  exact Bool.and_eq_false_iff.mpr (.inr (decide_eq_false (by rw [hcores]; omega)))

theorem upstreamFrame_takes {at' m : Nat} {b : Bytes} (hs : d.linkState l = 5) : upstreamFrame l at' m b d = takeFrame l at' m b d := by
  simp [upstreamFrame, Dev.ticking_of_running hr, hs]

end

/-- The record of a link that takes over the core `h` of a frame. -/
def LinkRec.took (r : LinkRec) (at' : Nat) (modem : List Int) (h : HeadCore) : LinkRec :=
  { r.marked at' with modem := modem, core := some h, noCore := 0, cw4Sent := r.cw4Sent.filter fun n => h.period < n }

/-- The modem samples that link `l` takes of a frame: none on Gen 1 (03 R93). -/
def Dev.frameModem (d : Dev) (l m : Nat) (b : Bytes) : List Int := if (d.link l).lineGen = 2 then modemSamples m b else []

/-- A frame whose copy A is valid, in or out of time, with its core's answer to a CW4 access. -/
def Dev.tookFrame (d : Dev) (l at' m : Nat) (b : Bytes) (h : HeadCore) : Dev :=
  (d.setLink l ((d.link l).took at' (d.frameModem l m b) h)).when ((d.link l).cw4Sent.contains h.period) fun d =>
    d.set (linkIx l) 0xC (leAt (sliceB b 1 299) 295 4)

/-- A frame with both copies valid is taken over; out of time its samples are invalid, and in RUN the link relinks. -/
theorem takeFrame_valid {d : Dev} {l at' m : Nat} {b : Bytes} (hA : crc32 (sliceB b 1 299) = leAt b 300 4)
    (hC : crc32 (sliceB b 304 299) = leAt b 603 4) :
    let h := parseCore d.now (sliceB b 1 299)
    takeFrame l at' m b d = (d.tookFrame l at' m b h).when (!(d.link l).inTime at') fun d =>
      (d.badPeriod l h.period).when (d.linkState l == 5) fun d => d.relink l 6 := by
  have hokA : (crc32 (sliceB b 1 299) == leAt b 300 4) = true := beq_iff_eq.mpr hA
  have hokC : (crc32 (sliceB b 304 299) == leAt b 603 4) = true := beq_iff_eq.mpr hC
  unfold takeFrame
  simp only [hokA, hokC, Bool.not_true, Bool.or_self, Dev.when_false, if_true]
  rfl

@[simp] theorem Dev.link_tookFrame (d : Dev) (l at' m : Nat) (b : Bytes) (h : HeadCore) :
    (d.tookFrame l at' m b h).link l = (d.link l).took at' (d.frameModem l m b) h := by
  unfold Dev.tookFrame Dev.when
  split <;> simp

theorem Dev.tookFrame_eq (d : Dev) (l at' m : Nat) (b : Bytes) (h : HeadCore) :
    d.tookFrame l at' m b h = { d with objs := (d.tookFrame l at' m b h).objs, links := (d.tookFrame l at' m b h).links } := by
  unfold Dev.tookFrame Dev.when
  split <;> rfl

theorem Dev.keepsObjs_tookFrame (d : Dev) (l at' m : Nat) (b : Bytes) (h : HeadCore) :
    KeepsObjs [(linkIx l, 0xC)] d (d.tookFrame l at' m b h) := by
  unfold Dev.tookFrame Dev.when
  split
  · exact ((KeepsObjs.refl _ d).setLink l _).set (by simp) (by decide) _
  · exact (KeepsObjs.refl _ d).setLink l _

/-- The head's answer is shown where the frame answers one with the access (03 R99). -/
theorem Dev.answer_tookFrame (d : Dev) (l at' m : Nat) (b : Bytes) {h : HeadCore} (hc : h.period ∈ (d.link l).cw4Sent) :
    (d.tookFrame l at' m b h).get (linkIx l) 0xC = leAt (sliceB b 1 299) 295 4 := by
  unfold Dev.tookFrame
  rw [Dev.when_pos (by simpa using hc)]
  exact Dev.get_set_same _ _ _ _

/-- A frame that answers no access is taken into the link's record alone. -/
theorem Dev.tookFrame_unasked (d : Dev) (l at' m : Nat) (b : Bytes) {h : HeadCore} (hc : h.period ∉ (d.link l).cw4Sent) :
    d.tookFrame l at' m b h = d.setLink l ((d.link l).took at' (d.frameModem l m b) h) :=
  Dev.when_neg (by simpa using hc) _ _

/-- Settles O21: each fault relinks by the equation of its meaning, and the lemmas on a relink say what that leaves; a missing core and a
frame in time do not relink. -/
theorem linkFaultsAndRelinks : Obligations.LinkFaultsAndRelinks := by
  unfold Obligations.LinkFaultsAndRelinks
  refine ⟨?fourFrames, ?marker, ?alignment, ?recover, ?gen2, ?missing, ?inTime, ?late⟩
  case fourFrames =>
    intro s l hr hs hn
    refine completes_onDev (f := fourFrames l) rfl ?_
    rw [fourFrames_relinks hr hs hn]
    refine ⟨by simp, ?_, (Dev.missing_relink _ _ _).trans (Dev.get_satInc_same s.dev 32 _ _ 1), Dev.evPending_relink _ _ _, by simp [LinkRec.entered], ?_, (Dev.onlyLogged_relink _ _ _).rebase rfl⟩
    · refine (Dev.relinks_relink _ _ _).trans ?_
      rw [Dev.get_badPeriod, Dev.inc, Dev.get_satInc_ne _ _ _ _ _ _ _ (okey_ne_of_sub _ (by decide))]
    · exact (((KeepsObjs.refl _ s.dev).set (by simp) (by decide) _).badPeriod l _).relink (by simp) (by simp)
  case marker =>
    intro s l hr hs
    refine completes_onDev (f := markerOut l) rfl ?_
    rw [markerOut_relinks hr hs]
    exact ⟨by simp, Dev.relinks_relink _ _ _, Dev.evPending_relink _ _ _, by simp [LinkRec.entered],
      ((KeepsObjs.refl _ s.dev).badPeriod l _).relink (by simp) (by simp),
      (Dev.onlyLogged_relink _ _ _).rebase rfl⟩
  case alignment =>
    intro s l hr h1 h6
    refine completes_onDev (f := alignmentLost l) rfl ?_
    rw [alignmentLost_relinks hr h1 h6]
    exact ⟨by simp, Dev.generation_relink_down _ _, by simp, Dev.relinks_relink _ _ _, Dev.evPending_relink _ _ _,
      ((KeepsObjs.refl _ s.dev).badPeriod l _).relink (by simp) (by simp),
      (Dev.onlyLogged_relink _ _ _).rebase rfl⟩
  case recover =>
    intro s l hr hs ht
    refine completes_onDev (f := recoverTimeout l) rfl ?_
    rw [recoverTimeout_relinks hr hs ht]
    exact ⟨by simp, Dev.generation_relink_down _ _, Dev.relinks_relink _ _ _, Dev.evPending_relink _ _ _,
      (KeepsObjs.refl _ s.dev).relink (by simp) (by simp), Dev.onlyLogged_relink _ _ _⟩
  case gen2 =>
    intro s l hr hg hs ht
    refine completes_onDev (f := gen2Timeout l) rfl ?_
    rw [gen2Timeout_relinks hr hg hs ht]
    exact ⟨by simp, by simp, by simp, Dev.relinks_relink _ _ _, Dev.evPending_relink _ _ _,
      ((KeepsObjs.refl _ s.dev).relink (by simp) (by simp)).setLink l _,
      ((Dev.onlyLogged_relink s.dev l 0).with_links rfl).rebase rfl⟩
  case missing =>
    intro s l hr hs hn
    refine completes_onDev (f := coreMissing l) rfl ?_
    obtain ⟨x, hx⟩ := coreMissing_stays hr hs hn
    rw [hx]
    exact ⟨(Dev.linkState_set_sub _ _ _ (by decide)).trans hs, Dev.get_satInc_same _ _ _ _ _, by simp [Dev.inc], by simp, by simp,
      (((KeepsObjs.refl _ s.dev).set (by simp) (by decide) _).badPeriod l _).setLink l _, rfl⟩
  case inTime =>
    intro s l at' m b hr hs hin hA hC
    refine completes_onDev (f := upstreamFrame l at' m b) rfl ?_
    rw [upstreamFrame_takes hr hs, takeFrame_valid hA hC, Dev.when_neg (by simp [hin])]
    refine ⟨by simp [LinkRec.took], by simp [LinkRec.took], by simp [LinkRec.took, LinkRec.marked, hin], Dev.answer_tookFrame _ _ _ _ _,
      by simp [LinkRec.took], fun hc => ?_, Dev.keepsObjs_tookFrame _ _ _ _ _ _, Dev.tookFrame_eq _ _ _ _ _ _⟩
    rw [Dev.tookFrame_unasked _ _ _ _ _ hc, Dev.get_setLink]
  case late =>
    intro s l at' m b hr hs hin hA hC hc
    refine completes_onDev (f := upstreamFrame l at' m b) rfl ?_
    rw [upstreamFrame_takes hr hs, takeFrame_valid hA hC, Dev.when_pos (by simp [hin]), Dev.tookFrame_unasked _ _ _ _ _ (by simp [hc]),
      Dev.when_pos (by simp [hs])]
    exact ⟨by simp, by simp [LinkRec.entered], Dev.relinks_relink _ _ _, Dev.evPending_relink _ _ _,
      (((KeepsObjs.refl _ s.dev).setLink l _).badPeriod l _).relink (by simp) (by simp),
      (Dev.onlyLogged_relink _ _ _).rebase rfl⟩

end Sys2Proof.Machine
end

section
/-! Writes to a Roving link (03 R99, R103, R106, R109): what each leaves once every check admits it. -/
namespace Sys2Proof.Machine

open Sys2Proof

/-- An admitted write to a link has the effect of its sub-index and status 0. -/
theorem writeLink_done {d : Dev} {role : Role} {l sub v : Nat} (h : Accepts d role (linkIx l) sub (.num v) (linkRules d l sub v)) :
    writeLink role l sub v d = (effLink l sub v d).answer 0 :=
  writeObj_of_accepts h (effLink l sub v)

theorem effLink_disable (l : Nat) (d : Dev) : effLink l 9 0 d = effLinkDisable l d := rfl
theorem effLink_enable (l : Nat) (d : Dev) : effLink l 9 1 d = effLinkEnable l d := rfl
theorem effLink_accept (l : Nat) (d : Dev) : effLink l 0xB 1 d = effAcceptHead l d := rfl
theorem effLink_access (l v : Nat) (d : Dev) : effLink l 0xC v d = d.setLink l { d.link l with cw4 := v } := rfl

/-! ## Disabling -/

@[simp] theorem linkState_effLinkDisable (l : Nat) (d : Dev) : (effLinkDisable l d).linkState l = 7 :=
  (Dev.linkState_set_sub _ _ _ (by decide)).trans (Dev.linkState_enterLink _ _ _)

theorem enabled_effLinkDisable (l : Nat) (d : Dev) : (effLinkDisable l d).get (linkIx l) 9 = 0 :=
  (Dev.get_set_ne _ _ _ _ _ _ (okey_ne_of_sub _ (by decide))).trans
    ((Dev.get_enterLink_sub _ _ _ (by decide)).trans (Dev.get_set_same _ _ _ _))

theorem generation_effLinkDisable (l : Nat) (d : Dev) : (effLinkDisable l d).get (linkIx l) 3 = 0 := Dev.get_set_same _ _ _ _

@[simp] theorem link_effLinkDisable (l : Nat) (d : Dev) :
    (effLinkDisable l d).link l = { (d.link l).entered 7 d.now with badPeriod := d.now + 1, core := none, held := none } := by
  simp only [effLinkDisable, Dev.link_setLink, Dev.link_set, Dev.link_enterLink, Dev.link_badPeriod]
  rfl

theorem keepsObjs_effLinkDisable (l : Nat) (d : Dev) :
    KeepsObjs [(linkIx l, 2), (linkIx l, 3), (linkIx l, 9)] d (effLinkDisable l d) :=
  (((((KeepsObjs.refl _ d).set (by simp) (by decide) 0).badPeriod l _).enterLink (by simp) 7).set (by simp) (by decide) 0).setLink l _

theorem effLinkDisable_eq (l : Nat) (d : Dev) :
    effLinkDisable l d = { d with objs := (effLinkDisable l d).objs, links := (effLinkDisable l d).links } :=
  Dev.objs_links_trans (e := (((d.set (linkIx l) 9 0).badPeriod l d.now).enterLink l 7).set (linkIx l) 3 0)
    (Dev.objs_links_trans (e := ((d.set (linkIx l) 9 0).badPeriod l d.now).enterLink l 7)
      (Dev.objs_links_trans (e := (d.set (linkIx l) 9 0).badPeriod l d.now) rfl (Dev.enterLink_eq _ l 7)) rfl) rfl

/-! ## Enabling -/

/-- The part with the enable object of link `l` written, and Gen 2 offered again. -/
def Dev.enabledLink (d : Dev) (l : Nat) : Dev := (d.set (linkIx l) 9 1).setLink l { d.link l with gen2Failed := false }

theorem Dev.linkState_enabledLink (d : Dev) (l : Nat) : (d.enabledLink l).linkState l = d.linkState l :=
  Dev.linkState_set_sub _ _ _ (by decide)

/-- A disabled link goes to DOWN. -/
theorem effLinkEnable_disabled {l : Nat} {d : Dev} (h : d.linkState l = 7) :
    effLinkEnable l d = ((d.enabledLink l).enterLink l 0).setLink l
      { ((d.enabledLink l).enterLink l 0).link l with lineGen := 1, held := none } := by
  have h7 : ((d.enabledLink l).linkState l == 7) = true := beq_iff_eq.mpr ((d.linkState_enabledLink l).trans h)
  exact (if_pos h7 : (if (d.enabledLink l).linkState l == 7 then _ else _) = _)

/-- Any other link stays in its state. -/
theorem effLinkEnable_other {l : Nat} {d : Dev} (h : d.linkState l ≠ 7) : effLinkEnable l d = d.enabledLink l := by
  have h7 : ((d.enabledLink l).linkState l == 7) = false := beq_eq_false_iff_ne.mpr fun h7 => h ((d.linkState_enabledLink l).symm.trans h7)
  exact (if_neg (Bool.eq_false_iff.mp h7) : (if (d.enabledLink l).linkState l == 7 then _ else _) = _)

theorem linkState_effLinkEnable (l : Nat) (d : Dev) : (effLinkEnable l d).linkState l = if d.linkState l = 7 then 0 else d.linkState l := by
  by_cases h : d.linkState l = 7
  · rw [effLinkEnable_disabled h, if_pos h, Dev.linkState_setLink, Dev.linkState_enterLink]
  · rw [effLinkEnable_other h, if_neg h, Dev.linkState_enabledLink]

theorem enabled_effLinkEnable (l : Nat) (d : Dev) : (effLinkEnable l d).get (linkIx l) 9 = 1 := by
  have h1 : (d.enabledLink l).get (linkIx l) 9 = 1 := Dev.get_set_same _ _ _ _
  by_cases h : d.linkState l = 7
  · rw [effLinkEnable_disabled h, Dev.get_setLink, Dev.get_enterLink_sub _ _ _ (by decide), h1]
  · rw [effLinkEnable_other h, h1]

theorem gen2Failed_effLinkEnable (l : Nat) (d : Dev) : ((effLinkEnable l d).link l).gen2Failed = false := by
  have h1 : ((d.enabledLink l).link l).gen2Failed = false := by simp [Dev.enabledLink]
  by_cases h : d.linkState l = 7
  · rw [effLinkEnable_disabled h, Dev.link_setLink, Dev.link_enterLink]
    exact h1
  · rw [effLinkEnable_other h, h1]

theorem keepsObjs_effLinkEnable (l : Nat) (d : Dev) : KeepsObjs [(linkIx l, 2), (linkIx l, 9)] d (effLinkEnable l d) := by
  have h1 : KeepsObjs [(linkIx l, 2), (linkIx l, 9)] d (d.enabledLink l) := ((KeepsObjs.refl _ d).set (by simp) (by decide) 1).setLink l _
  by_cases h : d.linkState l = 7
  · rw [effLinkEnable_disabled h]
    exact (h1.enterLink (by simp) 0).setLink l _
  · rw [effLinkEnable_other h]
    exact h1

theorem effLinkEnable_eq (l : Nat) (d : Dev) :
    effLinkEnable l d = { d with objs := (effLinkEnable l d).objs, links := (effLinkEnable l d).links } := by
  by_cases h : d.linkState l = 7
  · rw [effLinkEnable_disabled h]; rfl
  · rw [effLinkEnable_other h]; rfl

/-! ## Accepting a new head -/

/-- The hold in IDENTIFY ends with the held head taken into use. -/
theorem effAcceptHead_held {l i : Nat} {d : Dev} (hs : d.linkState l = 2) (hi : (d.link l).held = some i) :
    effAcceptHead l d = d.acceptHead l i (d.link l).heldCaps := by
  simp [effAcceptHead, hs, hi]

/-- Without a hold nothing changes. -/
theorem effAcceptHead_unheld {l : Nat} {d : Dev} (h : d.linkState l ≠ 2 ∨ (d.link l).held = none) : effAcceptHead l d = d := by
  unfold effAcceptHead
  split
  · rename_i ident hs hi
    obtain hne | hnone := h
    · exact absurd hs hne
    · simp [hi] at hnone
  · rfl

/-- Settles O22: an admitted write has the effect of its sub-index, and the lemmas on each effect say what that leaves. -/
theorem linkWrites : Obligations.LinkWrites := by
  unfold Obligations.LinkWrites
  refine ⟨?disable, ?enable, ?accept, ?unheld, ?access⟩
  case disable =>
    intro s role l h
    refine completes_onDev (f := writeLink role l 9 0) rfl ?_
    rw [writeLink_done h, effLink_disable]
    exact ⟨rfl, enabled_effLinkDisable l s.dev, linkState_effLinkDisable l s.dev, generation_effLinkDisable l s.dev, by simp, by simp,
      (keepsObjs_effLinkDisable l s.dev).answer 0, congrArg (Dev.answer · 0) (effLinkDisable_eq l s.dev)⟩
  case enable =>
    intro s role l h
    refine completes_onDev (f := writeLink role l 9 1) rfl ?_
    rw [writeLink_done h, effLink_enable]
    exact ⟨rfl, enabled_effLinkEnable l s.dev, gen2Failed_effLinkEnable l s.dev, linkState_effLinkEnable l s.dev,
      (keepsObjs_effLinkEnable l s.dev).answer 0, congrArg (Dev.answer · 0) (effLinkEnable_eq l s.dev)⟩
  case accept =>
    intro s role l i h hs hi
    refine completes_onDev (f := writeLink role l 0xB 1) rfl ?_
    rw [writeLink_done h, effLink_accept, effAcceptHead_held hs hi]
    exact ⟨rfl, by simp, by simp, Dev.identity_acceptHead s.dev l i _, by simp,
      ((KeepsObjs.refl _ s.dev).acceptHead (by simp) (by simp) (by simp) _ _).answer 0,
      congrArg (Dev.answer · 0) (Dev.acceptHead_eq s.dev l i _)⟩
  case unheld =>
    intro s role l h hn
    refine completes_onDev (f := writeLink role l 0xB 1) rfl ?_
    rw [writeLink_done h, effLink_accept, effAcceptHead_unheld hn]
    rfl
  case access =>
    intro s role l v h
    refine completes_onDev (f := writeLink role l 0xC v) rfl ?_
    rw [writeLink_done h, effLink_access]
    exact ⟨by simp, rfl⟩

end Sys2Proof.Machine
end

section
/-! SUPPORT. Frames of a vehicle on their way to the host (18 R528), and the record of an outlet (chapter 10). -/
namespace Sys2Proof.Machine

open Sys2Proof

/-- A second write at a key overwrites the first. -/
@[simp] theorem tset_tset {α : Type} (t : Tab α) (k : Nat) (a b : α) : tset (tset t k a) k b = tset t k b := by
  induction t with
  | nil => simp [tset]
  | cons e r ih =>
    obtain ⟨q, w⟩ := e
    by_cases h : k = q
    · simp [tset, h]
    · by_cases hlt : k < q <;> simp [tset, h, hlt, ih]

/-! ## The record of an outlet -/

@[simp] theorem Dev.out_setOut (d : Dev) (o : Nat) (r : OutRec) : (d.setOut o r).out o = r := tget_tset_same _ _ _ _

theorem Dev.out_setOut_ne (d : Dev) (o : Nat) (r : OutRec) {p : Nat} (h : p ≠ o) : (d.setOut o r).out p = d.out p :=
  tget_tset_ne _ _ _ _ _ h.symm

@[simp] theorem Dev.setOut_setOut (d : Dev) (o : Nat) (r r' : OutRec) : (d.setOut o r).setOut o r' = d.setOut o r' := by
  simp [Dev.setOut]

@[simp] theorem Dev.stepIn_setOut (d : Dev) (o : Nat) (r : OutRec) (p a b : Nat) : (d.setOut o r).stepIn p a b = d.stepIn p a b := rfl

/-- An end asked for, over a record just set. -/
theorem Dev.askEnd_setOut (d : Dev) (o : Nat) (r : OutRec) (n : Nat) :
    (d.setOut o r).askEnd o n = d.setOut o { r with ask := setBit r.ask n true } := by
  simp [Dev.askEnd]

/-- A record set, and the end asked for by the vehicle where the outlet is in steps 2 to 6 and `b` holds. -/
theorem Dev.setOut_when_askEnd (d : Dev) (o : Nat) (r : OutRec) (n : Nat) (b : Bool) :
    (d.setOut o r).when b (fun d => d.askEnd o n) = d.setOut o { r with ask := if b = true then setBit r.ask n true else r.ask } := by
  cases b with
  | false => rfl
  | true => exact Dev.askEnd_setOut d o r n

/-- A link loss asks for the end with reason 3 and lets the setpoint fall (10 R331). -/
theorem linkLost_eq (o : Nat) (d : Dev) :
    linkLost o d = d.setOut o { d.out o with ask := setBit (d.out o).ask 3 true, linkLoss := true } := by
  simp [linkLost, Dev.askEnd]

/-! ## The frame buffer -/

/-- Where the bytes fit, no frame is dropped. -/
theorem dropOldest_fits {o n : Nat} {d : Dev} (h : d.frameBytes o + n ≤ Config.frameShare) (f : Nat) : dropOldest f o n d = d := by
  cases f with
  | zero => rfl
  | succ f =>
    unfold dropOldest
    dsimp only
    split
    · exact if_pos h
    · rfl

/-- The part with the waiting frame `r` of outlet `o` dropped and counted. -/
def Dev.dropFrame (d : Dev) (o : Nat) (r : StreamRec) : Dev :=
  let c : VcRec := tget {} d.vcs 4
  { d with vcs := tset d.vcs 4 { c with out := c.out.erase r } }.satInc 32 (0x2510 + o) 0xC 1

theorem Dev.keepsObjs_dropFrame (d : Dev) (o : Nat) (r : StreamRec) : KeepsObjs [(0x2510 + o, 0xC)] d (d.dropFrame o r) :=
  ((KeepsObjs.refl _ d).of_objs_eq rfl).set (by simp) (by decide) _

/-- A step of the loop: nothing, or the oldest frame of the outlet dropped. -/
theorem dropOldest_succ (f o n : Nat) (d : Dev) : dropOldest (f + 1) o n d = d ∨ ∃ r, dropOldest (f + 1) o n d = dropOldest f o n (d.dropFrame o r) := by
  simp only [dropOldest]
  split
  · split
    · exact .inl rfl
    · exact .inr ⟨_, rfl⟩
  · exact .inl rfl

/-- Dropping frames counts them and takes them off the channel, and no more. -/
theorem dropOldest_eq (f o n : Nat) (d : Dev) :
    dropOldest f o n d = { d with objs := (dropOldest f o n d).objs, vcs := (dropOldest f o n d).vcs } := by
  induction f generalizing d with
  | zero => rfl
  | succ f ih =>
    obtain h | ⟨r, h⟩ := dropOldest_succ f o n d
    · rw [h]
    · rw [h, ih (d.dropFrame o r)]
      rfl

theorem keepsObjs_dropOldest (f o n : Nat) (d : Dev) : KeepsObjs [(0x2510 + o, 0xC)] d (dropOldest f o n d) := by
  induction f generalizing d with
  | zero => exact KeepsObjs.refl _ d
  | succ f ih =>
    obtain h | ⟨r, h⟩ := dropOldest_succ f o n d
    · rw [h]
      exact KeepsObjs.refl _ d
    · rw [h]
      exact (d.keepsObjs_dropFrame o r).trans (ih (d.dropFrame o r))

/-- A frame on its way to the host changes the count of dropped frames and the streams. -/
theorem Dev.toHost_eq (d : Dev) (o w : Nat) (b : Bytes) : d.toHost o w b = { d with objs := (d.toHost o w b).objs, vcs := (d.toHost o w b).vcs } := by
  unfold Dev.toHost
  rw [Dev.stream_eq, dropOldest_eq]

theorem Dev.keepsObjs_toHost (d : Dev) (o w : Nat) (b : Bytes) : KeepsObjs [(0x2510 + o, 0xC)] d (d.toHost o w b) := by
  intro ix sub hs hm
  unfold Dev.toHost
  rw [Dev.get_stream]
  exact keepsObjs_dropOldest _ o _ d ix sub hs hm

@[simp] theorem Dev.out_toHost (d : Dev) (o w : Nat) (b : Bytes) (p : Nat) : (d.toHost o w b).out p = d.out p := by
  rw [Dev.toHost_eq]; rfl

@[simp] theorem Dev.effTick_toHost (d : Dev) (o w : Nat) (b : Bytes) : (d.toHost o w b).effTick = d.now + 1 := by
  rw [Dev.toHost_eq]; rfl

/-- The objects of an outlet are not those of the frame buffer. -/
theorem Dev.get_toHost_outlet (d : Dev) (o w : Nat) (b : Bytes) (p k sub : Nat) (hs : sub < 256) (hk : sub ≠ 0xC) :
    (d.toHost o w b).get (outletIx p + k) sub = d.get (outletIx p + k) sub :=
  d.keepsObjs_toHost o w b _ sub hs (by simp [hk])

@[simp] theorem Dev.step_toHost (d : Dev) (o w : Nat) (b : Bytes) (p : Nat) : (d.toHost o w b).step p = d.step p :=
  d.get_toHost_outlet o w b p 3 1 (by decide) (by decide)

@[simp] theorem Dev.stepIn_toHost (d : Dev) (o w : Nat) (b : Bytes) (p x y : Nat) : (d.toHost o w b).stepIn p x y = d.stepIn p x y := by
  simp only [Dev.stepIn, Dev.step_toHost]

@[simp] theorem Dev.code_toHost (d : Dev) (o w : Nat) (b : Bytes) (p : Nat) : (d.toHost o w b).code p = d.code p := by
  have hconf : (d.toHost o w b).get (outletIx p) 1 = d.get (outletIx p) 1 := d.get_toHost_outlet o w b p 0 1 (by decide) (by decide)
  simp only [Dev.code, Dev.step_toHost, Dev.out_toHost, hconf]

section
variable {d : Dev} {o : Nat} {b : Bytes}

/-- A frame that fits goes behind those that wait. -/
theorem Dev.toHost_fits (w : Nat) (h : d.frameBytes o + b.length ≤ Config.frameShare) : d.toHost o w b = d.stream 4 ⟨0x40, w, b⟩ := by
  unfold Dev.toHost
  rw [dropOldest_fits h]

/-- The bytes that wait for an outlet after its oldest frame is dropped. -/
theorem Dev.frameBytes_dropFrame {r : StreamRec} {rest : List StreamRec} (hout : (tget {} d.vcs 4).out = r :: rest) (hw : r.word % 256 = o) :
    (d.dropFrame o r).frameBytes o = d.frameBytes o - r.payload.length := by
  have hrest : (tget {} (d.dropFrame o r).vcs 4).out = rest := by simp [Dev.dropFrame, Dev.satInc, hout]
  unfold Dev.frameBytes
  rw [hrest, hout]
  simp [hw, sumN_cons]

/-- Where a frame does not fit until the oldest of its outlet is dropped, that one is dropped. -/
theorem Dev.toHost_drops (w : Nat) {r : StreamRec} {rest : List StreamRec} (hout : (tget {} d.vcs 4).out = r :: rest) (hty : r.ty = 0x40)
    (hw : r.word % 256 = o) (hfull : Config.frameShare < d.frameBytes o + b.length)
    (hfits : d.frameBytes o - r.payload.length + b.length ≤ Config.frameShare) :
    d.toHost o w b = (d.dropFrame o r).stream 4 ⟨0x40, w, b⟩ := by
  have hfind : (tget {} d.vcs 4).out.find? (fun x => x.ty == 0x40 && x.word % 256 == o) = some r := by simp [hout, hty, hw]
  have hstep : dropOldest (rest.length + 1) o b.length d = dropOldest rest.length o b.length (d.dropFrame o r) := by
    rw [dropOldest]
    simp only [hfind]
    exact if_neg (Nat.not_le.mpr hfull)
  unfold Dev.toHost
  rw [hout, List.length_cons, hstep, dropOldest_fits (by rw [Dev.frameBytes_dropFrame hout hw]; exact hfits)]

end

end Sys2Proof.Machine
end

section
/-! Vehicle frames (10 R318 to R323, R331): what each command does where its condition holds. -/
namespace Sys2Proof.Machine

open Sys2Proof

/-! ## Ethernet -/

theorem Dev.running_of_etherOpen {d : Dev} {o : Nat} (h : d.etherOpen o = true) : d.running = true := by
  simp only [Dev.etherOpen, Bool.and_eq_true] at h
  exact h.1.1

theorem vehicleEthernet_closed {d : Dev} {o : Nat} (h : d.etherOpen o = false) (b : Bytes) : vehicleEthernet o b d = d :=
  Dev.when_neg h _ d

theorem vehicleEthernet_open {d : Dev} {o : Nat} (h : d.etherOpen o = true) (b : Bytes) :
    vehicleEthernet o b d = (d.setOut o { d.out o with frameAt := d.now + 1 }).toHost o o b :=
  Dev.when_pos h _ d

/-! ## Losses -/

section
variable {d : Dev} {o : Nat} (hr : d.running = true)
include hr

theorem vehicleTimeout_loses (hc : (2 ≤ d.code o ∧ d.code o ≤ 4) ∨ d.code o = 7) (hs : d.stepIn o 2 6 = true) (hp : d.pausing 1 = false)
    (ht : (d.out o).frameAt + 320000 ≤ d.now + 1) :
    vehicleTimeout o d = d.setOut o { d.out o with ask := setBit (d.out o).ask 3 true, linkLoss := true } :=
  (Dev.when_pos (by simp [hr, hc, hs, hp, ht, Dev.effTick]) _ d).trans (linkLost_eq o d)

theorem canTimeout_loses (hc : d.code o = 5 ∨ d.code o = 6) (hs : d.stepIn o 2 6 = true) (hp : d.pausing 1 = false)
    (ht : (d.out o).reqAt + 32 * d.get (outletIx o + 6) 0xA ≤ d.now + 1) :
    canTimeout o d = d.setOut o { d.out o with ask := setBit (d.out o).ask 3 true, linkLoss := true } :=
  (Dev.when_pos (by simp [hr, hc, hs, hp, ht, Dev.effTick]) _ d).trans (linkLost_eq o d)

theorem ceLow_asks (hc : d.code o = 7) (hs : d.stepIn o 5 6 = true) (hl : d.pilotSample o < d.get (outletIx o + 4) 8) :
    ceLow o d = d.setOut o { d.out o with ask := setBit (d.out o).ask 2 true } :=
  Dev.when_pos (by simp [hr, hc, hs, hl]) _ d

end

/-! ## CAN -/

/-- A CAN frame with its identifier as the host gets it. -/
def canPayload (id : Nat) (b : Bytes) : Bytes := natLE 4 id ++ natLE 1 b.length ++ zeros 3 ++ b

section
variable {d : Dev} {o : Nat} (b : Bytes)

theorem Dev.canOpen_of_code (hr : d.running = true) (ht : d.tunnel o = true) (hc : d.code o = 5 ∨ d.code o = 6) : d.canOpen o = true := by
  simp [Dev.canOpen, hr, ht, hc]

theorem Dev.running_of_canOpen (h : d.canOpen o = true) : d.running = true := by
  simp only [Dev.canOpen, Bool.and_eq_true] at h
  exact h.1.1

/-- A frame of the base format other than CHAdeMO's 0x102 is not decoded. -/
theorem vehicleCan_plain (h : d.canOpen o = true) {id : Nat} (hid : id < 0x800) (h102 : id ≠ 0x102) :
    vehicleCan o id b d = d.toHost o (o + 256) (canPayload id b) := by
  have hbase : id.testBit 31 = false := Nat.testBit_lt_two_pow (by omega)
  refine (Dev.when_pos h _ d).trans ?_
  simp [h102, hbase, canPayload]

theorem vehicleCan_chademo (h : d.canOpen o = true) (hc : d.code o = 5) :
    vehicleCan o 0x102 b d = decodeChademo o b (d.toHost o (o + 256) (canPayload 0x102 b)) := by
  refine (Dev.when_pos h _ d).trans ?_
  simp [hc, canPayload]

theorem vehicleCan_bcl (h : d.canOpen o = true) (hc : d.code o = 6) :
    vehicleCan o 0x981056F4 b d = decodeBcl o b (d.toHost o (o + 256) (canPayload 0x981056F4 b)) := by
  refine (Dev.when_pos h _ d).trans ?_
  have hid : (Nat.testBit 0x981056F4 31 && decide (field 0x981056F4 16 8 = 0x10)) = true := by decide
  simp only [Dev.code_toHost, hc, hid, if_true]
  rfl

theorem vehicleCan_bst (h : d.canOpen o = true) (hc : d.code o = 6) :
    vehicleCan o 0x901956F4 b d = decodeBst o (d.toHost o (o + 256) (canPayload 0x901956F4 b)) := by
  refine (Dev.when_pos h _ d).trans ?_
  have hbcl : (Nat.testBit 0x901956F4 31 && decide (field 0x901956F4 16 8 = 0x10)) = false := by decide
  have hid : (Nat.testBit 0x901956F4 31 && decide (field 0x901956F4 16 8 = 0x19)) = true := by decide
  simp only [Dev.code_toHost, hc, hbcl, hid, if_true]
  rfl

end

/-- The request that CHAdeMO frame 0x102 carries (log entry 20). -/
def chademoRequest (r : OutRec) (t : Nat) (b : Bytes) : OutRec :=
  { r with reqV := 16 * leAt b 1 2, reqI := 16 * byteAt b 3, reqOn := (byteAt b 5).testBit 0, reqAt := t }

/-- The frame sets the request; a permission withdrawn asks for the end with reason 2. -/
theorem decodeChademo_eq (o : Nat) (b : Bytes) (d : Dev) :
    decodeChademo o b d = d.setOut o { chademoRequest (d.out o) d.effTick b with
      ask := if ((d.out o).reqOn && !(byteAt b 5).testBit 0 && d.stepIn o 2 6) = true then setBit (d.out o).ask 2 true else (d.out o).ask } :=
  Dev.setOut_when_askEnd d o (chademoRequest (d.out o) d.effTick b) 2 _

/-- BST withdraws the request and asks for the end with reason 2. -/
theorem decodeBst_eq (o : Nat) (d : Dev) :
    decodeBst o d = d.setOut o { d.out o with
      reqOn := false, reqAt := d.effTick, ask := if d.stepIn o 2 6 = true then setBit (d.out o).ask 2 true else (d.out o).ask } :=
  Dev.setOut_when_askEnd d o { d.out o with reqOn := false, reqAt := d.effTick } 2 (d.stepIn o 2 6)

/-- Settles O36: the frame buffer's loop drops nothing where a frame fits and the oldest where that makes room; each command sets the record of
its outlet by the equation of its meaning. -/
theorem vehicleFrames : Obligations.VehicleFrames := by
  unfold Obligations.VehicleFrames
  refine ⟨?ether, ?buffer, ?linkTimeout, ?plain, ?chademo, ?bcl, ?bst, ?canTimeout, ?ceLow⟩
  case ether =>
    intro s o b
    refine ⟨fun h => completes_onDev (f := fun d => d.when d.running (vehicleEthernet o b)) rfl ?_,
      fun h => completes_onRun rfl (Dev.running_of_etherOpen h) (vehicleEthernet_open h b)⟩
    cases hr : s.dev.running with
    | false => simp
    | true => simp [vehicleEthernet_closed h b]
  case buffer =>
    intro d o w b hen
    refine ⟨fun h => ?_, fun r rest hout hty hw hfull hfits => ?_⟩
    · rw [Dev.toHost_fits w h]
      exact ⟨Dev.stream_out d 4 _ hen, fun v hv => Dev.stream_ne d 4 _ v hv.symm, Dev.stream_eq d 4 _⟩
    · have hkeeps := d.keepsObjs_toHost o w b
      have heq := d.toHost_eq o w b
      have hto := Dev.toHost_drops w hout hty hw hfull hfits
      refine ⟨?_, ?_, hkeeps, heq⟩
      · have hen' : (d.dropFrame o r).get 0x261C 1 = 1 := (d.keepsObjs_dropFrame o r 0x261C 1 (by decide) (by simp)).trans hen
        rw [hto, Dev.stream_out _ 4 _ hen']
        simp [Dev.dropFrame, Dev.satInc, hout]
      · rw [hto, Dev.get_stream]
        exact Dev.get_satInc_same _ _ _ _ _
  case linkTimeout =>
    exact fun s o hr hc hs hp ht => completes_onRun rfl hr (vehicleTimeout_loses hr hc hs hp ht)
  case plain =>
    exact fun s o id b h hid h102 => completes_onRun rfl (Dev.running_of_canOpen h) (vehicleCan_plain b h hid h102)
  case chademo =>
    intro s o b hr hc ht
    refine completes_onRun (f := fun d => d.when (d.code o == 5) (vehicleCan o 0x102 b)) rfl hr ?_
    rw [Dev.when_pos (beq_iff_eq.mpr hc), vehicleCan_chademo b (Dev.canOpen_of_code hr ht (.inl hc)) hc, decodeChademo_eq]
    refine ⟨by simp [chademoRequest], by simp [chademoRequest], by simp [chademoRequest], by simp [chademoRequest], ?_, fun p hp => ?_, rfl⟩
    · simp [and_assoc]
    · rw [Dev.out_setOut_ne _ _ _ hp, Dev.out_toHost]
  case bcl =>
    intro s o b hr hc ht
    refine completes_onRun (f := fun d => d.when (d.code o == 6) (vehicleCan o 0x981056F4 b)) rfl hr ?_
    rw [Dev.when_pos (beq_iff_eq.mpr hc), vehicleCan_bcl b (Dev.canOpen_of_code hr ht (.inr hc)) hc, decodeBcl]
    refine ⟨by simp, by simp, by simp, by simp, by simp, fun p hp => ?_, rfl⟩
    rw [Dev.out_setOut_ne _ _ _ hp, Dev.out_toHost]
  case bst =>
    intro s o b hr hc ht
    refine completes_onRun (f := fun d => d.when (d.code o == 6) (vehicleCan o 0x901956F4 b)) rfl hr ?_
    rw [Dev.when_pos (beq_iff_eq.mpr hc), vehicleCan_bst b (Dev.canOpen_of_code hr ht (.inr hc)) hc, decodeBst_eq]
    simp only [Dev.out_toHost, Dev.effTick_toHost, Dev.stepIn_toHost]
    rfl
  case canTimeout =>
    exact fun s o hr hc hs hp ht => completes_onRun rfl hr (canTimeout_loses hr hc hs hp ht)
  case ceLow =>
    exact fun s o hr hc hs hl => completes_onRun rfl hr (ceLow_asks hr hc hs hl)

end Sys2Proof.Machine
end

section
/-! SUPPORT. What a metrology event leaves to be said of the updates after it, and the byte strings that a chain of updates keeps. -/
namespace Sys2Proof.Machine

open Sys2Proof

theorem KeepsObjs.mono {but but' : List (Nat × Nat)} {d e : Dev} (h : KeepsObjs but d e) (hm : but ⊆ but') : KeepsObjs but' d e :=
  fun ix sub hs hn => h ix sub hs fun hx => hn (hm hx)

/-- Two objects of different indices. -/
theorem okey_ne_of_ix {ix sub ix' sub' : Nat} (h : ix ≠ ix') (hs : sub < 256) (hs' : sub' < 256) : okey ix sub ≠ okey ix' sub' :=
  fun hk => h ((okey_inj hs hs').mp hk).1

/-! ## Kept byte strings -/

theorem KeepsBlobs.refl (but : List (Nat × Nat)) (d : Dev) : KeepsBlobs but d d := fun _ _ _ _ _ => rfl

section
variable {but : List (Nat × Nat)} {d e : Dev} (h : KeepsBlobs but d e)
include h

/-- An update that leaves the store of byte strings alone. -/
theorem KeepsBlobs.of_blobs_eq {f : Dev} (hb : f.blobs = e.blobs) : KeepsBlobs but d f := fun ix sub hs hm hl => by
  have hf : f.getB ix sub = e.getB ix sub := by simp only [Dev.getB, hb]
  exact hf.trans (h ix sub hs hm hl)

theorem KeepsBlobs.setB {ix sub : Nat} (hm : (ix, sub) ∈ but) (hs : sub < 256) (v : Bytes) : KeepsBlobs but d (e.setB ix sub v) :=
  fun ix' sub' hs' hn hl => (Dev.getB_setB_ne _ _ _ _ _ _ (okey_ne_of_mem hm hs hs' hn)).trans (h ix' sub' hs' hn hl)

end

/-- Where the statement leaves the byte strings open, the fields alone say that no more than a log differs. -/
theorem onlyLogged_of_eq {d e : Dev} (he : e = { d with objs := e.objs, blobs := e.blobs, log := e.log, vcs := e.vcs })
    (hb : e.blobs = d.blobs) : OnlyLogged d e :=
  ⟨he, (KeepsBlobs.refl [] d).of_blobs_eq hb⟩

/-! ## One metrology event -/

/-- `f` is the part `d` with one more entry in the metrology event log. -/
def EventLogged (d f : Dev) : Prop := ∃ t code role cont subject data, f = d.eventEntry t code role cont subject data

theorem Dev.eventLogged_eventEff (d : Dev) (code role subject : Nat) (before after : Bytes) :
    EventLogged d (d.eventEff code role subject before after) :=
  ⟨_, _, _, _, _, _, rfl⟩

/-- Data that fits an entry needs no continuation (08 R280). -/
theorem Dev.eventLogged_eventDataEff (d : Dev) (code role subject : Nat) {data : Bytes} (h : data.length ≤ 32) :
    EventLogged d (d.eventDataEff code role subject data) := by
  refine ⟨d.effTick, code, role, b2n (decide (32 < data.length)), subject, data.take 32, ?_⟩
  simp [Dev.eventDataEff, Dev.eventDataAt, eventMore, List.drop_eq_nil_of_le h]

section
variable {d f : Dev} (h : EventLogged d f)
include h

theorem EventLogged.parts : ∃ o b l v, f = { d with objs := o, blobs := b, log := l, vcs := v } := by
  obtain ⟨t, code, role, cont, subject, data, rfl⟩ := h
  exact ⟨_, _, _, _, d.eventEntry_eq t code role cont subject data⟩

theorem EventLogged.effTick : f.effTick = d.now + 1 := by
  obtain ⟨o, b, l, v, rfl⟩ := h.parts
  rfl

theorem EventLogged.keepsBlobs (but : List (Nat × Nat)) : KeepsBlobs but d f := by
  obtain ⟨t, code, role, cont, subject, data, rfl⟩ := h
  exact keepsBlobs_eventEntry but d t code role cont subject data

theorem EventLogged.keepsObjs : KeepsObjs eventObjs d f := by
  obtain ⟨t, code, role, cont, subject, data, rfl⟩ := h
  exact (KeepsObjs.refl _ d).eventEntry (List.Subset.refl _) t code role cont subject data

/-- The objects that an event and the updates after it may change. -/
theorem EventLogged.keepsObjs_then {but : List (Nat × Nat)} {e : Dev} (he : KeepsObjs but f e) : KeepsObjs (but ++ eventObjs) d e :=
  (h.keepsObjs.mono (List.subset_append_right _ _)).trans (he.mono (List.subset_append_left _ _))

/-- The number of the event stands after updates that do not touch it. -/
theorem EventLogged.number_then {but : List (Nat × Nat)} {e : Dev} (he : KeepsObjs but f e) (hn : (0x4D40, 1) ∉ but) :
    e.get 0x4D40 1 = d.get 0x4D40 1 + 1 := by
  obtain ⟨t, code, role, cont, subject, data, rfl⟩ := h
  exact (he _ _ (by decide) hn).trans (d.eventEntry_number t code role cont subject data)

end

end Sys2Proof.Machine
end

section
/-! Writes to the filter chain (chapter 04): channels, coefficient banks, profiles and lock groups. -/
namespace Sys2Proof.Machine

open Sys2Proof

/-! ## Channels (04 R119, R153) -/

/-- Where a capture is aborted, its status, its results and its record change (06 R209). -/
theorem captureAbort_parts (c : Nat) (d : Dev) : ∃ o b k, captureAbort c d = { d with objs := o, blobs := b, cals := k } := by
  unfold captureAbort Dev.when
  dsimp only
  split
  · exact ⟨_, _, _, rfl⟩
  · exact ⟨_, _, _, rfl⟩

theorem KeepsObjs.captureAbort {but : List (Nat × Nat)} {d e : Dev} (h : KeepsObjs but d e) {c : Nat} (hm : (0x3600 + c, 0xE) ∈ but) :
    KeepsObjs but d (captureAbort c e) := by
  unfold Machine.captureAbort Dev.when
  dsimp only
  split
  · exact (h.set hm (by decide) _).of_objs_eq rfl
  · exact h

theorem KeepsBlobs.captureAbort {but : List (Nat × Nat)} {d e : Dev} (h : KeepsBlobs but d e) {c : Nat} (hm : (0x3600 + c, 0xF) ∈ but) :
    KeepsBlobs but d (captureAbort c e) := by
  unfold Machine.captureAbort Dev.when
  dsimp only
  split
  · exact ((h.of_blobs_eq rfl).setB hm (by decide) _).of_blobs_eq rfl
  · exact h

/-- The part with a value of channel `c` written and its filter state marked for discard. -/
def Dev.chanWritten (d : Dev) (c sub v : Nat) : Dev := (d.set (0x3000 + c) sub v).setChan c { d.chan c with changed := true }

/-- A write to a channel logs its event, takes the value and ends a capture. -/
theorem effChan_steps (role : Role) (c sub v : Nat) (d : Dev) :
    ∃ f, EventLogged d f ∧ effChan role c sub v d = captureAbort c (f.chanWritten c sub v) :=
  ⟨_, d.eventLogged_eventEff _ _ _ _ _, rfl⟩

section
variable {c sub : Nat} (hs : sub < 256) (v : Nat) (d : Dev)

include hs in
theorem Dev.keepsObjs_chanWritten :
    KeepsObjs [(0x3000 + c, sub), (0x3600 + c, 0xE)] d (captureAbort c (d.chanWritten c sub v)) :=
  have hw : KeepsObjs [(0x3000 + c, sub), (0x3600 + c, 0xE)] d (d.chanWritten c sub v) :=
    ((KeepsObjs.refl _ d).set (by simp) hs v).of_objs_eq rfl
  hw.captureAbort (by simp)

include hs in
theorem Dev.get_chanWritten : (captureAbort c (d.chanWritten c sub v)).get (0x3000 + c) sub = v := by
  have hk : KeepsObjs [(0x3600 + c, 0xE)] (d.chanWritten c sub v) (captureAbort c (d.chanWritten c sub v)) :=
    (KeepsObjs.refl _ _).captureAbort (by simp)
  have hn : (0x3000 + c, sub) ∉ [(0x3600 + c, 0xE)] := by simp
  exact (hk _ _ hs hn).trans (Dev.get_set_same d _ _ v)

theorem Dev.changed_chanWritten : ((captureAbort c (d.chanWritten c sub v)).chan c).changed = true := by
  obtain ⟨o, b, k, h⟩ := captureAbort_parts c (d.chanWritten c sub v)
  rw [h]
  exact congrArg ChanRec.changed (tget_tset_same _ _ _ _)

end

/-- Beyond the records of channels and of calibration, a write to a channel writes the metrology event log alone. -/
theorem onlyLogged_effChan (role : Role) (c sub v : Nat) (d : Dev) :
    let e := (effChan role c sub v d).answer 0
    OnlyLogged { d with chans := e.chans, cals := e.cals, blobs := e.blobs, status := 0 } e := by
  obtain ⟨f, hf, he⟩ := effChan_steps role c sub v d
  obtain ⟨o, b, l, w, rfl⟩ := hf.parts
  obtain ⟨o', b', k, ha⟩ := captureAbort_parts c (Dev.chanWritten { d with objs := o, blobs := b, log := l, vcs := w } c sub v)
  rw [he, ha]
  exact onlyLogged_of_eq rfl rfl

/-! ## Coefficient banks (04 R131, R132, R158) -/

/-- A write to a bank logs its event and takes the bytes and their CRC. -/
theorem effBank_steps (role : Role) (p t b : Nat) (v : Bytes) (d : Dev) :
    ∃ f, EventLogged d f
      ∧ effBank role p t b v d = (f.setB (0x3400 + p * 16 + t * 2 + b) 0 v).set (0x3480 + p) (3 + 2 * t + b) (crc32 v) :=
  ⟨_, d.eventLogged_eventEff _ _ _ _ _, rfl⟩

section
variable (role : Role) (p t b : Nat) (v : Bytes) (d : Dev)

theorem getB_effBank : (effBank role p t b v d).getB (0x3400 + p * 16 + t * 2 + b) 0 = v := Dev.getB_setB_same _ _ _ v

theorem crc_effBank : (effBank role p t b v d).get (0x3480 + p) (3 + 2 * t + b) = crc32 v := Dev.get_set_same _ _ _ _

theorem number_effBank (hp : p < 4) (hs : 3 + 2 * t + b < 256) : (effBank role p t b v d).get 0x4D40 1 = d.get 0x4D40 1 + 1 := by
  obtain ⟨f, hf, he⟩ := effBank_steps role p t b v d
  have hn : (0x4D40, 1) ∉ [(0x3480 + p, 3 + 2 * t + b)] := by simp; omega
  rw [he]
  exact hf.number_then (KeepsObjs.set ((KeepsObjs.refl _ f).of_objs_eq rfl) (by simp) hs _) hn

theorem keepsObjs_effBank (hs : 3 + 2 * t + b < 256) :
    KeepsObjs ([(0x3480 + p, 3 + 2 * t + b)] ++ eventObjs) d (effBank role p t b v d) := by
  obtain ⟨f, hf, he⟩ := effBank_steps role p t b v d
  rw [he]
  exact hf.keepsObjs_then (KeepsObjs.set ((KeepsObjs.refl _ f).of_objs_eq rfl) (by simp) hs _)

theorem keepsBlobs_effBank : KeepsBlobs [(0x3400 + p * 16 + t * 2 + b, 0)] d (effBank role p t b v d) := by
  obtain ⟨f, hf, he⟩ := effBank_steps role p t b v d
  rw [he]
  exact ((hf.keepsBlobs _).setB (by simp) (by decide) v).of_blobs_eq rfl

/-- A write to a bank writes its bytes and the metrology event log. -/
theorem onlyLogged_effBank :
    let e := (effBank role p t b v d).answer 0
    OnlyLogged { d with blobs := e.blobs, status := 0 } e := by
  obtain ⟨f, hf, he⟩ := effBank_steps role p t b v d
  obtain ⟨o, x, l, w, rfl⟩ := hf.parts
  rw [he]
  exact onlyLogged_of_eq rfl rfl

end

/-- A mask of one bit names one number. -/
theorem bitsOf_two_pow : ∀ t : Fin 4, bitsOf 4 (2 ^ t.val) = [t.val] := by decide

/-- The defaults of one stage are written as a write to its inactive bank would be. -/
theorem effDefaults_stage (role : Role) (p : Nat) (t : Fin 4) (d : Dev) :
    let b := 1 - ((d.get (0x3480 + p) 1).testBit t).toNat
    effDefaults role p (2 ^ t.val) d = effBank role p t b (blobDefault (0x3400 + p * 16 + t * 2 + b) 0) d := by
  unfold effDefaults
  rw [bitsOf_two_pow]
  rfl

/-! ## The swap of banks (04 R135, R137) -/

/-- The CRCs that a swap's event names, four bytes for each stage, fit one entry. -/
theorem swapData_fits (m : Nat) (v : Bytes) :
    (natLE 4 m ++ (List.range 4).flatMap fun s => if m.testBit s then sliceB v (4 + 4 * s) 4 else zeros 4).length ≤ 32 := by
  have hlen : ∀ s, (if m.testBit s then sliceB v (4 + 4 * s) 4 else zeros 4).length = 4 := fun s => by
    split
    · exact sliceB_length _ _ _
    · rfl
  have hsum : (natLE 4 m ++ (List.range 4).flatMap fun s => if m.testBit s then sliceB v (4 + 4 * s) 4 else zeros 4).length
      = 4 + ((List.range 4).map fun _ => 4).sum := by
    simp only [List.length_append, natLE_length, List.length_flatMap, hlen]
  rw [hsum]
  decide

/-- The part with a swap of profile `p` counted, its tick of effect recorded and EV22 raised. -/
def Dev.swapCounted (d : Dev) (p : Nat) : Dev := ((d.inc (0x3480 + p) 0xB).set (0x3480 + p) 0xC d.effTick).raiseEv 22

/-- A swap flips the bits named, logs its event and is counted. -/
theorem effSwap_steps (role : Role) (p : Nat) (v : Bytes) (d : Dev) :
    ∃ f, EventLogged (d.set (0x3480 + p) 1 (d.get (0x3480 + p) 1 ^^^ (byteAt v 0 % 16))) f ∧ effSwap role p v d = f.swapCounted p :=
  ⟨_, Dev.eventLogged_eventDataEff _ _ _ _ (swapData_fits _ v), rfl⟩

section
variable (d : Dev) (p : Nat)

theorem Dev.keepsObjs_swapCounted : KeepsObjs [(0x3480 + p, 0xB), (0x3480 + p, 0xC), evObj 22] d (d.swapCounted p) :=
  (((KeepsObjs.refl _ d).set (by simp) (by decide) _).set (by simp) (by decide) _).raiseEv (by simp) (by decide)

theorem Dev.evPending_swapCounted : (d.swapCounted p).evPending 22 = true :=
  (Dev.evPending_raiseEv _ 22 22 (by decide) (by decide)).trans (if_pos rfl)

theorem Dev.tick_swapCounted (hp : p < 4) : (d.swapCounted p).get (0x3480 + p) 0xC = d.effTick :=
  (Dev.get_raiseEv_ne _ 22 _ _ (okey_ne_of_ix (by omega) (by decide) (by decide))).trans (Dev.get_set_same _ _ _ _)

theorem Dev.count_swapCounted (hp : p < 4) : (d.swapCounted p).get (0x3480 + p) 0xB = satAdd 32 (d.get (0x3480 + p) 0xB) 1 := by
  refine (Dev.get_raiseEv_ne _ 22 _ _ (okey_ne_of_ix (by omega) (by decide) (by decide))).trans ?_
  exact (Dev.get_set_ne _ _ _ _ _ _ (okey_ne_of_sub _ (by decide))).trans (Dev.get_satInc_same d 32 _ _ 1)

end

section
variable (role : Role) {p : Nat} (hp : p < 4) (v : Bytes) (d : Dev)
include hp

/-- The bits of the active banks that a swap names are flipped, and no other. -/
theorem activeBanks_effSwap (j : Nat) :
    (effSwap role p v d).bitO (0x3480 + p) 1 j = (d.bitO (0x3480 + p) 1 j ^^ (byteAt v 0 % 16).testBit j) := by
  obtain ⟨f, hf, he⟩ := effSwap_steps role p v d
  have hkeep := hf.keepsObjs_then (f.keepsObjs_swapCounted p) (0x3480 + p) 1 (by decide) (by simp [evObj, eventObjs]; omega)
  have hflip : (f.swapCounted p).get (0x3480 + p) 1 = d.get (0x3480 + p) 1 ^^^ (byteAt v 0 % 16) := hkeep.trans (Dev.get_set_same _ _ _ _)
  rw [he]
  exact (congrArg (Nat.testBit · j) hflip).trans (Nat.testBit_xor _ _ j)

theorem count_effSwap : (effSwap role p v d).get (0x3480 + p) 0xB = satAdd 32 (d.get (0x3480 + p) 0xB) 1 := by
  obtain ⟨f, hf, he⟩ := effSwap_steps role p v d
  have hold : f.get (0x3480 + p) 0xB = d.get (0x3480 + p) 0xB :=
    (hf.keepsObjs _ 0xB (by decide) (by simp [eventObjs])).trans (Dev.get_set_ne _ _ _ _ _ _ (okey_ne_of_sub _ (by decide)))
  rw [he, f.count_swapCounted p hp, hold]

theorem tick_effSwap : (effSwap role p v d).get (0x3480 + p) 0xC = d.now + 1 := by
  obtain ⟨f, hf, he⟩ := effSwap_steps role p v d
  rw [he, f.tick_swapCounted p hp]
  exact hf.effTick

theorem number_effSwap : (effSwap role p v d).get 0x4D40 1 = d.get 0x4D40 1 + 1 := by
  obtain ⟨f, hf, he⟩ := effSwap_steps role p v d
  have hn : (0x4D40, 1) ∉ [(0x3480 + p, 0xB), (0x3480 + p, 0xC), evObj 22] := by simp [evObj]
  rw [he, hf.number_then (f.keepsObjs_swapCounted p) hn, Dev.get_set_ne _ _ _ _ _ _ (okey_ne_of_ix (by omega) (by decide) (by decide))]

omit hp

theorem evPending_effSwap : (effSwap role p v d).evPending 22 = true := by
  obtain ⟨f, -, he⟩ := effSwap_steps role p v d
  rw [he]
  exact f.evPending_swapCounted p

theorem keepsObjs_effSwap :
    KeepsObjs ([(0x3480 + p, 1), (0x3480 + p, 0xB), (0x3480 + p, 0xC), evObj 22] ++ eventObjs) d (effSwap role p v d) := by
  obtain ⟨f, hf, he⟩ := effSwap_steps role p v d
  rw [he]
  exact ((KeepsObjs.refl _ d).set (List.mem_cons_self ..) (by decide) _).trans
    ((hf.keepsObjs_then (f.keepsObjs_swapCounted p)).mono (List.subset_cons_self _ _))

/-- A swap writes objects and the metrology event log alone. -/
theorem onlyLogged_effSwap : OnlyLogged { d with status := 0 } ((effSwap role p v d).answer 0) := by
  obtain ⟨f, hf, he⟩ := effSwap_steps role p v d
  rw [he]
  have hb : KeepsBlobs [] (d.set (0x3480 + p) 1 (d.get (0x3480 + p) 1 ^^^ (byteAt v 0 % 16))) f := hf.keepsBlobs []
  obtain ⟨o, b, l, w, rfl⟩ := hf.parts
  exact ⟨rfl, hb⟩

end

/-! ## Lock groups (04 R119, R147) -/

/-- A change of a group's state is a change of objects. -/
theorem Dev.setLockState_parts (d : Dev) (g st : Nat) : ∃ o, d.setLockState g st = { d with objs := o } := by
  unfold Dev.setLockState Dev.when
  dsimp only
  split
  · exact ⟨_, rfl⟩
  · split
    · exact ⟨_, rfl⟩
    · exact ⟨_, rfl⟩

theorem KeepsObjs.setLockState {but : List (Nat × Nat)} {d e : Dev} (h : KeepsObjs but d e) {g : Nat}
    (hm : [(0x34C0 + g, 3), (0x34C0 + g, 6), evObj 20] ⊆ but) (st : Nat) : KeepsObjs but d (e.setLockState g st) := by
  have h20 := (h.set (hm (by simp) : (0x34C0 + g, 3) ∈ but) (by decide) st).raiseEv (hm (by simp) : evObj 20 ∈ but) (by decide)
  unfold Dev.setLockState Dev.when
  dsimp only
  split
  · exact h
  · split
    · exact h20.set (hm (by simp)) (by decide) _
    · exact h20

theorem Dev.get_setLockState (d : Dev) (g st : Nat) : (d.setLockState g st).get (0x34C0 + g) 3 = st := by
  have h3 : ((d.set (0x34C0 + g) 3 st).raiseEv 20).get (0x34C0 + g) 3 = st :=
    (Dev.get_raiseEv_ne _ 20 _ _ (okey_ne_of_ix (by omega) (by decide) (by decide))).trans (Dev.get_set_same _ _ _ _)
  unfold Dev.setLockState Dev.when
  dsimp only
  split
  · assumption
  · split
    · exact (Dev.get_satInc_ne _ _ _ _ _ _ _ (okey_ne_of_sub _ (by decide))).trans h3
    · exact h3

/-- EV20 at each change of state (04 R147). -/
theorem Dev.evPending_setLockState {d : Dev} {g st : Nat} (h : d.get (0x34C0 + g) 3 ≠ st) : (d.setLockState g st).evPending 20 = true := by
  have h20 : ((d.set (0x34C0 + g) 3 st).raiseEv 20).evPending 20 = true :=
    (Dev.evPending_raiseEv _ 20 20 (by decide) (by decide)).trans (if_pos rfl)
  unfold Dev.setLockState Dev.when
  dsimp only
  rw [if_neg h]
  split
  · exact (Dev.evPending_set _ _ _ (by omega) (by decide)).trans h20
  · exact h20

/-- The part with a value of lock group `g` written and the group gone to acquiring. -/
def Dev.lockWritten (d : Dev) (g sub v : Nat) : Dev := (d.set (0x34C0 + g) sub v).setLockState g 1

/-- A write to a lock group logs its event and takes the value; of a new reference the record starts again. -/
theorem effLock_steps (role : Role) (g sub v : Nat) (d : Dev) :
    ∃ f ls, EventLogged d f ∧ effLock role g sub v d = { f.lockWritten g sub v with locks := ls } := by
  unfold effLock
  dsimp only
  split
  · exact ⟨_, _, d.eventLogged_eventEff _ _ _ _ _, rfl⟩
  · exact ⟨_, _, d.eventLogged_eventEff _ _ _ _ _, rfl⟩

section
variable {sub : Nat} (hs : sub < 3) (g v : Nat) (d : Dev)
include hs

theorem Dev.keepsObjs_lockWritten :
    KeepsObjs [(0x34C0 + g, sub), (0x34C0 + g, 3), (0x34C0 + g, 6), evObj 20] d (d.lockWritten g sub v) :=
  KeepsObjs.setLockState ((KeepsObjs.refl _ d).set (List.mem_cons_self ..) (by omega) v) (List.subset_cons_self _ _) 1

theorem Dev.get_lockWritten : (d.lockWritten g sub v).get (0x34C0 + g) sub = v := by
  have hk : KeepsObjs [(0x34C0 + g, 3), (0x34C0 + g, 6), evObj 20] (d.set (0x34C0 + g) sub v) (d.lockWritten g sub v) :=
    (KeepsObjs.refl _ _).setLockState (List.Subset.refl _) 1
  exact (hk _ sub (by omega) (by simp [evObj]; omega)).trans (Dev.get_set_same _ _ _ _)

theorem Dev.evPending_lockWritten (h : d.get (0x34C0 + g) 3 ≠ 1) : (d.lockWritten g sub v).evPending 20 = true :=
  Dev.evPending_setLockState fun h1 => h ((Dev.get_set_ne _ _ _ _ _ _ (okey_ne_of_sub _ (by omega))).symm.trans h1)

end

/-- Beyond the records of the lock groups, a write to one writes the metrology event log alone. -/
theorem onlyLogged_effLock (role : Role) (g sub v : Nat) (d : Dev) :
    let e := (effLock role g sub v d).answer 0
    OnlyLogged { d with locks := e.locks, status := 0 } e := by
  obtain ⟨f, ls, hf, he⟩ := effLock_steps role g sub v d
  obtain ⟨o', hl⟩ := (f.set (0x34C0 + g) sub v).setLockState_parts g 1
  rw [he, Dev.lockWritten, hl]
  have hb : KeepsBlobs [] d f := hf.keepsBlobs []
  obtain ⟨o, b, l, w, rfl⟩ := hf.parts
  exact ⟨rfl, hb⟩

/-! ## The five commands -/

/-- Settles O27: each command writes one metrology event and then its objects; the event's number stands after them, and the lemmas on
each effect say what they leave. -/
theorem filterChainWrites : Obligations.FilterChainWrites := by
  unfold Obligations.FilterChainWrites
  refine ⟨?channel, ?bank, ?swap, ?defaults, ?lock⟩
  case channel =>
    intro s role c sub v h h1 h8
    refine completes_onDev rfl ?_
    rw [writeObj_of_accepts h]
    have hl := onlyLogged_effChan role c sub v s.dev
    obtain ⟨f, hf, he⟩ := effChan_steps role c sub v s.dev
    rw [he] at hl ⊢
    have hk := f.keepsObjs_chanWritten (c := c) (sub := sub) (by omega) v
    have hn : (0x4D40, 1) ∉ [(0x3000 + c.val, sub), (0x3600 + c.val, 0xE)] := by simp; omega
    refine ⟨f.get_chanWritten (by omega) v, f.changed_chanWritten v, rfl, hf.number_then hk hn, hf.keepsObjs_then hk, ?_, hl⟩
    have hb : KeepsBlobs [(0x3600 + c.val, 0xF)] s.dev (f.chanWritten c sub v) := (hf.keepsBlobs _).of_blobs_eq rfl
    exact hb.captureAbort (by simp)
  case bank =>
    intro s role p t b v ix h
    refine completes_onDev rfl ?_
    rw [writeObj_of_accepts h]
    have hs : 3 + 2 * t.val + b.val < 256 := by omega
    exact ⟨getB_effBank role p t b v s.dev, crc_effBank role p t b v s.dev, rfl, number_effBank role p t b v s.dev p.isLt hs,
      keepsObjs_effBank role p t b v s.dev hs, keepsBlobs_effBank role p t b v s.dev, onlyLogged_effBank role p t b v s.dev⟩
  case swap =>
    intro s role p v h
    refine completes_onDev rfl ?_
    rw [writeObj_of_accepts h]
    exact ⟨activeBanks_effSwap role p.isLt v s.dev, count_effSwap role p.isLt v s.dev, tick_effSwap role p.isLt v s.dev,
      evPending_effSwap role v s.dev, rfl, number_effSwap role p.isLt v s.dev, keepsObjs_effSwap role v s.dev,
      onlyLogged_effSwap role v s.dev⟩
  case defaults =>
    intro s role p t b ix h
    refine completes_onDev rfl ?_
    rw [writeObj_of_accepts h, effDefaults_stage]
    have hs : 3 + 2 * t.val + b < 256 := by omega
    exact ⟨getB_effBank role p t b _ s.dev, crc_effBank role p t b _ s.dev, number_effBank role p t b _ s.dev p.isLt hs,
      keepsObjs_effBank role p t b _ s.dev hs, keepsBlobs_effBank role p t b _ s.dev, onlyLogged_effBank role p t b _ s.dev⟩
  case lock =>
    intro s role g sub v h h1 h2
    refine completes_onDev rfl ?_
    rw [writeObj_of_accepts h]
    have hl := onlyLogged_effLock role g sub v s.dev
    obtain ⟨f, ls, hf, he⟩ := effLock_steps role g sub v s.dev
    rw [he] at hl ⊢
    have hs : sub < 3 := by omega
    have hk := f.keepsObjs_lockWritten hs g v
    have hn : (0x4D40, 1) ∉ [(0x34C0 + g.val, sub), (0x34C0 + g.val, 3), (0x34C0 + g.val, 6), evObj 20] := by simp [evObj]; omega
    have hstate : f.get (0x34C0 + g) 3 = s.dev.get (0x34C0 + g) 3 := hf.keepsObjs _ 3 (by decide) (by simp [eventObjs]; omega)
    exact ⟨f.get_lockWritten hs g v, Dev.get_setLockState _ g 1, fun hne => f.evPending_lockWritten hs g v fun h1 => hne (hstate.symm.trans h1),
      hf.number_then hk hn, hf.keepsObjs_then hk, hl⟩

end Sys2Proof.Machine
end

section
/-! SUPPORT. The work of H4 and the switch of the billing engine's banks; the sub-index of an admitted write to a meter. -/
namespace Sys2Proof.Machine

open Sys2Proof

/-! ## The switch of the banks (09 R299) -/

/-- Work of H4 leaves what its function gives, with the supply monitor's record beside it. -/
theorem inH4_parts (f : Dev → Dev) (d : Dev) : ∃ x, inH4 f d = { f d with supply := x } := by
  unfold inH4 Dev.when
  split
  · exact ⟨_, rfl⟩
  · exact ⟨_, rfl⟩

/-- Work of H4 that leaves the supply monitor alone switches the banks to its own outcome, unless H4 was late. -/
theorem bankFollows_inH4 {f : Dev → Dev} {d : Dev} (h : (f d).supply = d.supply) : BankFollows d (inH4 f d) := by
  unfold BankFollows inH4
  cases d.tick.late.contains 4 with
  | true => exact h
  | false =>
    show { (f d).supply with bank := (f d).saveImage } = ({ d.supply with bank := (f d).bankNow.saveImage } : SupplyRec)
    rw [h]
    rfl

theorem get_inH4 (f : Dev → Dev) (d : Dev) (ix sub : Nat) : (inH4 f d).get ix sub = (f d).get ix sub := by
  obtain ⟨x, hx⟩ := inH4_parts f d
  rw [hx]
  rfl

theorem meter_inH4 (f : Dev → Dev) (d : Dev) (m : Nat) : (inH4 f d).meter m = (f d).meter m := by
  obtain ⟨x, hx⟩ := inH4_parts f d
  rw [hx]
  rfl

theorem evPending_inH4 (f : Dev → Dev) (d : Dev) (n : Nat) : (inH4 f d).evPending n = (f d).evPending n := by
  simp only [Dev.evPending, Dev.bitO, get_inH4]

theorem KeepsObjs.inH4 {but : List (Nat × Nat)} {f : Dev → Dev} {d : Dev} (h : KeepsObjs but d (f d)) :
    KeepsObjs but d (inH4 f d) :=
  fun ix sub hs hn => (get_inH4 f d ix sub).trans (h ix sub hs hn)

/-! ## Objects of the meters (05 R192) -/

/-- An update that comes about or not keeps what it keeps where it comes about. -/
theorem KeepsObjs.when {but : List (Nat × Nat)} {d e : Dev} (h : KeepsObjs but d e) (b : Bool) {f : Dev → Dev} (hf : KeepsObjs but d (f e)) :
    KeepsObjs but d (e.when b f) := by
  cases b with
  | true => exact hf
  | false => exact h

theorem OnlyObjs.set {d e : Dev} (h : OnlyObjs d e) (ix sub v : Nat) : OnlyObjs d (e.set ix sub v) := congrArg (Dev.set · ix sub v) h

/-- A write that is admitted names a row of its object's table. -/
theorem exists_row_of_accepts {d : Dev} {role : Role} {ix sub : Nat} {v : Val} {x : Rules} (h : Accepts d role ix sub v x) :
    ∃ r ∈ rowsFor ix, sub ≤ r.subHi := by
  have hst := h.2
  unfold writeStatus at hst
  cases hrow : objRow ix sub with
  | none =>
    rw [hrow] at hst
    dsimp only at hst
    split at hst
    · exact absurd hst (by decide)
    · split at hst
      · exact absurd hst (by decide)
      · exact absurd hst (by decide)
  | some r =>
    have hhas := List.find?_some hrow
    simp only [ObjRow.has, Bool.and_eq_true, decide_eq_true_eq] at hhas
    exact ⟨r, List.mem_of_find?_eq_some hrow, hhas.2⟩

/-- The sub-index of an admitted write to a meter or element is one of its table. -/
theorem sub_lt_of_accepts_meter {d : Dev} {role : Role} {m off sub : Nat} {v : Val} {x : Rules} (hm : m < 36) (ho : off < 5)
    (h : Accepts d role (meterIx m + off) sub v x) : sub < 256 := by
  have hrows : rowsFor (meterIx m + off) = rowsMeter := by
    unfold rowsFor meterIx
    simp (disch := omega) only [if_neg, if_pos]
  have hsubs : ∀ r ∈ rowsMeter, r.subHi < 256 := by decide
  obtain ⟨r, hr, hle⟩ := exists_row_of_accepts h
  rw [hrows] at hr
  exact Nat.lt_of_le_of_lt hle (hsubs r hr)

end Sys2Proof.Machine
end

section
/-! SUPPORT. Quanta (chapter 05): their forced closes, their registration and the drain before a change of configuration. -/
namespace Sys2Proof.Machine

open Sys2Proof

theorem Dev.meter_setMeter (d : Dev) (m : Nat) (r : MeterRec) : (d.setMeter m r).meter m = r := tget_tset_same _ _ _ _

/-! ## Forced closes (05 R170) -/

/-- The part with a forced close of meter `m` counted and EV26 raised. -/
def Dev.forcedCounted (d : Dev) (m : Nat) : Dev := (d.inc (meterIx m + 6) 0xB).raiseEv 26

theorem KeepsObjs.forcedCounted {but : List (Nat × Nat)} {d e : Dev} (h : KeepsObjs but d e) {m : Nat} (hc : (meterIx m + 6, 0xB) ∈ but)
    (he : evObj 26 ∈ but) : KeepsObjs but d (e.forcedCounted m) :=
  (h.set hc (by decide) _).raiseEv he (by decide)

theorem Dev.count_forcedCounted (d : Dev) (m : Nat) :
    (d.forcedCounted m).get (meterIx m + 6) 0xB = satAdd 32 (d.get (meterIx m + 6) 0xB) 1 := by
  refine (Dev.get_raiseEv_ne _ 26 _ _ (okey_ne_of_ix ?_ (by decide) (by decide))).trans (Dev.get_satInc_same d 32 _ _ 1)
  unfold meterIx
  omega

theorem Dev.evPending_forcedCounted (d : Dev) (m : Nat) : (d.forcedCounted m).evPending 26 = true :=
  (Dev.evPending_raiseEv _ 26 26 (by decide) (by decide)).trans (if_pos rfl)

theorem forcedClose_due {d : Dev} {m : Nat} {q : Quantum} (h : (d.meter m).due = some q) :
    forcedClose m d = (d.setMeter m { d.meter m with due := none, closed := (d.meter m).closed ++ [q] }).forcedCounted m := by
  simp only [forcedClose, h]
  rfl

section
variable {d : Dev} {m : Nat} {q : Quantum} (h : (d.meter m).due = some q)
include h

theorem forcedClose_parts :
    ∃ o, forcedClose m d
      = { d with objs := o, meters := tset d.meters m { d.meter m with due := none, closed := (d.meter m).closed ++ [q] } } := by
  rw [forcedClose_due h]
  exact ⟨_, rfl⟩

theorem meter_forcedClose : (forcedClose m d).meter m = { d.meter m with due := none, closed := (d.meter m).closed ++ [q] } := by
  rw [forcedClose_due h]
  exact Dev.meter_setMeter d m _

theorem count_forcedClose : (forcedClose m d).get (meterIx m + 6) 0xB = satAdd 32 (d.get (meterIx m + 6) 0xB) 1 := by
  rw [forcedClose_due h]
  exact Dev.count_forcedCounted _ m

theorem evPending_forcedClose : (forcedClose m d).evPending 26 = true := by
  rw [forcedClose_due h]
  exact Dev.evPending_forcedCounted _ m

theorem keepsObjs_forcedClose : KeepsObjs [(meterIx m + 6, 0xB), evObj 26] d (forcedClose m d) := by
  rw [forcedClose_due h]
  exact KeepsObjs.forcedCounted ((KeepsObjs.refl _ d).of_objs_eq rfl) (by simp) (by simp)

end

/-! ## The drain (05 R187) -/

/-- The part with meter `m` drained to record `r`: a forced close counted before and after as `b` and `b'` say, the gates now `g`. -/
def Dev.drained (d : Dev) (m : Nat) (b b' : Bool) (r : MeterRec) (g : Nat) : Dev :=
  (((d.when b (·.forcedCounted m)).setMeter m r).when b' (·.forcedCounted m)).set (meterIx m + 7) 1 g

/-- A drain leaves no quantum open and none waiting for its forced close. -/
theorem drainMeter_steps (m mask fresh : Nat) (d : Dev) :
    ∃ b b' r g, drainMeter m mask fresh d = d.drained m b b' r g ∧ r.cur = none ∧ r.due = none ∧ r.armed = false :=
  ⟨_, _, _, _, rfl, rfl, rfl, rfl⟩

theorem Dev.when_forcedCounted_parts (d : Dev) (m : Nat) (b : Bool) : ∃ o, d.when b (·.forcedCounted m) = { d with objs := o } := by
  cases b with
  | true => exact ⟨_, rfl⟩
  | false => exact ⟨_, rfl⟩

section
variable (d : Dev) (m : Nat) (b b' : Bool) (r : MeterRec) (g : Nat)

theorem Dev.drained_parts : ∃ o, d.drained m b b' r g = { d with objs := o, meters := tset d.meters m r } := by
  obtain ⟨o, ho⟩ := d.when_forcedCounted_parts m b
  obtain ⟨o', ho'⟩ := ((d.when b (·.forcedCounted m)).setMeter m r).when_forcedCounted_parts m b'
  rw [Dev.drained, ho', ho]
  exact ⟨_, rfl⟩

theorem Dev.meter_drained : (d.drained m b b' r g).meter m = r := by
  obtain ⟨o, ho⟩ := d.drained_parts m b b' r g
  rw [ho]
  exact tget_tset_same _ _ _ _

theorem Dev.keepsObjs_drained : KeepsObjs [(meterIx m + 6, 0xB), (meterIx m + 7, 1), evObj 26] d (d.drained m b b' r g) := by
  have hc {e : Dev} (h : KeepsObjs [(meterIx m + 6, 0xB), (meterIx m + 7, 1), evObj 26] d e) (b : Bool) :=
    h.when b (f := (·.forcedCounted m)) (h.forcedCounted (by simp) (by simp))
  have hr : KeepsObjs _ d ((d.when b (·.forcedCounted m)).setMeter m r) := (hc (KeepsObjs.refl _ d) b).of_objs_eq rfl
  exact (hc hr b').set (by simp) (by decide) g

end

/-- A write to a meter logs its event, drains the work in flight and takes the value. -/
theorem effMeter_steps (role : Role) (m off sub v : Nat) (d : Dev) :
    ∃ f b b' r g, EventLogged d f ∧ effMeter role m off sub v d = (f.drained m b b' r g).set (meterIx m + off) sub v
      ∧ r.cur = none ∧ r.due = none ∧ r.armed = false := by
  have hf := d.eventLogged_eventEff 0x0009 (roleCode role) (subjObj (meterIx m + off) sub) (natLE 4 (d.get (meterIx m + off) sub)) (natLE 4 v)
  generalize he : d.eventEff _ _ _ _ _ = f at hf
  obtain ⟨b, b', r, g, hd, hr⟩ := drainMeter_steps m (gatesClosed f m off sub v) (rmsAnew f m off sub v) f
  refine ⟨f, b, b', r, g, hf, ?_, hr⟩
  rw [← hd, ← he]
  rfl

/-- Beyond the records of the meters, a write to one writes the metrology event log alone. -/
theorem onlyLogged_effMeter (role : Role) (m off sub v : Nat) (d : Dev) :
    let e := (effMeter role m off sub v d).answer 0
    OnlyLogged { d with meters := e.meters, status := 0 } e := by
  obtain ⟨f, b, b', r, g, hf, he, -⟩ := effMeter_steps role m off sub v d
  obtain ⟨o, ho⟩ := f.drained_parts m b b' r g
  have hb : KeepsBlobs [] d f := hf.keepsBlobs []
  rw [he, ho]
  obtain ⟨o', x, l, w, rfl⟩ := hf.parts
  exact ⟨rfl, hb⟩

/-! ## Registration (05 R174, R179, R180, R189) -/

/-- The counters of meter `m` that a registration adds 1 to, and the rate in force that it adds under. -/
def counterObjs (m : Nat) : List (Nat × Nat) := [(meterIx m + 5, 1), (meterIx m + 6, 0xA), (meterIx m + 8, 5)]

/-- Beyond `d`, only objects and pulse outputs differ, and of the objects neither the counters of meter `m` nor its rate in force. -/
def KeepsCounters (m : Nat) (d e : Dev) : Prop :=
  (∀ x ∈ counterObjs m, e.get x.1 x.2 = d.get x.1 x.2) ∧ e = { d with objs := e.objs, pulses := e.pulses }

theorem KeepsCounters.refl (m : Nat) (d : Dev) : KeepsCounters m d d := ⟨fun _ _ => rfl, rfl⟩

theorem sub_lt_of_mem_counterObjs {m : Nat} {x : Nat × Nat} (h : x ∈ counterObjs m) : x.2 < 256 := by
  simp only [counterObjs, List.mem_cons, List.not_mem_nil, or_false] at h
  obtain rfl | rfl | rfl := h <;> simp

section
variable {m : Nat} {d e : Dev} (h : KeepsCounters m d e)
include h

theorem KeepsCounters.with_pulses (p : Tab PulseRec) : KeepsCounters m d { e with pulses := p } :=
  ⟨h.1, congrArg (fun z : Dev => { z with pulses := p }) h.2⟩

theorem KeepsCounters.set {ix sub : Nat} (hn : (ix, sub) ∉ counterObjs m) (hs : sub < 256) (v : Nat) : KeepsCounters m d (e.set ix sub v) := by
  obtain ⟨hk, he⟩ := h
  refine ⟨fun x hx => ?_, congrArg (Dev.set · ix sub v) he⟩
  have hne : okey x.1 x.2 ≠ okey ix sub := okey_ne_of_mem hx (sub_lt_of_mem_counterObjs hx) hs hn
  exact (Dev.get_set_ne _ _ _ _ _ _ hne.symm).trans (hk x hx)

theorem KeepsCounters.raiseEv (n : Nat) : KeepsCounters m d (e.raiseEv n) := by
  refine h.set ?_ (by omega) _
  simp [counterObjs, meterIx]
  omega

theorem KeepsCounters.when (b : Bool) {f : Dev → Dev} (hf : ∀ x, KeepsCounters m d x → KeepsCounters m d (f x)) :
    KeepsCounters m d (e.when b f) := by
  cases b with
  | true => exact hf e h
  | false => exact h

theorem KeepsCounters.rate_eq : e.get (meterIx m + 8) 5 = d.get (meterIx m + 8) 5 := h.1 (meterIx m + 8, 5) (by simp [counterObjs])

end

/-- The gates of a quantum stand apart from the counters. -/
theorem keepsCounters_gateUpdate (m : Nat) (c : MeterCfg) (q : Quantum) (d : Dev) : KeepsCounters m d (gateUpdate m c q d).2 := by
  unfold gateUpdate
  refine List.foldlRecOn (motive := fun a : Nat × Dev => KeepsCounters m d a.2) _ _ (KeepsCounters.refl m d) fun a ha e he => ?_
  have he4 : e < 4 := List.mem_range.mp (List.mem_filter.mp he).1
  have hgate : (meterIx m + 7, 1) ∉ counterObjs m := by simp [counterObjs]
  have hopen : (meterIx m + 7, 2 + e) ∉ counterObjs m := by simp [counterObjs]
  exact (ha.when _ fun x hx => hx.set hgate (by decide) _).when _ fun x hx => (hx.set hopen (by omega) _).raiseEv 24

/-- The objects of a pulse output are not a meter's. -/
theorem pulse_not_mem_counterObjs {m : Nat} (hm : m < 36) (j sub : Nat) : (0x49F0 + j, sub) ∉ counterObjs m := by
  simp [counterObjs, meterIx]
  omega

theorem KeepsCounters.pulseAdd {m : Nat} (hm : m < 36) {d e : Dev} (h : KeepsCounters m d e) (j n : Nat) : KeepsCounters m d (pulseAdd j n e) := by
  have hj := pulse_not_mem_counterObjs hm j
  have h1 := fun t p => (h.set (hj 5) (by decide) t).set (hj 6) (by decide) p
  unfold Machine.pulseAdd
  dsimp only
  split
  · exact ((h1 _ _).with_pulses _).raiseEv 27
  · exact h1 _ _

/-- The sub-index of the demand sum that quantity `u` adds to, 0 where there is none (07 R243). -/
def demandSub (u : Nat) : Nat := if u = 0 then 3 else if u = 1 then 4 else if u = 6 then 5 else 0

theorem demandSub_lt (u : Nat) : demandSub u < 256 := by
  unfold demandSub
  split
  · decide
  · split
    · decide
    · split <;> decide

/-- A quantity goes to its accumulator, total and pair, to the subinterval and to the pulse outputs; the counters are none of them. -/
theorem KeepsCounters.register {m : Nat} (hm : m < 36) {d e : Dev} (h : KeepsCounters m d e) (hr : 1 ≤ d.get (meterIx m + 8) 5) {u : Nat}
    (hu : u < 8) (n : Nat) : KeepsCounters m d (register m u n e) := by
  have hrate : 1 ≤ e.get (meterIx m + 8) 5 := h.rate_eq ▸ hr
  have hacc : (meterIx m + 6, u + 1) ∉ counterObjs m := by simp [counterObjs]; omega
  have htot : (meterIx m + 0x1A, u + 1) ∉ counterObjs m := by simp [counterObjs]
  have hdem : ∀ sub, (meterIx m + 0x19, sub) ∉ counterObjs m := fun sub => by simp [counterObjs]
  have hpair : ∀ r sub, 1 ≤ r → (meterIx m + 8 + r, sub) ∉ counterObjs m := fun r sub hr => by simp [counterObjs]; omega
  unfold Machine.register
  dsimp only
  refine each_preserves (KeepsCounters m d) 4 _ (fun j _ f hf => hf.when _ fun x hx => hx.pulseAdd hm j n) _ ?_
  refine KeepsCounters.when ?_ _ fun x hx => hx.set (hdem _) (demandSub_lt u) _
  exact (((h.set hacc (by omega) _).set htot (by omega) _).set (hpair _ _ hrate) (by omega) _).set (hpair _ _ hrate) (by omega) _

/-- The part with a quantum of `len` samples counted in both counters of meter `m`, its length and its sums shown. -/
def Dev.quantumShown (d : Dev) (m len : Nat) (sp sq : Int) (s quad : Nat) : Dev :=
  let d := d.set (meterIx m + 6) 0xA ((d.get (meterIx m + 6) 0xA + 1) % 2 ^ 64)
  let d := ((d.incWrap (meterIx m + 5) 1).set (meterIx m + 5) 2 len).setS 64 (meterIx m + 5) 3 sp
  ((d.setS 64 (meterIx m + 5) 4 sq).set (meterIx m + 5) 5 s).set (meterIx m + 5) 6 quad

section
variable (d : Dev) (m len : Nat) (sp sq : Int) (s quad : Nat)

theorem Dev.length_quantumShown : (d.quantumShown m len sp sq s quad).get (meterIx m + 5) 2 = len := by
  simp [Dev.quantumShown, Dev.setS, Dev.get_set, okey_inj]

theorem Dev.count_quantumShown : (d.quantumShown m len sp sq s quad).get (meterIx m + 5) 1 = (d.get (meterIx m + 5) 1 + 1) % 2 ^ 32 := by
  simp [Dev.quantumShown, Dev.setS, Dev.incWrap, Dev.get_set, okey_inj]

theorem Dev.total_quantumShown : (d.quantumShown m len sp sq s quad).get (meterIx m + 6) 0xA = (d.get (meterIx m + 6) 0xA + 1) % 2 ^ 64 := by
  simp [Dev.quantumShown, Dev.setS, Dev.incWrap, Dev.get_set, okey_inj]

theorem Dev.onlyObjs_quantumShown : OnlyObjs d (d.quantumShown m len sp sq s quad) :=
  have h : OnlyObjs d d := rfl
  ((((((h.set _ _ _).set _ _ _).set _ _ _).set _ _ _).set _ _ _).set _ _ _).set _ _ _

end

/-- The part with the mean power of a quantum taken into the session that runs on meter `m`, where there is one (07 R256). -/
def Dev.powerTaken (d : Dev) (m len : Nat) (sp : Int) : Dev :=
  match tfind d.bill.sessions m with
  | some x =>
    let w := if 0 < len then (sp / ((len : Int) * 2 ^ 22)).toNat else 0
    { d with bill := { d.bill with sessions := tset d.bill.sessions m { x with maxPower := max x.maxPower w } } }
  | none => d

theorem Dev.powerTaken_parts (d : Dev) (m len : Nat) (sp : Int) : ∃ x, d.powerTaken m len sp = { d with bill := x } := by
  unfold Dev.powerTaken
  split
  · exact ⟨_, rfl⟩
  · exact ⟨_, rfl⟩

theorem Dev.get_powerTaken (d : Dev) (m len : Nat) (sp : Int) (ix sub : Nat) : (d.powerTaken m len sp).get ix sub = d.get ix sub := by
  obtain ⟨x, hx⟩ := d.powerTaken_parts m len sp
  rw [hx]
  rfl

/-- The part with the sums of a quantum in the registers of meter `m`: the active energy and the apparent by the sign of `sp`, the reactive
by its quadrant `quad`, the energy below the gates last. -/
def Dev.sumsTaken (d : Dev) (m : Nat) (sp sq : Int) (su s quad : Nat) : Dev :=
  let d := if 0 ≤ sp then register m 6 s (register m 0 sp.natAbs d) else register m 7 s (register m 1 sp.natAbs d)
  let d := register m (1 + quad) sq.natAbs d
  d.set (meterIx m + 6) 9 ((d.get (meterIx m + 6) 9 + su) % 2 ^ 96)

/-- The quadrant of a quantum (05 R174). -/
def quadrantOf (sp sq : Int) : Nat := if 0 ≤ sp then (if 0 ≤ sq then 1 else 4) else (if 0 ≤ sq then 2 else 3)

theorem quadrantOf_le (sp sq : Int) : quadrantOf sp sq ≤ 4 := by
  unfold quadrantOf
  split
  · split <;> decide
  · split <;> decide

/-- The part after all that a quantum of `len` samples writes to objects; its apparent energy is the root of the squares of `sp` and `sq`. -/
def Dev.quantumRegistered (d : Dev) (m : Nat) (sp sq : Int) (su len : Nat) : Dev :=
  let s := isqrt (sp.natAbs ^ 2 + sq.natAbs ^ 2)
  (d.sumsTaken m sp sq su s (quadrantOf sp sq)).quantumShown m len sp sq s (quadrantOf sp sq)

/-- The sums of a quantum go to their quantities before the quantum is counted and shown. -/
theorem registerSums_eq (m : Nat) (sp sq : Int) (su len : Nat) (d : Dev) :
    registerSums m sp sq su len d = (d.quantumRegistered m sp sq su len).powerTaken m len sp := by
  unfold registerSums
  extract_lets b s quad e1 e2 e3 e4 e5 e6
  have h6 : d.quantumRegistered m sp sq su len = e6 := rfl
  rw [h6]
  clear_value e6
  rfl

theorem KeepsCounters.sumsTaken {m : Nat} (hm : m < 36) {d e : Dev} (h : KeepsCounters m d e) (hr : 1 ≤ d.get (meterIx m + 8) 5)
    {quad : Nat} (hq : quad ≤ 4) (sp sq : Int) (su s : Nat) : KeepsCounters m d (e.sumsTaken m sp sq su s quad) := by
  have hsu : (meterIx m + 6, 9) ∉ counterObjs m := by simp [counterObjs]
  have hdir : KeepsCounters m d
      (if 0 ≤ sp then Machine.register m 6 s (Machine.register m 0 sp.natAbs e)
        else Machine.register m 7 s (Machine.register m 1 sp.natAbs e)) := by
    split
    · exact (h.register hm hr (by decide) _).register hm hr (by decide) _
    · exact (h.register hm hr (by decide) _).register hm hr (by decide) _
  exact (hdir.register hm hr (by omega) sq.natAbs).set hsu (by decide) _

/-- A quantum registers apart from the counters, then it is counted and its length and sums shown, then its session takes its power. -/
theorem registerQuantum_steps {m : Nat} (hm : m < 36) (q : Quantum) {d : Dev} (hr : 1 ≤ d.get (meterIx m + 8) 5) :
    ∃ f sp sq s quad, KeepsCounters m d f ∧ registerQuantum m q d
      = (f.quantumShown m (q.stop - q.first) sp sq s quad).powerTaken m (q.stop - q.first) sp := by
  have hg := keepsCounters_gateUpdate m (q.cfg.getD (d.meterCfg m)) q d
  unfold registerQuantum
  dsimp only
  rw [registerSums_eq]
  exact ⟨_, _, _, _, _, hg.sumsTaken hm hr (quadrantOf_le _ _) _ _ _ _, rfl⟩

/-- The oldest closed quantum, where its last sums are complete, leaves the list and registers. -/
theorem registration_due {d : Dev} {m : Nat} {q : Quantum} {rest : List Quantum} (hc : (d.meter m).closed = q :: rest) (hq : q.regAt ≤ d.now) :
    registration m d = registerQuantum m q (d.setMeter m { d.meter m with closed := rest }) := by
  simp [registration, hc, hq]

section
variable {d : Dev} {m : Nat} {q : Quantum} {rest : List Quantum} (hm : m < 36) (hc : (d.meter m).closed = q :: rest) (hq : q.regAt ≤ d.now)
  (hr : 1 ≤ d.get (meterIx m + 8) 5)
include hm hc hq hr

/-- The counters of the meter after a registration. -/
theorem counters_registration :
    (registration m d).get (meterIx m + 5) 1 = (d.get (meterIx m + 5) 1 + 1) % 2 ^ 32
    ∧ (registration m d).get (meterIx m + 5) 2 = q.stop - q.first
    ∧ (registration m d).get (meterIx m + 6) 0xA = (d.get (meterIx m + 6) 0xA + 1) % 2 ^ 64 := by
  obtain ⟨f, sp, sq, s, quad, ⟨hk, -⟩, he⟩ := registerQuantum_steps (d := d.setMeter m { d.meter m with closed := rest }) hm q hr
  have hcount : f.get (meterIx m + 5) 1 = d.get (meterIx m + 5) 1 := hk (meterIx m + 5, 1) (by simp [counterObjs])
  have htotal : f.get (meterIx m + 6) 0xA = d.get (meterIx m + 6) 0xA := hk (meterIx m + 6, 0xA) (by simp [counterObjs])
  rw [registration_due hc hq, he, Dev.get_powerTaken, Dev.get_powerTaken, Dev.get_powerTaken, ← hcount, ← htotal]
  exact ⟨f.count_quantumShown m _ sp sq s quad, f.length_quantumShown m _ sp sq s quad, f.total_quantumShown m _ sp sq s quad⟩

/-- A registration writes objects, pulse outputs and the billing engine's record beside the record of its meter. -/
theorem registration_parts :
    ∃ o p x, registration m d
      = { d with objs := o, meters := tset d.meters m { d.meter m with closed := rest }, pulses := p, bill := x } := by
  obtain ⟨f, sp, sq, s, quad, ⟨-, hf⟩, he⟩ := registerQuantum_steps (d := d.setMeter m { d.meter m with closed := rest }) hm q hr
  obtain ⟨x, hx⟩ := (f.quantumShown m (q.stop - q.first) sp sq s quad).powerTaken_parts m (q.stop - q.first) sp
  have hs := f.onlyObjs_quantumShown m (q.stop - q.first) sp sq s quad
  rw [registration_due hc hq, he, hx, hs, hf]
  exact ⟨_, _, x, rfl⟩

end

end Sys2Proof.Machine
end

section
/-! Metering and pulse outputs (chapter 05): what each command does where its condition holds. -/
namespace Sys2Proof.Machine

open Sys2Proof

/-! ## Pulse outputs (05 R189, R191) -/

theorem Dev.pulse_answer (d : Dev) (st j : Nat) : (d.answer st).pulse j = d.pulse j := rfl

theorem pulseExpiry_due {d : Dev} {j t : Nat} (h : (d.pulse j).high = some t) (ht : t ≤ d.now + 1) :
    pulseExpiry j d = { d with pulses := tset d.pulses j { d.pulse j with high := none, lowFrom := t } } := by
  simp [pulseExpiry, h, Dev.effTick, ht]

theorem keepsObjs_effPulse {j sub : Nat} (hs : sub < 256) (v : Nat) (d : Dev) :
    KeepsObjs [(0x49F0 + j, sub), (0x49F0 + j, 5), (0x49F0 + j, 6), (0x49F0 + j, 7)] d (effPulse j sub v d) :=
  (((((KeepsObjs.refl _ d).set (by simp) hs v).set (by simp) (by decide) 0).set (by simp) (by decide) 0).set (by simp) (by decide) 0).of_objs_eq rfl

/-- A write to a pulse output writes objects and its record. -/
theorem effPulse_eq (j sub v : Nat) (d : Dev) :
    effPulse j sub v d = { d with objs := (effPulse j sub v d).objs, pulses := (effPulse j sub v d).pulses } :=
  have h : OnlyObjs d d := rfl
  congrArg (fun z : Dev => { z with pulses := (effPulse j sub v d).pulses }) ((((h.set _ _ _).set _ _ _).set _ _ _).set _ _ _)

/-- A write to a pulse output stores its value and clears accumulator and pending pulses. -/
theorem get_effPulse {sub : Nat} (hs : sub ≤ 4) (j v : Nat) (d : Dev) :
    (effPulse j sub v d).get (0x49F0 + j) sub = v ∧ (effPulse j sub v d).get (0x49F0 + j) 5 = 0
    ∧ (effPulse j sub v d).get (0x49F0 + j) 6 = 0 := by
  have hget : ∀ k, (effPulse j sub v d).get (0x49F0 + j) k
      = ((((d.set (0x49F0 + j) sub v).set (0x49F0 + j) 5 0).set (0x49F0 + j) 6 0).set (0x49F0 + j) 7 0).get (0x49F0 + j) k := fun _ => rfl
  simp (disch := (unfold okey; omega)) only [hget, Dev.get_set_ne, Dev.get_set_same, and_self]

theorem pulse_effPulse (j sub v : Nat) (d : Dev) : (effPulse j sub v d).pulse j = { high := none, lowFrom := d.now + 1, raised := false } :=
  tget_tset_same _ _ _ _

/-! ## The five commands -/

/-- Settles O29: a forced close and a registration each do their work of H4 and the banks follow; an admitted write to a meter logs its
event, drains the work in flight and takes the value; the lemmas on each effect say what it leaves. -/
theorem metersAndPulses : Obligations.MetersAndPulses := by
  unfold Obligations.MetersAndPulses
  refine ⟨?forced, ?registered, ?written, ?expired, ?configured⟩
  case forced =>
    intro s m q hr h
    refine completes_onRun (f := inH4 (forcedClose m)) rfl hr ?_
    obtain ⟨o, ho⟩ := forcedClose_parts h
    obtain ⟨y, hy⟩ := inH4_parts (forcedClose m) s.dev
    have hb : BankFollows s.dev (inH4 (forcedClose m) s.dev) := bankFollows_inH4 (by rw [ho])
    rw [meter_inH4, get_inH4, evPending_inH4, meter_forcedClose h]
    refine ⟨rfl, rfl, count_forcedClose h, evPending_forcedClose h, (keepsObjs_forcedClose h).inH4, hb, ?_⟩
    rw [hy, ho]
  case registered =>
    intro s m q rest hr hc hq h1 _
    refine completes_onRun (f := inH4 (registration m)) rfl hr ?_
    obtain ⟨hcount, hlen, htotal⟩ := counters_registration m.isLt hc hq h1
    obtain ⟨o, p, x, hreg⟩ := registration_parts m.isLt hc hq h1
    obtain ⟨y, hy⟩ := inH4_parts (registration m) s.dev
    have hb : BankFollows s.dev (inH4 (registration m) s.dev) := bankFollows_inH4 (by rw [hreg])
    rw [get_inH4, get_inH4, get_inH4, meter_inH4]
    refine ⟨?_, hcount, hlen, htotal, hb, ?_⟩
    · rw [hreg]
      exact congrArg MeterRec.closed (tget_tset_same _ _ _ _)
    · rw [hy, hreg]
  case written =>
    intro s role m off sub v h
    refine completes_onDev rfl ?_
    rw [writeObj_of_accepts h]
    have hl := onlyLogged_effMeter role m off sub v s.dev
    have hs := sub_lt_of_accepts_meter m.isLt off.isLt h
    obtain ⟨f, b, b', r, g, hf, he, hcur, hdue, harmed⟩ := effMeter_steps role m off sub v s.dev
    rw [he] at hl ⊢
    have hmeter : (f.drained m b b' r g).meter m = r := f.meter_drained m b b' r g
    have hk : KeepsObjs [(meterIx m + off.val, sub), (meterIx m + 6, 0xB), (meterIx m + 7, 1), evObj 26] f
        ((f.drained m b b' r g).set (meterIx m + off) sub v) :=
      ((f.keepsObjs_drained m b b' r g).mono (List.subset_cons_self _ _)).set (by simp) hs v
    have hn : (0x4D40, 1) ∉ [(meterIx m + off.val, sub), (meterIx m + 6, 0xB), (meterIx m + 7, 1), evObj 26] := by
      simp [evObj, meterIx]
      omega
    exact ⟨Dev.get_set_same _ _ _ v, rfl, (congrArg MeterRec.cur hmeter).trans hcur, (congrArg MeterRec.due hmeter).trans hdue,
      (congrArg MeterRec.armed hmeter).trans harmed, hf.number_then hk hn, hf.keepsObjs_then hk, hl⟩
  case expired =>
    intro s j t h ht
    refine completes_onDev (f := pulseExpiry j) rfl ?_
    have hp : (pulseExpiry j s.dev).pulse j = { s.dev.pulse j with high := none, lowFrom := t } := by
      rw [pulseExpiry_due h ht]
      exact tget_tset_same _ _ _ _
    rw [hp, pulseExpiry_due h ht]
    exact ⟨rfl, rfl, rfl⟩
  case configured =>
    intro s role j sub v h hs
    refine completes_onDev rfl ?_
    rw [writeObj_of_accepts h]
    obtain ⟨hval, hacc, hpend⟩ := get_effPulse hs j v s.dev
    simp only [Dev.get_answer, Dev.pulse_answer, pulse_effPulse]
    exact ⟨hval, hacc, hpend, trivial, trivial, (keepsObjs_effPulse (by omega) v s.dev).answer 0,
      congrArg (Dev.answer · 0) (effPulse_eq j sub v s.dev)⟩

end Sys2Proof.Machine
end

section
/-! SUPPORT. Several entries of the metrology event log in turn, what one leaves of the updates before it, and the calibration record of a
channel (chapter 06). -/
namespace Sys2Proof.Machine

open Sys2Proof

/-! ## Entries in turn -/

theorem KeepsBlobs.trans {but : List (Nat × Nat)} {d e f : Dev} (h : KeepsBlobs but d e) (k : KeepsBlobs but e f) : KeepsBlobs but d f :=
  fun ix sub hs hm hl => (k ix sub hs hm hl).trans (h ix sub hs hm hl)

/-- What is kept of one part is kept of another with the same byte strings. -/
theorem KeepsBlobs.rebase {but : List (Nat × Nat)} {d d' e : Dev} (h : KeepsBlobs but d e) (hb : d.blobs = d'.blobs) : KeepsBlobs but d' e :=
  ((KeepsBlobs.refl but d').of_blobs_eq hb).trans h

theorem OnlyLogged.refl (d : Dev) : OnlyLogged d d := ⟨rfl, KeepsBlobs.refl [] d⟩

theorem OnlyLogged.trans {d e f : Dev} (h : OnlyLogged d e) (k : OnlyLogged e f) : OnlyLogged d f := by
  obtain ⟨he, hb⟩ := h
  obtain ⟨hf, hc⟩ := k
  exact ⟨hf.trans (congrArg (fun z : Dev => { z with objs := f.objs, blobs := f.blobs, log := f.log, vcs := f.vcs }) he), hb.trans hc⟩

theorem OnlyLogged.set {d e : Dev} (h : OnlyLogged d e) (ix sub v : Nat) : OnlyLogged d (e.set ix sub v) :=
  h.trans ⟨rfl, (KeepsBlobs.refl [] e).of_blobs_eq rfl⟩

theorem OnlyLogged.raiseEv {d e : Dev} (h : OnlyLogged d e) (n : Nat) : OnlyLogged d (e.raiseEv n) := h.set _ _ _

theorem EventLogged.onlyLogged {d f : Dev} (h : EventLogged d f) : OnlyLogged d f := by
  obtain ⟨t, code, role, cont, subject, data, rfl⟩ := h
  exact onlyLogged_eventEntry d t code role cont subject data

theorem Dev.eventLogged_eventAt (d : Dev) (t code role subject : Nat) (before after : Bytes) :
    EventLogged d (d.eventAt t code role subject before after) :=
  ⟨_, _, _, _, _, _, rfl⟩

/-- A source whose object is kept stays pending or not. -/
theorem KeepsObjs.evPending {but : List (Nat × Nat)} {d e : Dev} (h : KeepsObjs but d e) {n : Nat} (hn : n < 256) (hm : evObj n ∉ but) :
    e.evPending n = d.evPending n := by
  have hi : n / 32 % 8 = n / 32 := Nat.mod_eq_of_lt (by omega)
  unfold evObj at hm
  unfold Dev.evPending Dev.bitO
  rw [hi, h _ _ (by omega) hm]

/-- A metrology event is no event source. -/
theorem EventLogged.evPending {d f : Dev} (h : EventLogged d f) {n : Nat} (hn : n < 256) : f.evPending n = d.evPending n :=
  h.keepsObjs.evPending hn (by simp [evObj, eventObjs])

/-- The objects that updates and an event after them may change. -/
theorem KeepsObjs.then_event {but : List (Nat × Nat)} {d e f : Dev} (h : KeepsObjs but d e) (hf : EventLogged e f) :
    KeepsObjs (but ++ eventObjs) d f :=
  (h.mono (List.subset_append_left _ _)).trans (hf.keepsObjs.mono (List.subset_append_right _ _))

/-- The number of an event after updates that do not touch it. -/
theorem EventLogged.number_of_keeps {but : List (Nat × Nat)} {d e f : Dev} (hf : EventLogged e f) (h : KeepsObjs but d e)
    (hn : (0x4D40, 1) ∉ but) : f.get 0x4D40 1 = d.get 0x4D40 1 + 1 := by
  rw [hf.number_then (KeepsObjs.refl [] f) (List.not_mem_nil), h _ _ (by decide) hn]

/-! ## The record of a channel (06 R223) -/

@[simp] theorem Dev.cal_setCal (d : Dev) (c : Nat) (r : CalRec) : (d.setCal c r).cal c = r := tget_tset_same _ _ _ _

/-- A channel's calibration objects stand beyond the Skein log and before the metrology event log. -/
theorem logSlot_cal {c : Nat} (hc : c < 288) : logSlot (0x3600 + c) = false := decide_eq_false (by omega)

/-- The bytes of a record are those of its constants, polynomials and change count. -/
theorem calBytes_congr {g g' : Nat → Nat} {b b' : Nat → Bytes} (hg : ∀ i, i ≤ 0xA → g i = g' i) (hb : ∀ i, i < 6 → b (0x11 + i) = b' (0x11 + i)) :
    calBytes g b = calBytes g' b' := by
  have hpoly : ((List.range 6).flatMap fun i => padTo 16 (b (0x11 + i))) = (List.range 6).flatMap fun i => padTo 16 (b' (0x11 + i)) :=
    congrArg List.flatten (List.map_congr_left fun i hi => congrArg (padTo 16) (hb i (List.mem_range.mp hi)))
  unfold calBytes
  rw [hpoly, hg 1 (by decide), hg 2 (by decide), hg 3 (by decide), hg 4 (by decide), hg 5 (by decide), hg 6 (by decide), hg 0xA (by decide)]

/-- The status and the results of a capture, and the record as MRAM holds it, are not part of the record. -/
theorem calRecord_of_keeps {c : Nat} (hc : c < 288) {d e : Dev} (ho : KeepsObjs [(0x3600 + c, 0xE)] d e)
    (hb : KeepsBlobs [(0x3600 + c, 0x10), (0x3600 + c, 0xF)] d e) : calRecord e c = calRecord d c :=
  calBytes_congr (fun i hi => ho (0x3600 + c) i (by omega) (by simp; omega))
    fun i hi => hb (0x3600 + c) (0x11 + i) (by omega) (by simp; omega) (logSlot_cal hc)

/-- Whether the record of a channel is good follows from the record as MRAM holds it. -/
theorem calGood_of_onlyLogged {c : Nat} (hc : c < 288) {d e : Dev} (h : OnlyLogged d e) : calGood e c = calGood d c := by
  have hstored : calStored e c = calStored d c := h.2 (0x3600 + c) 0x10 (by decide) (List.not_mem_nil) (logSlot_cal hc)
  unfold calGood
  rw [hstored]

end Sys2Proof.Machine
end

section
/-! Calibration (chapter 06): constants, captures, a failed temperature source and the sealed check. -/
namespace Sys2Proof.Machine

open Sys2Proof

/-! ## Constants (06 R198, R205, R209) -/

/-- An admitted write to a constant has its effect and status 0. -/
theorem writeCal_done {d : Dev} {role : Role} {c sub : Nat} {v : Bytes} (hs : sub ≠ 0xD)
    (h : Accepts d role (0x3600 + c) sub (.raw v) (calRules (d.store (0x3600 + c) sub (.raw v)))) :
    writeCal role c sub v d = (effCal role c sub v d).answer 0 :=
  (if_neg hs).trans (writeObj_of_accepts h (effCal role c sub v))

/-- The part with constant `sub` of channel `c` written and the change counted with its tick of effect. -/
def Dev.constWritten (d : Dev) (c sub : Nat) (v : Bytes) : Dev :=
  ((d.set (0x3600 + c) sub (leNat v)).inc (0x3600 + c) 0xA).set (0x3600 + c) 0xB d.effTick

/-- The part with a constant written and the record rewritten from it. -/
def Dev.calRewritten (d : Dev) (c sub : Nat) (v : Bytes) : Dev :=
  (d.constWritten c sub v).setB (0x3600 + c) 0x10 (calRecord (d.constWritten c sub v) c)

/-- A write to one of .01 to .04 logs its event, takes the value, rewrites the record and ends a capture. -/
theorem effCal_steps (role : Role) (c : Nat) {sub : Nat} (hs : sub ≤ 4) (v : Bytes) (d : Dev) :
    ∃ f, EventLogged d f ∧ effCal role c sub v d = captureAbort c (f.calRewritten c sub v) := by
  have h5 : (sub == 5) = false := beq_eq_false_iff_ne.mpr (by omega)
  have hnum : ¬0x11 ≤ sub := by omega
  have habort : decide (sub ≤ 5) = true := decide_eq_true (by omega)
  refine ⟨_, d.eventLogged_eventEff 0x0001 (roleCode role) (subjObj (calIx c) sub) (d.objBytes (calIx c) sub) v, ?_⟩
  simp only [effCal, if_neg hnum, h5, Bool.false_and, Dev.when_false, habort, Dev.when_true]
  rfl

section
variable (d : Dev) (c : Nat) {sub : Nat} (v : Bytes)

theorem Dev.keepsObjs_calRewritten (hs : sub ≤ 4) :
    KeepsObjs [(0x3600 + c, sub), (0x3600 + c, 0xA), (0x3600 + c, 0xB), (0x3600 + c, 0xE)] d (captureAbort c (d.calRewritten c sub v)) :=
  have hw : KeepsObjs [(0x3600 + c, sub), (0x3600 + c, 0xA), (0x3600 + c, 0xB), (0x3600 + c, 0xE)] d (d.calRewritten c sub v) :=
    ((((KeepsObjs.refl _ d).set (by simp) (by omega) _).set (by simp) (by decide) _).set (by simp) (by decide) _).of_objs_eq rfl
  hw.captureAbort (by simp)

/-- Beyond the write itself, the rewriting and the end of a capture change the capture's status alone. -/
theorem Dev.keepsObjs_constWritten : KeepsObjs [(0x3600 + c, 0xE)] (d.constWritten c sub v) (captureAbort c (d.calRewritten c sub v)) :=
  KeepsObjs.captureAbort ((KeepsObjs.refl _ _).of_objs_eq rfl) (by simp)

theorem Dev.keepsBlobs_constWritten :
    KeepsBlobs [(0x3600 + c, 0x10), (0x3600 + c, 0xF)] (d.constWritten c sub v) (captureAbort c (d.calRewritten c sub v)) :=
  ((KeepsBlobs.refl _ _).setB (by simp) (by decide) _).captureAbort (by simp)

/-- The constant, the count of changes and the tick of the latest after a write. -/
theorem Dev.get_constWritten (hs : sub ≤ 4) :
    (d.constWritten c sub v).get (0x3600 + c) sub = leNat v
    ∧ (d.constWritten c sub v).get (0x3600 + c) 0xA = satAdd 32 (d.get (0x3600 + c) 0xA) 1
    ∧ (d.constWritten c sub v).get (0x3600 + c) 0xB = d.effTick := by
  unfold Dev.constWritten Dev.inc Dev.satInc
  simp (disch := (unfold okey; omega)) only [Dev.get_set_ne, Dev.get_set_same, and_self]

/-- What MRAM holds after the write is the record of the part as it then is. -/
theorem Dev.record_calRewritten (hc : c < 288) :
    (captureAbort c (d.calRewritten c sub v)).getB (0x3600 + c) 0x10 = calRecord (captureAbort c (d.calRewritten c sub v)) c := by
  have habort : KeepsBlobs [(0x3600 + c, 0xF)] (d.calRewritten c sub v) (captureAbort c (d.calRewritten c sub v)) :=
    (KeepsBlobs.refl _ _).captureAbort (by simp)
  rw [calRecord_of_keeps hc (d.keepsObjs_constWritten c v) (d.keepsBlobs_constWritten c v),
    habort _ 0x10 (by decide) (by simp) (logSlot_cal hc)]
  exact Dev.getB_setB_same _ _ _ _

end

/-- Beyond the record of captures, a write to a constant writes byte strings and the metrology event log. -/
theorem onlyLogged_effCal (role : Role) (c : Nat) {sub : Nat} (hs : sub ≤ 4) (v : Bytes) (d : Dev) :
    let e := (effCal role c sub v d).answer 0
    OnlyLogged { d with cals := e.cals, blobs := e.blobs, status := 0 } e := by
  obtain ⟨f, hf, he⟩ := effCal_steps role c hs v d
  obtain ⟨o, b, k, ha⟩ := captureAbort_parts c (f.calRewritten c sub v)
  rw [he, ha]
  obtain ⟨o', b', l, w, rfl⟩ := hf.parts
  exact onlyLogged_of_eq rfl rfl

/-! ## Captures (06 R207, R208) -/

/-- An admitted write of a length has its effect and status 0. -/
theorem writeCapture_done {d : Dev} {role : Role} {c v : Nat} (h : Accepts d role (0x3600 + c) 0xD (.num v) {}) :
    writeObj role (calIx c) 0xD (.num v) {} (effCapture c v) d = (effCapture c v d).answer 0 :=
  writeObj_of_accepts h (effCapture c v)

/-- A length other than 0 starts a capture at the tick of effect. -/
theorem effCapture_start {v : Nat} (hv : v ≠ 0) (c : Nat) (d : Dev) :
    effCapture c v d = ((d.set (0x3600 + c) 0xD v).set (0x3600 + c) 0xE 1).setCal c { d.cal c with cap := { start := d.now + 1, len := v } } :=
  if_neg hv

/-- Length 0 cancels a capture and its results. -/
theorem effCapture_cancel (c : Nat) (d : Dev) :
    effCapture c 0 d
      = (((d.set (0x3600 + c) 0xD 0).set (0x3600 + c) 0xE 0).setB (0x3600 + c) 0xF (zeros 64)).setCal c { d.cal c with cap := {} } :=
  rfl

/-- A running capture whose last tick has been included is complete. -/
theorem captureComplete_ends {c : Nat} {d : Dev} (hs : d.get (0x3600 + c) 0xE % 4 = 1) (ht : (d.cal c).cap.start + (d.cal c).cap.len ≤ d.now + 1) :
    captureComplete c d = (d.set (0x3600 + c) 0xE (setField (d.get (0x3600 + c) 0xE) 0 2 2)).setB (0x3600 + c) 0xF (capResults (d.cal c).cap) := by
  simp only [captureComplete, calIx, hs, ht, beq_self_eq_true, decide_true, Bool.and_true, Dev.when_true]

/-- The status field of a capture that is complete. -/
theorem setField_status_mod (n : Nat) : setField n 0 2 2 % 4 = 2 := by
  rw [setField_eq]
  omega

/-! ## A failed temperature source (06 R200) -/

/-- The part with the fallback of channel `c` shown and EV23 raised. -/
def Dev.fallbackShown (d : Dev) (c : Nat) : Dev := (d.setBitO (0x3600 + c) 8 3 true).raiseEv 23

/-- A source without a valid sample for 32 000 ticks puts its channel into fallback, with one event. -/
theorem sourceFailure_falls {c : Nat} {d : Dev} (hs : d.get (0x3600 + c) 5 < 288) (ht : (d.cal (d.get (0x3600 + c) 5)).tempAt + 32000 ≤ d.now)
    (hb : d.bitO (0x3600 + c) 8 3 = false) : EventLogged (d.fallbackShown c) (sourceFailure c d) := by
  have hfall : sourceFailure c d = d.setFallback c true := by
    simp only [sourceFailure, calIx, hs, ht, decide_true, Bool.and_true, Dev.when_true]
  have hnew : ¬d.bitO (calIx c) 8 3 = true := Bool.eq_false_iff.mp hb
  rw [hfall, Dev.setFallback, Dev.fallbackAt, if_neg hnew]
  exact Dev.eventLogged_eventAt _ _ _ _ _ _ _

section
variable (d : Dev) (c : Nat)

theorem Dev.keepsObjs_fallbackShown : KeepsObjs [(0x3600 + c, 8), evObj 23] d (d.fallbackShown c) :=
  ((KeepsObjs.refl _ d).set (by simp) (by decide) _).raiseEv (by simp) (by decide)

theorem Dev.evPending_fallbackShown : (d.fallbackShown c).evPending 23 = true :=
  (Dev.evPending_raiseEv _ 23 23 (by decide) (by decide)).trans (if_pos rfl)

theorem Dev.bitO_fallbackShown : (d.fallbackShown c).bitO (0x3600 + c) 8 3 = true := by
  have hk : (d.fallbackShown c).get (0x3600 + c) 8 = (d.setBitO (0x3600 + c) 8 3 true).get (0x3600 + c) 8 :=
    Dev.get_raiseEv_ne _ 23 _ _ (okey_ne_of_ix (by omega) (by decide) (by decide))
  exact (congrArg (Nat.testBit · 3) hk).trans ((Dev.bitO_setBitO _ _ _ _ _ _).trans (if_pos rfl))

end

/-! ## The sealed check (06 R225) -/

/-- A good record is passed over. -/
theorem checkRecord_good {c : Nat} {d : Dev} (h : calGood d c = true) : checkRecord c d = d := Dev.when_neg (by rw [h]; rfl) _ d

/-- A record whose CRC does not match logs one event and raises EV3. -/
theorem checkRecord_bad {c : Nat} {d : Dev} (h : calGood d c = false) : ∃ f, EventLogged d f ∧ checkRecord c d = f.raiseEv 3 :=
  ⟨_, d.eventLogged_eventAt d.now 0x000F 0xFF c [] [], Dev.when_pos (by rw [h]; rfl) _ d⟩

theorem keepsObjs_checkRecord (c : Nat) (d : Dev) : KeepsObjs ([evObj 3] ++ eventObjs) d (checkRecord c d) := by
  cases h : calGood d c with
  | true =>
    rw [checkRecord_good h]
    exact KeepsObjs.refl _ d
  | false =>
    obtain ⟨f, hf, he⟩ := checkRecord_bad h
    rw [he]
    exact hf.keepsObjs_then ((KeepsObjs.refl _ f).raiseEv (by simp) (by decide))

theorem onlyLogged_checkRecord (c : Nat) (d : Dev) : OnlyLogged d (checkRecord c d) := by
  cases h : calGood d c with
  | true =>
    rw [checkRecord_good h]
    exact OnlyLogged.refl d
  | false =>
    obtain ⟨f, hf, he⟩ := checkRecord_bad h
    rw [he]
    exact hf.onlyLogged.raiseEv 3

theorem number_checkRecord (c : Nat) (d : Dev) : (checkRecord c d).get 0x4D40 1 = d.get 0x4D40 1 + (!calGood d c).toNat := by
  cases h : calGood d c with
  | true => rw [checkRecord_good h]; rfl
  | false =>
    obtain ⟨f, hf, he⟩ := checkRecord_bad h
    rw [he]
    exact hf.number_then ((KeepsObjs.refl [evObj 3] f).raiseEv (by simp) (by decide)) (by decide)

theorem evPending_checkRecord (c : Nat) (d : Dev) : (checkRecord c d).evPending 3 = (d.evPending 3 || !calGood d c) := by
  cases h : calGood d c with
  | true => rw [checkRecord_good h, Bool.not_true, Bool.or_false]
  | false =>
    obtain ⟨f, -, he⟩ := checkRecord_bad h
    rw [he, Dev.evPending_raiseEv f 3 3 (by decide) (by decide), if_pos rfl, Bool.not_false, Bool.or_true]

theorem keepsObjs_checkRecords (n : Nat) (d : Dev) : KeepsObjs ([evObj 3] ++ eventObjs) d (each n checkRecord d) :=
  each_preserves (KeepsObjs ([evObj 3] ++ eventObjs) d) n checkRecord (fun c _ e he => he.trans (keepsObjs_checkRecord c e)) d (KeepsObjs.refl _ d)

theorem onlyLogged_checkRecords (n : Nat) (d : Dev) : OnlyLogged d (each n checkRecord d) :=
  each_preserves (OnlyLogged d) n checkRecord (fun c _ e he => he.trans (onlyLogged_checkRecord c e)) d (OnlyLogged.refl d)

/-- The checks write one event for each record that does not match. -/
theorem number_checkRecords {n : Nat} (hn : n ≤ 288) (d : Dev) :
    (each n checkRecord d).get 0x4D40 1 = d.get 0x4D40 1 + ((List.range n).filter fun c => !calGood d c).length := by
  induction n with
  | zero => rfl
  | succ n ih =>
    have hgood : calGood (each n checkRecord d) n = calGood d n := calGood_of_onlyLogged (by omega) (onlyLogged_checkRecords n d)
    rw [each_succ, number_checkRecord, ih (by omega), hgood, List.range_succ, List.filter_append, List.length_append, Nat.add_assoc]
    cases h : calGood d n <;> simp [h]

/-- EV3 is pending after the checks where it was before, or where a record does not match. -/
theorem evPending_checkRecords {n : Nat} (hn : n ≤ 288) (d : Dev) :
    (each n checkRecord d).evPending 3 = (d.evPending 3 || (List.range n).any fun c => !calGood d c) := by
  induction n with
  | zero => exact (Bool.or_false _).symm
  | succ n ih =>
    have hgood : calGood (each n checkRecord d) n = calGood d n := calGood_of_onlyLogged (by omega) (onlyLogged_checkRecords n d)
    rw [each_succ, evPending_checkRecord, ih (by omega), hgood, List.range_succ, List.any_append, Bool.or_assoc]
    simp

/-- In the Sealed state, 32 000 ticks after the check before, every record is checked. -/
theorem recordCheck_due {d : Dev} (h : d.isSealed = true) (ht : d.tick.calCheck + 32000 ≤ d.now) :
    recordCheck d = each 288 checkRecord { d with tick := { d.tick with calCheck := d.now } } :=
  Dev.when_pos (Bool.and_eq_true_iff.mpr ⟨h, decide_eq_true ht⟩) _ d

/-- Out of the Sealed state nothing is checked. -/
theorem recordCheck_unsealed {d : Dev} (h : d.isSealed = false) : recordCheck d = d := Dev.when_neg (by rw [h, Bool.false_and]) _ d

/-! ## The six commands -/

/-- Settles O28: a write to a constant logs its event, rewrites the record and ends a capture; captures and the failed source follow the
equations of their meanings; the sealed check is a loop over the records, of which no step changes what MRAM holds of another. -/
theorem calibrationAndCaptures : Obligations.CalibrationAndCaptures := by
  unfold Obligations.CalibrationAndCaptures
  refine ⟨?constant, ?start, ?cancel, ?complete, ?source, ?sealed, ?unsealed⟩
  case constant =>
    intro s role c sub v h h1 h4
    refine completes_onDev rfl ?_
    rw [writeCal_done (by omega) h]
    have hl := onlyLogged_effCal role c h4 v s.dev
    obtain ⟨f, hf, he⟩ := effCal_steps role c h4 v s.dev
    rw [he] at hl ⊢
    have hk := f.keepsObjs_calRewritten c v h4
    have hw := f.keepsObjs_constWritten c (sub := sub) v
    obtain ⟨hval, hcount, htick⟩ := f.get_constWritten c v h4
    have hold : f.get (0x3600 + c) 0xA = s.dev.get (0x3600 + c) 0xA := hf.keepsObjs _ 0xA (by decide) (by simp [eventObjs])
    have hn : (0x4D40, 1) ∉ [(0x3600 + c.val, sub), (0x3600 + c.val, 0xA), (0x3600 + c.val, 0xB), (0x3600 + c.val, 0xE)] := by simp; omega
    refine ⟨(hw _ _ (by omega) (by simp; omega)).trans hval, (hw _ _ (by decide) (by simp)).trans (hcount.trans (by rw [hold])),
      (hw _ _ (by decide) (by simp)).trans (htick.trans hf.effTick), rfl, f.record_calRewritten c v c.isLt, hf.number_then hk hn,
      hf.keepsObjs_then hk, ?_, hl⟩
    exact (hf.keepsBlobs _).trans ((f.keepsBlobs_constWritten c v).rebase rfl)
  case start =>
    intro s role c v h hv
    refine completes_onDev rfl ?_
    rw [writeCapture_done h, effCapture_start hv]
    exact ⟨(Dev.get_set_ne _ _ _ _ _ _ (okey_ne_of_sub _ (by decide))).trans (Dev.get_set_same _ _ _ _), Dev.get_set_same _ _ _ _,
      congrArg CalRec.cap (Dev.cal_setCal _ _ _),
      (((KeepsObjs.refl _ s.dev).set (by simp) (by decide) v).set (by simp) (by decide) 1).of_objs_eq rfl, rfl⟩
  case cancel =>
    intro s role c h
    refine completes_onDev rfl ?_
    rw [writeCapture_done h, effCapture_cancel]
    exact ⟨Dev.get_set_same _ _ _ _, Dev.getB_setB_same _ _ _ _, congrArg CalRec.cap (Dev.cal_setCal _ _ _),
      (((KeepsObjs.refl _ s.dev).set (by simp) (by decide) 0).set (by simp) (by decide) 0).of_objs_eq rfl,
      KeepsBlobs.of_blobs_eq ((KeepsBlobs.refl _ s.dev).setB (by simp) (by decide) (zeros 64)) rfl, rfl⟩
  case complete =>
    intro s c hr hs ht
    refine completes_onRun rfl hr ?_
    rw [captureComplete_ends hs ht]
    have hstatus := Dev.get_set_same s.dev (0x3600 + c) 0xE (setField (s.dev.get (0x3600 + c) 0xE) 0 2 2)
    refine ⟨(congrArg (· % 4) hstatus).trans (setField_status_mod _), fun j hj => ?_, Dev.getB_setB_same _ _ _ _,
      ((KeepsObjs.refl _ s.dev).set (by simp) (by decide) _).of_objs_eq rfl,
      KeepsBlobs.of_blobs_eq ((KeepsBlobs.refl _ s.dev).setB (by simp) (by decide) _) rfl, rfl⟩
    exact (congrArg (Nat.testBit · j) hstatus).trans ((testBit_setField _ _ _ _ _).trans (if_neg (by omega)))
  case source =>
    intro s c hr hs ht hb
    refine completes_onRun rfl hr ?_
    have hf := sourceFailure_falls hs ht hb
    have hk := s.dev.keepsObjs_fallbackShown c
    have hshown : (sourceFailure c s.dev).get (0x3600 + c) 8 = (s.dev.fallbackShown c).get (0x3600 + c) 8 :=
      hf.keepsObjs _ 8 (by decide) (by simp [eventObjs])
    have hlog : OnlyLogged s.dev (s.dev.fallbackShown c) := ((OnlyLogged.refl s.dev).set _ _ _).raiseEv 23
    exact ⟨(congrArg (Nat.testBit · 3) hshown).trans (s.dev.bitO_fallbackShown c),
      (hf.evPending (by decide)).trans (s.dev.evPending_fallbackShown c),
      hf.number_of_keeps hk (by simp [evObj]), hk.then_event hf, hlog.trans hf.onlyLogged⟩
  case sealed =>
    intro s hr h ht
    refine completes_onRun rfl hr ?_
    rw [recordCheck_due h ht]
    have hl := onlyLogged_checkRecords 288 { s.dev with tick := { s.dev.tick with calCheck := s.dev.now } }
    exact ⟨congrArg (fun z : Dev => z.tick.calCheck) hl.1, number_checkRecords (Nat.le_refl _) _, evPending_checkRecords (Nat.le_refl _) _,
      (keepsObjs_checkRecords 288 _).rebase rfl, hl⟩
  case unsealed =>
    intro s hr h
    exact completes_onRun rfl hr (recordCheck_unsealed h)

end Sys2Proof.Machine
end

section
/-! Civil time (chapter 07): a step, a slew and the hourly copy into the battery clock. -/
namespace Sys2Proof.Machine

open Sys2Proof

/-! ## The marks of the meters (07 R230) -/

/-- The objects that hold the billing marks of the meters. -/
def markObjs : List (Nat × Nat) := (List.range 36).map fun m => (meterIx m + 8, 6)

theorem mem_markObjs {m : Nat} (h : m < 36) : (meterIx m + 8, 6) ∈ markObjs := List.mem_map.mpr ⟨m, List.mem_range.mpr h, rfl⟩

/-- The objects above the meters hold no marks. -/
theorem not_mem_markObjs {ix : Nat} (h : 0x4900 ≤ ix) (sub : Nat) : (ix, sub) ∉ markObjs := fun hm => by
  obtain ⟨m, hm, hx⟩ := List.mem_map.mp hm
  have hix : meterIx m + 8 = ix := (Prod.ext_iff.mp hx).1
  have := List.mem_range.mp hm
  unfold meterIx at hix
  omega

theorem KeepsObjs.setMark {but : List (Nat × Nat)} {d e : Dev} (h : KeepsObjs but d e) (hb : markObjs ⊆ but) {m : Nat} (hm : m < 36)
    (i : Nat) (b : Bool) : KeepsObjs but d (e.setBitO (meterIx m + 8) 6 i b) :=
  h.set (hb (mem_markObjs hm)) (by decide) _

/-! ## The validity of civil time (07 R235) -/

/-- The part with the validity of civil time set to `v` and shown at 0x4A90.05 and on every meter, and EV28 raised. -/
def Dev.validShown (d : Dev) (v : Bool) : Dev :=
  (each 36 (fun m d => d.setBitO (meterIx m + 8) 6 0 (!v)) (Dev.set { d with civil := { d.civil with valid := v } } 0x4A90 5 (b2n v))).raiseEv 28

theorem Dev.validShown_parts (d : Dev) (v : Bool) : ∃ o, d.validShown v = { d with objs := o, civil := { d.civil with valid := v } } := by
  have h := each_preserves (fun e => ∃ o, e = { d with objs := o, civil := { d.civil with valid := v } }) 36
    (fun m d => d.setBitO (meterIx m + 8) 6 0 (!v)) (fun m _ e ⟨_, he⟩ => ⟨_, congrArg (Dev.setBitO · (meterIx m + 8) 6 0 (!v)) he⟩)
    (Dev.set { d with civil := { d.civil with valid := v } } 0x4A90 5 (b2n v)) ⟨_, rfl⟩
  obtain ⟨o, ho⟩ := h
  exact ⟨_, congrArg (Dev.raiseEv · 28) ho⟩

/-- The objects that a change of validity may change beside the metrology event log. -/
def validObjs : List (Nat × Nat) := markObjs ++ [(0x4A90, 5), evObj 28]

theorem Dev.keepsObjs_validShown (d : Dev) (v : Bool) : KeepsObjs validObjs d (d.validShown v) := by
  refine KeepsObjs.raiseEv ?_ (by simp [validObjs]) (by decide)
  refine each_preserves (KeepsObjs validObjs d) 36 _ (fun m hm e he => he.setMark (List.subset_append_left _ _) hm 0 _) _ ?_
  exact KeepsObjs.set ((KeepsObjs.refl _ d).of_objs_eq rfl) (by simp [validObjs]) (by decide) _

/-- Civil time that has the validity already stays as it is; a change is shown, then logged. -/
theorem Dev.setCivilValid_cases (d : Dev) (t : Nat) (v : Bool) :
    (d.civil.valid = v ∧ d.setCivilValid t v = d) ∨ EventLogged (d.validShown v) (d.setCivilValid t v) := by
  unfold Dev.setCivilValid
  by_cases h : d.civil.valid = v
  · exact .inl ⟨h, if_pos h⟩
  · rw [if_neg h]
    exact .inr (Dev.eventLogged_eventAt _ _ _ _ _ _ _)

theorem Dev.setCivilValid_parts (d : Dev) (t : Nat) (v : Bool) :
    ∃ o b l w, d.setCivilValid t v = { d with objs := o, blobs := b, log := l, vcs := w, civil := { d.civil with valid := v } } := by
  obtain ⟨h, he⟩ | h := d.setCivilValid_cases t v
  · rw [he, ← h]
    exact ⟨_, _, _, _, rfl⟩
  · obtain ⟨o, ho⟩ := d.validShown_parts v
    obtain ⟨o', b, l, w, he⟩ := h.parts
    rw [he, ho]
    exact ⟨_, _, _, _, rfl⟩

theorem Dev.keepsObjs_setCivilValid (d : Dev) (t : Nat) (v : Bool) : KeepsObjs (validObjs ++ eventObjs) d (d.setCivilValid t v) := by
  obtain ⟨-, he⟩ | h := d.setCivilValid_cases t v
  · rw [he]
    exact KeepsObjs.refl _ d
  · exact (d.keepsObjs_validShown v).then_event h

theorem Dev.keepsBlobs_setCivilValid (d : Dev) (t : Nat) (v : Bool) : KeepsBlobs [] d (d.setCivilValid t v) := by
  obtain ⟨-, he⟩ | h := d.setCivilValid_cases t v
  · rw [he]
    exact KeepsBlobs.refl _ d
  · obtain ⟨o, ho⟩ := d.validShown_parts v
    exact (h.keepsBlobs []).rebase (by rw [ho])

/-! ## The demand windows (07 R244) -/

/-- The part with the demand window of meter `m` restarted. -/
def Dev.windowRestarted (stepped : Bool) (m : Nat) (d : Dev) : Dev :=
  (d.setMeter m { d.meter m with window := [], stepped := (d.meter m).stepped || stepped }).setBitO (meterIx m + 8) 6 2 true

theorem Dev.restartWindows_eq (d : Dev) (stepped : Bool) : d.restartWindows stepped = each 36 (Dev.windowRestarted stepped) d := rfl

theorem Dev.restartWindows_parts (d : Dev) (stepped : Bool) : ∃ o ms, d.restartWindows stepped = { d with objs := o, meters := ms } := by
  rw [Dev.restartWindows_eq]
  refine each_preserves (fun e => ∃ o ms, e = { d with objs := o, meters := ms }) 36 _ (fun m _ e he => ?_) d ⟨_, _, rfl⟩
  obtain ⟨o, ms, rfl⟩ := he
  exact ⟨_, _, rfl⟩

theorem Dev.keepsObjs_restartWindows (d : Dev) (stepped : Bool) : KeepsObjs markObjs d (d.restartWindows stepped) := by
  rw [Dev.restartWindows_eq]
  refine each_preserves (KeepsObjs markObjs d) 36 _ (fun m hm e he => ?_) d (KeepsObjs.refl _ d)
  exact KeepsObjs.setMark (he.of_objs_eq rfl) (List.Subset.refl _) hm 2 true

/-- The demand window of meter `m`, and its mark of not being full yet. -/
def Dev.windowShown (m : Nat) (d : Dev) : List SubRec × Bool := ((d.meter m).window, d.bitO (meterIx m + 8) 6 2)

theorem Dev.windowShown_same (stepped : Bool) (m : Nat) (d : Dev) : (d.windowRestarted stepped m).windowShown m = ([], true) :=
  Prod.ext (congrArg MeterRec.window (tget_tset_same _ _ _ _)) ((Dev.bitO_setBitO _ _ _ _ _ _).trans (if_pos rfl))

theorem Dev.windowShown_ne (stepped : Bool) (m k : Nat) (d : Dev) (h : k ≠ m) : (d.windowRestarted stepped m).windowShown k = d.windowShown k := by
  have hix : meterIx m + 8 ≠ meterIx k + 8 := by unfold meterIx; omega
  refine Prod.ext (congrArg MeterRec.window (tget_tset_ne _ _ _ _ _ h.symm)) ?_
  exact congrArg (Nat.testBit · 2) (Dev.get_setBitO_ne _ _ _ _ _ _ _ (okey_ne_of_ix hix (by decide) (by decide)))

/-- Every window is empty afterwards, and marked as not yet full. -/
theorem Dev.windows_restartWindows (d : Dev) (stepped : Bool) {m : Nat} (hm : m < 36) :
    ((d.restartWindows stepped).meter m).window = [] ∧ (d.restartWindows stepped).bitO (meterIx m + 8) 6 2 = true := by
  have h := each_at Dev.windowShown (Dev.windowRestarted stepped) (fun _ _ => ([], true)) (Dev.windowShown_same stepped)
    (Dev.windowShown_ne stepped) 36 m d
  rw [if_pos hm] at h
  simpa only [Dev.restartWindows_eq, Dev.windowShown, Prod.mk.injEq] using h

/-! ## A step (07 R234) -/

/-- The part with a step of civil time at tick `t` counted, and a slew in progress dropped. -/
def Dev.stepCounted (d : Dev) (t : Nat) : Dev := ((d.set 0x4A90 4 0).inc 0x4A90 6).set 0x4A90 7 t

theorem Dev.get_stepCounted (d : Dev) (t : Nat) : (d.stepCounted t).get 0x4A90 4 = 0
    ∧ (d.stepCounted t).get 0x4A90 6 = satAdd 32 (d.get 0x4A90 6) 1 ∧ (d.stepCounted t).get 0x4A90 7 = t := by
  simp [Dev.stepCounted, Dev.inc, Dev.satInc, Dev.get_set, okey_inj]

/-- The battery clock alone takes the copy. -/
theorem Dev.copyToClock_parts (d : Dev) (n : Nat) : ∃ x, d.copyToClock n = { d with tamper := x } := by
  unfold Dev.copyToClock
  split
  · exact ⟨_, rfl⟩
  · exact ⟨_, rfl⟩

/-- The pair of device time and civil time that the bytes of a step give. -/
def civilPair (valid : Bool) (v : Bytes) : CivilRec := { valid := valid, base := (leAt v 0 8 : Int), secs := leAt v 8 8, frac := leAt v 16 4 }

/-- A step sets the pair and logs its event, is counted, makes civil time valid, goes into the battery clock and restarts the windows. -/
theorem effStep_steps (role : Role) (v : Bytes) (d : Dev) :
    ∃ f, EventLogged { d with civil := civilPair d.civil.valid v } f
      ∧ effStep role v d = (((f.stepCounted d.effTick).setCivilValid d.effTick true).copyToClock d.effTick).restartWindows true :=
  ⟨_, Dev.eventLogged_eventEff _ _ _ _ _ _, rfl⟩

section
variable (role : Role) (v : Bytes) (d : Dev)

theorem effStep_parts : ∃ o b l w x ms, effStep role v d
    = { d with objs := o, blobs := b, log := l, vcs := w, tamper := x, meters := ms, civil := civilPair true v } := by
  obtain ⟨f, hf, he⟩ := effStep_steps role v d
  obtain ⟨o, b, l, w, hp⟩ := hf.parts
  obtain ⟨o', b', l', w', hv⟩ := (f.stepCounted d.effTick).setCivilValid_parts d.effTick true
  obtain ⟨x, hx⟩ := ((f.stepCounted d.effTick).setCivilValid d.effTick true).copyToClock_parts d.effTick
  obtain ⟨o'', ms, hr⟩ := (((f.stepCounted d.effTick).setCivilValid d.effTick true).copyToClock d.effTick).restartWindows_parts true
  rw [he, hr, hx, hv, hp]
  exact ⟨_, _, _, _, _, _, rfl⟩

theorem keepsBlobs_effStep : KeepsBlobs [] d (effStep role v d) := by
  obtain ⟨f, hf, he⟩ := effStep_steps role v d
  have hb := (hf.keepsBlobs []).rebase (d' := d) rfl
  have hv := ((f.stepCounted d.effTick).keepsBlobs_setCivilValid d.effTick true).rebase (d' := f) rfl
  obtain ⟨x, hx⟩ := ((f.stepCounted d.effTick).setCivilValid d.effTick true).copyToClock_parts d.effTick
  obtain ⟨o, ms, hr⟩ := (((f.stepCounted d.effTick).setCivilValid d.effTick true).copyToClock d.effTick).restartWindows_parts true
  rw [he]
  exact (hb.trans hv).of_blobs_eq (by rw [hr, hx])

/-- What 0x4A90 shows of a step. -/
theorem get_effStep : (effStep role v d).get 0x4A90 4 = 0 ∧ (effStep role v d).get 0x4A90 6 = satAdd 32 (d.get 0x4A90 6) 1
    ∧ (effStep role v d).get 0x4A90 7 = d.now + 1 := by
  obtain ⟨f, hf, he⟩ := effStep_steps role v d
  obtain ⟨h4, h6, h7⟩ := f.get_stepCounted d.effTick
  have hevent : f.get 0x4A90 6 = d.get 0x4A90 6 := hf.keepsObjs _ _ (by decide) (by simp [eventObjs])
  obtain ⟨x, hx⟩ := ((f.stepCounted d.effTick).setCivilValid d.effTick true).copyToClock_parts d.effTick
  have hcopied : KeepsObjs (validObjs ++ eventObjs) (f.stepCounted d.effTick)
      (((f.stepCounted d.effTick).setCivilValid d.effTick true).copyToClock d.effTick) :=
    ((f.stepCounted d.effTick).keepsObjs_setCivilValid d.effTick true).of_objs_eq (by rw [hx])
  have hmarks : markObjs ⊆ validObjs ++ eventObjs := fun _ hm => List.mem_append_left _ (List.mem_append_left _ hm)
  have hlater := hcopied.trans ((Dev.keepsObjs_restartWindows _ true).mono hmarks)
  rw [← he] at hlater
  have hkept {sub : Nat} (hs : sub < 256) (h5 : sub ≠ 5) : (effStep role v d).get 0x4A90 sub = (f.stepCounted d.effTick).get 0x4A90 sub :=
    hlater _ _ hs (by simp [validObjs, eventObjs, evObj, not_mem_markObjs, h5])
  rw [hkept (by decide) (by decide), hkept (by decide) (by decide), hkept (by decide) (by decide), h4, h6, h7, hevent]
  exact ⟨rfl, rfl, rfl⟩

/-- Beyond civil time, the battery clock and the records of the meters, a step writes the metrology event log alone. -/
theorem onlyLogged_effStep :
    let u := effStep role v d
    OnlyLogged { d with civil := u.civil, tamper := u.tamper, meters := u.meters } u := by
  have hb := keepsBlobs_effStep role v d
  obtain ⟨o, b, l, w, x, ms, he⟩ := effStep_parts role v d
  rw [he] at hb ⊢
  exact ⟨rfl, hb.rebase rfl⟩

theorem civil_effStep : (effStep role v d).civil = civilPair true v := by
  obtain ⟨o, b, l, w, x, ms, he⟩ := effStep_parts role v d
  rw [he]

theorem windows_effStep {m : Nat} (hm : m < 36) :
    ((effStep role v d).meter m).window = [] ∧ (effStep role v d).bitO (meterIx m + 8) 6 2 = true := by
  obtain ⟨f, -, he⟩ := effStep_steps role v d
  rw [he]
  exact Dev.windows_restartWindows _ true hm

end

/-! ## A slew (07 R234) -/

/-- A slew logs a Skein entry, is shown at 0x4A90.04 and is to be worked off in thousandths of a tick. -/
theorem effSlew_steps (role : Role) (v : Nat) (d : Dev) :
    ∃ x, effSlew role v d = { (d.skein x).set 0x4A90 4 v with civil := { (d.skein x).civil with slewLeft := sval 32 v * 32000 } } := ⟨_, rfl⟩

/-! ## The battery clock (07 R235) -/

/-- While the part works its tamper domain is supplied, so the copy at a whole hour is made. -/
theorem batteryCopy_hour {d : Dev} (hr : d.running = true) (hv : d.civil.valid = true) (hh : d.hourAt (d.now + 1) = true) :
    batteryCopy d = { d with tamper := { d.tamper with clock := some (clockOf (d.civilAt (d.now + 1))), rem := 0 } } := by
  have hloom : d.loom = .running := by
    simp only [Dev.running, Dev.ticking, Bool.and_eq_true, beq_iff_eq] at hr
    exact hr.1
  have hon : d.tamperOn = true := by simp [Dev.tamperOn, hloom]
  have hcopy : batteryCopy d = d.copyToClock (d.now + 1) := Dev.when_pos (Bool.and_eq_true_iff.mpr ⟨hv, hh⟩) _ _
  rw [hcopy, Dev.copyToClock, hon]
  rfl

/-! ## The three commands -/

/-- Settles O31: a step is a chain of updates, of which each says what it leaves of the updates before it; a slew logs its entry and takes its
value; the copy at a whole hour follows the equation of its meaning. -/
theorem civilTimeCommands : Obligations.CivilTimeCommands := by
  unfold Obligations.CivilTimeCommands
  refine ⟨?stepped, ?slewed, ?copied⟩
  case stepped =>
    intro s role v h
    refine completes_onDev (f := fun d => writeObj role 0x4A90 2 (.raw v) (stepRules d v) (effStepTime role v) d) rfl ?_
    rw [writeObj_of_accepts h]
    obtain ⟨h4, h6, h7⟩ := get_effStep role v s.dev
    exact ⟨rfl, civil_effStep role v s.dev, h4, h6, h7, fun m hm => windows_effStep role v s.dev hm, onlyLogged_effStep role v s.dev⟩
  case slewed =>
    intro s role v h
    refine completes_onDev rfl ?_
    rw [writeObj_of_accepts h]
    obtain ⟨x, he⟩ := effSlew_steps role v s.dev
    have hk : KeepsObjs ((0x4A90, 4) :: skeinObjs) s.dev ((s.dev.skein x).set 0x4A90 4 v) :=
      ((KeepsObjs.refl _ s.dev).skein (List.subset_cons_self _ _) x).set (by simp) (by decide) v
    rw [he]
    refine ⟨Dev.get_set_same _ _ _ v, rfl, rfl, hk.of_objs_eq rfl, ?_, (keepsBlobs_skein [] s.dev x).of_blobs_eq rfl⟩
    rw [Dev.skein_eq s.dev x]
    rfl
  case copied =>
    exact fun s hr hv hh => completes_onRun rfl hr (batteryCopy_hour hr hv hh)

end Sys2Proof.Machine
end

section
/-! The commit of a staged record (07 R264; 18 R515) where a request under a number that no requester has waits for a service. -/
namespace Sys2Proof.Machine

open Sys2Proof

/-- A part whose billing engine holds the MRAM write port at rank 7 with nothing staged, while a request numbered 38 waits for the SHAKE engine;
the requesters are 0 to 37 (18 R514). -/
def strayRequest : Dev :=
  { loom := .running, arb := { top := true, svcs := [(0, { waiting := [{ q := 38 }] }), (3, { grant := some { q := 32 } })] } }

/-- The fall of the billing engine's rank runs the contest, which grants the SHAKE engine and counts that for number 38. -/
theorem grants_stagedCommit_strayRequest : (stagedCommit strayRequest).get (reqIx 38) 4 ≠ strayRequest.get (reqIx 38) 4 := by
  decide +kernel

theorem stray_not_mem_rankObjs : (reqIx 38, 4) ∉ rankObjs ++ [] := by decide +kernel

/-- Refutes O30: its last clause, on STAGED_RECORD_COMMIT, bounds the objects that change by those of requesters 0 to 37 and asks nothing of the
requests that wait; from `strayRequest` the contest at the change of rank counts a grant at 0x2536.04. -/
theorem not_boundarySteps : ¬ Obligations.BoundarySteps := by
  unfold Obligations.BoundarySteps
  rintro ⟨-, -, -, -, -, hcommit⟩
  obtain ⟨e, he, ⟨hkeeps, -⟩, -⟩ := hcommit { dev := strayRequest } (by decide) (by decide)
  have hexec : exec .stagedRecordCommit { dev := strayRequest } = .next { dev := stagedCommit strayRequest } := onRun_next _ _ (by decide)
  have hdev : stagedCommit strayRequest = e := by
    rw [hexec] at he
    injection he with hs
    exact congrArg State.dev hs
  have hkept : e.get (reqIx 38) 4 = strayRequest.get (reqIx 38) 4 := hkeeps _ _ (by decide) stray_not_mem_rankObjs
  rw [← hdev] at hkept
  exact grants_stagedCommit_strayRequest hkept

end Sys2Proof.Machine
end

section
/-! SUPPORT. Captures of readings and the readings of a tick (08 R268 to R276). -/
namespace Sys2Proof.Machine

open Sys2Proof

/-! ## Captures (08 R270, R272) -/

theorem Dev.signs_of_key {d : Dev} {k : Bytes} (hk : d.key 8 = some k) (hl : 1 ≤ d.life ∧ d.life ≤ 3) : d.signs = true := by
  simp [Dev.signs, hk, hl]

/-- Without an active key nothing is captured. -/
theorem Dev.capture_unkeyed {d : Dev} (h : d.key 8 = none) (c : Capture) : d.capture c = d := by simp [Dev.capture, Dev.signs, h]

/-- Where readings are taken and the queue has room, a capture goes on the queue. -/
theorem Dev.capture_enqueues {d : Dev} (hm : d.upd.noMetrology = false) (hs : d.signs = true) (hq : d.reads.queue.length < 1024) (c : Capture) :
    d.capture c = d.enqueueReading c := by
  simp [Dev.capture, hm, hs, hq]

section
variable (d : Dev) (c : Capture)

/-- The reserved limit moves on or stays. -/
theorem Dev.numberReading_steps (hm : c.meter < 36) :
    ∃ e p, (e = d ∨ ∃ v, e = d.set 0x4D80 7 v)
      ∧ d.numberReading c = { e with reads := { d.reads with next := d.reads.next + 1, prev := p, restarted := false } } := by
  simp only [Dev.numberReading, Dev.when, if_pos hm]
  split
  · exact ⟨_, _, .inr ⟨_, rfl⟩, rfl⟩
  · exact ⟨_, _, .inl rfl, rfl⟩

/-- A captured reading of a meter takes the next number and stands last on the queue, unsigned. -/
theorem Dev.enqueueReading_parts (hm : c.meter < 36) :
    ∃ o p r, d.enqueueReading c
        = { d with objs := o, reads := { d.reads with next := d.reads.next + 1, prev := p, restarted := false, queue := d.reads.queue ++ [r] } }
      ∧ r.kind = c.kind ∧ r.meter = c.meter ∧ r.number = d.reads.next ∧ r.sig = none := by
  obtain ⟨e, p, he, hn⟩ := d.numberReading_steps c hm
  unfold Dev.enqueueReading
  rw [hn]
  obtain rfl | ⟨v, rfl⟩ := he
  · exact ⟨_, _, _, rfl, rfl, rfl, rfl, rfl⟩
  · exact ⟨_, _, _, rfl, rfl, rfl, rfl, rfl⟩

theorem Dev.keepsObjs_enqueueReading (hm : c.meter < 36) : KeepsObjs [(0x4D80, 3), (0x4D80, 7)] d (d.enqueueReading c) := by
  obtain ⟨e, p, he, hn⟩ := d.numberReading_steps c hm
  have hk : KeepsObjs [(0x4D80, 3), (0x4D80, 7)] d e := by
    obtain rfl | ⟨v, rfl⟩ := he
    · exact KeepsObjs.refl _ _
    · exact (KeepsObjs.refl _ d).set (by simp) (by decide) v
  unfold Dev.enqueueReading
  rw [hn]
  exact KeepsObjs.set (hk.of_objs_eq rfl) (by simp) (by decide) _

/-- The length of the queue is shown. -/
theorem Dev.get_enqueueReading (hm : c.meter < 36) : (d.enqueueReading c).get 0x4D80 3 = d.reads.queue.length + 1 := by
  obtain ⟨e, p, -, hn⟩ := d.numberReading_steps c hm
  unfold Dev.enqueueReading
  rw [hn]
  exact (Dev.get_set_same _ _ _ _).trans List.length_append

end

/-- A capture of the meter as it stands is one of its kind and its meter. -/
theorem Dev.captureNow_eq (d : Dev) (kind m asked : Nat) : ∃ c, d.captureNow kind m asked = d.capture c ∧ c.kind = kind ∧ c.meter = m :=
  ⟨_, rfl, rfl, rfl⟩

/-! ## The readings of a tick (08 R268, R272) -/

theorem startReadings_none {d : Dev} (h : d.reads.starts = []) : startReadings d = d := by
  have hr : { d.reads with starts := [] } = d.reads := by rw [← h]
  simp only [startReadings, h, hr]
  rfl

theorem periodicReadings_none {d : Dev} (h : d.reads.periodic = []) : periodicReadings d = d := by
  have hr : { d.reads with periodic := [] } = d.reads := by rw [← h]
  simp only [periodicReadings, h, hr]
  rfl

theorem periodicReadings_one {d : Dev} {m : Nat} (h : d.reads.periodic = [m]) :
    periodicReadings d = Dev.captureNow { d with reads := { d.reads with periodic := [] } } 5 m 0 := by
  simp only [periodicReadings, h]
  rfl

theorem askedReadings_none {d : Dev} (h : d.reads.asked = []) : askedReadings d = d := by
  have hr : { d.reads with asked := [] } = d.reads := by rw [← h]
  have hs : sortBy (fun a b : Nat × Nat => decide (a.2 ≤ b.2)) [] = [] := rfl
  unfold askedReadings
  split
  · rfl
  · simp only [h, List.filter_nil, hs, List.take_nil, List.foldl_nil, hr]

/-- A tick without readings ends as it is. -/
theorem tickReadings_done {d : Dev} (h : ReadingsDone d) : tickReadings d = d := by
  obtain ⟨hs, hp, ha⟩ := h
  rw [tickReadings, startReadings_none hs, periodicReadings_none hp, askedReadings_none ha]

/-- The one periodic reading of a tick is captured at its end. -/
theorem tickReadings_periodic {d : Dev} {m : Nat} (hs : d.reads.starts = []) (hp : d.reads.periodic = [m]) (ha : d.reads.asked = []) (hm : m < 36)
    (hmet : d.upd.noMetrology = false) (hsig : d.signs = true) (hq : d.reads.queue.length < 1024) :
    ∃ c : Capture, c.kind = 5 ∧ c.meter = m ∧ tickReadings d = Dev.enqueueReading { d with reads := { d.reads with periodic := [] } } c := by
  obtain ⟨c, hc, hk, hcm⟩ := Dev.captureNow_eq { d with reads := { d.reads with periodic := [] } } 5 m 0
  have hcap := Dev.capture_enqueues (d := { d with reads := { d.reads with periodic := [] } }) hmet hsig hq c
  obtain ⟨o, p, r, he, -⟩ := Dev.enqueueReading_parts { d with reads := { d.reads with periodic := [] } } c (hcm ▸ hm)
  refine ⟨c, hk, hcm, ?_⟩
  rw [tickReadings, startReadings_none hs, periodicReadings_one hp, hc, hcap]
  exact askedReadings_none (by rw [he]; exact ha)

end Sys2Proof.Machine
end

section
/-! Session records and signed readings (07 R256 to R259; chapter 08): what each command does where its condition holds. -/
namespace Sys2Proof.Machine

open Sys2Proof

/-! ## The close of a session record (07 R256 to R259) -/

/-- The part with the record `b` of session number `n` at `ix` and `sub`, staged and counted. -/
def Dev.sessionStored (d : Dev) (ix sub n : Nat) (b : Bytes) : Dev :=
  let latest := max (d.get 0x4E00 1) n
  ((d.stageBlob ix sub b { session := n }).set 0x4E00 1 latest).set 0x4E00 2 (max 1 (latest + 1 - 4096))

/-- The part with no open session on outlet `o`, and none before tick `t`. -/
def Dev.sessionEnded (d : Dev) (o t : Nat) : Dev :=
  { d with bill := { d.bill with sessions := tdel d.bill.sessions o, notBefore := tset d.bill.notBefore o t } }.setBitO (meterIx o + 8) 6 4 false

section
variable (d : Dev) (ix sub n : Nat) (b : Bytes)

theorem Dev.sessionStored_parts :
    ∃ ob bl st, d.sessionStored ix sub n b = { d with objs := ob, blobs := bl, bill := { d.bill with staging := st } } :=
  ⟨_, _, _, rfl⟩

theorem Dev.getB_sessionStored : (d.sessionStored ix sub n b).getB ix sub = b := Dev.getB_setB_same d _ _ b

theorem Dev.keepsBlobs_sessionStored (hs : sub < 256) : KeepsBlobs [(ix, sub)] d (d.sessionStored ix sub n b) :=
  KeepsBlobs.of_blobs_eq ((KeepsBlobs.refl _ d).setB (by simp) hs b) rfl

theorem Dev.keepsObjs_sessionStored : KeepsObjs [(0x4E00, 1), (0x4E00, 2)] d (d.sessionStored ix sub n b) :=
  (((KeepsObjs.refl _ d).of_objs_eq (f := d.stageBlob ix sub b { session := n }) rfl).set (by simp) (by decide) _).set (by simp) (by decide) _

/-- The latest number is the larger of the two. -/
theorem Dev.latest_sessionStored : (d.sessionStored ix sub n b).get 0x4E00 1 = max (d.get 0x4E00 1) n :=
  (Dev.get_set_ne _ _ _ _ _ _ (by decide)).trans (Dev.get_set_same _ _ _ _)

end

section
variable (d : Dev) (o t : Nat)

theorem Dev.sessionEnded_parts : ∃ ob, d.sessionEnded o t
    = { d with objs := ob, bill := { d.bill with sessions := tdel d.bill.sessions o, notBefore := tset d.bill.notBefore o t } } :=
  ⟨_, rfl⟩

theorem Dev.keepsObjs_sessionEnded : KeepsObjs [(meterIx o + 8, 6)] d (d.sessionEnded o t) :=
  KeepsObjs.set ((KeepsObjs.refl _ d).of_objs_eq rfl) (by simp) (by decide) _

theorem Dev.blobs_sessionEnded : (d.sessionEnded o t).blobs = d.blobs := rfl

theorem Dev.getB_sessionEnded (ix sub : Nat) : (d.sessionEnded o t).getB ix sub = d.getB ix sub := rfl

/-- The meter's mark of an open session is clear. -/
theorem Dev.mark_sessionEnded : (d.sessionEnded o t).bitO (meterIx o + 8) 6 4 = false := (Dev.bitO_setBitO _ _ _ _ _ _).trans (if_pos rfl)

end

/-- The part with the session of outlet `o` closed: its record stored, the outlet free again at tick `t`. -/
def Dev.sessionClosed (d : Dev) (o t ix sub n : Nat) (b : Bytes) : Dev := (d.sessionStored ix sub n b).sessionEnded o t

section
variable (d : Dev) (o t ix sub n : Nat) (b : Bytes)

theorem Dev.sessionClosed_parts : ∃ ob bl bi, d.sessionClosed o t ix sub n b = { d with objs := ob, blobs := bl, bill := bi }
    ∧ tfind bi.sessions o = none ∧ tfind bi.notBefore o = some t := by
  obtain ⟨ob, bl, st, hs⟩ := d.sessionStored_parts ix sub n b
  obtain ⟨ob', he⟩ := (d.sessionStored ix sub n b).sessionEnded_parts o t
  unfold Dev.sessionClosed
  rw [he, hs]
  exact ⟨_, _, _, rfl, tfind_tdel_same _ _, tfind_tset_same _ _ _⟩

theorem Dev.getB_sessionClosed : (d.sessionClosed o t ix sub n b).getB ix sub = b :=
  (Dev.getB_sessionEnded _ o t ix sub).trans (d.getB_sessionStored ix sub n b)

theorem Dev.keepsBlobs_sessionClosed (hs : sub < 256) : KeepsBlobs [(ix, sub)] d (d.sessionClosed o t ix sub n b) :=
  (d.keepsBlobs_sessionStored ix sub n b hs).of_blobs_eq (Dev.blobs_sessionEnded _ o t)

theorem Dev.keepsObjs_sessionClosed : KeepsObjs [(0x4E00, 1), (0x4E00, 2), (meterIx o + 8, 6)] d (d.sessionClosed o t ix sub n b) :=
  ((d.keepsObjs_sessionStored ix sub n b).mono (List.subset_append_left _ [_])).trans
    ((Dev.keepsObjs_sessionEnded _ o t).mono (List.subset_append_right [_, _] _))

theorem Dev.mark_sessionClosed : (d.sessionClosed o t ix sub n b).bitO (meterIx o + 8) 6 4 = false := Dev.mark_sessionEnded _ o t

theorem Dev.latest_sessionClosed : (d.sessionClosed o t ix sub n b).get 0x4E00 1 = max (d.get 0x4E00 1) n := by
  have hn : (0x4E00, 1) ∉ [(meterIx o + 8, 6)] := by simp
  exact (Dev.keepsObjs_sessionEnded _ o t _ _ (by decide) hn).trans (d.latest_sessionStored ix sub n b)

end

/-- A session that is closed has its record stored; its reading is captured, and the record goes on its stream. -/
theorem closeSession_steps {d : Dev} {o : Nat} {x : SessRec} (hs : tfind d.bill.sessions o = some x) (e : SessEnd) :
    ∃ z c, let b := sessionBytes d o x (some z)
      closeSession o e d = ((d.sessionClosed o (x.ended.getD d.now + 1087) (slotIx 0x4E20 (x.number % 4096)) (slotSub (x.number % 4096)) x.number
        b).capture c).stream 2 ⟨0x20, x.number, b⟩ := by
  unfold closeSession
  rw [hs]
  exact ⟨_, _, rfl⟩

/-- A session 1 086 ticks after its end is closed. -/
theorem sessionClose_due {d : Dev} {o : Nat} {x : SessRec} {t : Nat} (hs : tfind d.bill.sessions o = some x) (he : x.ended = some t)
    (ht : t + 1086 ≤ d.now) (hw : d.stepWaits = false) : ∃ e, sessionClose o d = closeSession o e d := by
  have hc : (decide (t + 1086 ≤ d.now) && !d.stepWaits) = true := by simp [ht, hw]
  simp only [sessionClose, hs, he]
  rw [if_pos hc]
  exact ⟨_, rfl⟩

/-- Bytes that begin with those of a number give them back. -/
theorem take_natLE_of_isPrefix {n v : Nat} {b : Bytes} (h : natLE n v <+: b) : b.take n = natLE n v := by
  rw [List.prefix_iff_eq_take, natLE_length] at h
  exact h.symm

/-- A session record begins with its number. -/
theorem sessionBytes_take (d : Dev) (o : Nat) (x : SessRec) (z : Option SessEnd) : (sessionBytes d o x z).take 4 = natLE 4 x.number := by
  refine take_natLE_of_isPrefix ?_
  unfold sessionBytes sessionBody
  dsimp only
  simp only [List.append_assoc, List.prefix_append]

/-- Without an active key no reading is captured at the close of a session. -/
theorem sessionClose_unkeyed {d : Dev} {o : Nat} {x : SessRec} {t : Nat} (hs : tfind d.bill.sessions o = some x) (he : x.ended = some t)
    (ht : t + 1086 ≤ d.now) (hw : d.stepWaits = false) (hk : d.key 8 = none) :
    ∃ b, b.take 4 = natLE 4 x.number
      ∧ sessionClose o d = (d.sessionClosed o (t + 1087) (slotIx 0x4E20 (x.number % 4096)) (slotSub (x.number % 4096)) x.number b).stream 2
          ⟨0x20, x.number, b⟩ := by
  obtain ⟨e, hd⟩ := sessionClose_due hs he ht hw
  obtain ⟨z, c, hc⟩ := closeSession_steps hs e
  obtain ⟨ob, bl, bi, hp, -⟩ := d.sessionClosed_parts o (t + 1087) (slotIx 0x4E20 (x.number % 4096)) (slotSub (x.number % 4096)) x.number
    (sessionBytes d o x (some z))
  refine ⟨_, sessionBytes_take d o x (some z), ?_⟩
  rw [hd, hc, he, Option.getD_some, Dev.capture_unkeyed]
  rw [hp]
  exact hk

/-! ## Signing and giving out (08 R272, R273) -/

theorem findIx_head {α : Type} {p : α → Bool} {x : α} (l : List α) (h : p x = true) (i : Nat) : findIx p (x :: l) i = some i := if_pos h

/-- The part with queue `q` of readings and its length shown. -/
def Dev.queueLeft (d : Dev) (q : List ReadingRec) : Dev := { d with reads := { d.reads with queue := q } }.set 0x4D80 3 q.length

section
variable {d : Dev} {r : ReadingRec} {q : List ReadingRec} (hq : d.reads.queue = r :: q)
include hq

theorem readingSigned_first (hs : r.sig = none) (hk : r.key ≠ []) :
    readingSigned d = { d with reads := { d.reads with
      queue := { r with sig := some (padTo 114 (ed448Sign r.key readingContext r.content)) } :: q } } := by
  have hix : unsignedIx d = some 0 := by
    unfold unsignedIx
    rw [hq]
    exact findIx_head q (by simp [hs, hk]) 0
  simp only [readingSigned, hix, hq]
  rfl

/-- The first reading, signed and found right, is given out from the part with the rest of the queue. -/
theorem readingGivenOut_first {g : Bytes} (hs : r.sig = some g) (hv : r.verified = true) :
    readingGivenOut d = giveOut r (d.queueLeft q) := by
  have hix : signedIx d = some 0 := by
    unfold signedIx
    rw [hq]
    exact findIx_head q (by simp [hs]) 0
  simp only [readingGivenOut, hix, hq, List.getD_cons_zero, hv, Dev.when_true, List.eraseIdx_cons_zero, Dev.queueLeft]

end

section
variable (r : ReadingRec) (d : Dev)

/-- The part with reading `r` in the store and as the latest of its meter. -/
def Dev.readingStored (d : Dev) (r : ReadingRec) : Dev :=
  let b := r.content ++ r.sig.getD []
  Dev.when (decide (r.meter < 36)) (fun d => d.setB (0x4D90 + r.meter) 1 b)
    ((d.setB (slotIx 0x4DC0 (r.number % 4096)) (slotSub (r.number % 4096)) b).set 0x4D80 1 (max (d.get 0x4D80 1) r.number))

/-- A reading given out is stored, then streamed. -/
theorem giveOut_eq : giveOut r d = (d.readingStored r).stream 3 ⟨0x30, r.number, r.content ++ r.sig.getD []⟩ := rfl

theorem Dev.readingStored_parts :
    ∃ bl, d.readingStored r = { d.set 0x4D80 1 (max (d.get 0x4D80 1) r.number) with blobs := bl } := by
  unfold Dev.readingStored Dev.when
  split
  · exact ⟨_, rfl⟩
  · exact ⟨_, rfl⟩

theorem giveOut_parts : ∃ bl w, giveOut r d = { d.set 0x4D80 1 (max (d.get 0x4D80 1) r.number) with blobs := bl, vcs := w } := by
  obtain ⟨bl, hb⟩ := d.readingStored_parts r
  rw [giveOut_eq, Dev.stream_eq, hb]
  exact ⟨_, _, rfl⟩

theorem keepsObjs_giveOut : KeepsObjs [(0x4D80, 1)] d (giveOut r d) := by
  have hset : KeepsObjs [(0x4D80, 1)] d (d.set 0x4D80 1 (max (d.get 0x4D80 1) r.number)) := (KeepsObjs.refl _ d).set (by simp) (by decide) _
  obtain ⟨bl, w, hp⟩ := giveOut_parts r d
  exact hset.of_objs_eq (by rw [hp])

/-- The latest number given out is the larger of the two. -/
theorem latest_giveOut : (giveOut r d).get 0x4D80 1 = max (d.get 0x4D80 1) r.number := by
  obtain ⟨bl, w, hp⟩ := giveOut_parts r d
  rw [hp]
  exact Dev.get_set_same d _ _ _

theorem keepsBlobs_giveOut :
    KeepsBlobs [(slotIx 0x4DC0 (r.number % 4096), slotSub (r.number % 4096)), (0x4D90 + r.meter, 1)] d (giveOut r d) := by
  have hslot : KeepsBlobs [(slotIx 0x4DC0 (r.number % 4096), slotSub (r.number % 4096)), (0x4D90 + r.meter, 1)] d
      (d.setB (slotIx 0x4DC0 (r.number % 4096)) (slotSub (r.number % 4096)) (r.content ++ r.sig.getD [])) :=
    (KeepsBlobs.refl _ d).setB (by simp) (slotSub_lt _) _
  rw [giveOut_eq, Dev.stream_eq]
  refine KeepsBlobs.of_blobs_eq ?_ rfl
  unfold Dev.readingStored Dev.when
  split
  · exact KeepsBlobs.setB (hslot.of_blobs_eq rfl) (by simp) (by decide) _
  · exact hslot.of_blobs_eq rfl

/-- The slot of the store lies above the objects of the meters' readings. -/
theorem getB_giveOut_slot :
    (giveOut r d).getB (slotIx 0x4DC0 (r.number % 4096)) (slotSub (r.number % 4096)) = r.content ++ r.sig.getD [] := by
  rw [giveOut_eq, Dev.getB_stream]
  unfold Dev.readingStored Dev.when
  split
  · next hm =>
    have hix : 0x4D90 + r.meter ≠ slotIx 0x4DC0 (r.number % 4096) := by
      have := of_decide_eq_true hm
      unfold slotIx
      omega
    exact (Dev.getB_setB_ne _ _ _ _ _ _ (okey_ne_of_ix hix (by decide) (slotSub_lt _))).trans (Dev.getB_setB_same d _ _ _)
  · exact Dev.getB_setB_same d _ _ _

theorem getB_giveOut_meter (hm : r.meter < 36) : (giveOut r d).getB (0x4D90 + r.meter) 1 = r.content ++ r.sig.getD [] := by
  rw [giveOut_eq, Dev.getB_stream, Dev.readingStored, Dev.when_pos (decide_eq_true hm)]
  exact Dev.getB_setB_same _ _ _ _

end

/-- Where no transition and no switch of a key waits for readings, nothing resumes. -/
theorem readingsResume_idle {d : Dev} (ht : d.trans = none) (hs : d.reads.switchDue = false) : readingsResume d = d := by
  simp [readingsResume, ht, hs]

/-- Where no request waits, none is answered. -/
theorem settleReadings_idle {d : Dev} (h : ∀ x ∈ d.dict.queue, x.phase ≠ .waiting) : settleReadings d = d := by
  have hpick : d.pick (fun _ r => r.phase == .waiting && r.asksFor != [] && !d.readingOwed r) = none := by
    refine List.find?_eq_none.mpr fun x hx => ?_
    simp [h x.2 (List.of_mem_zip hx).2]
  simp only [settleReadings, hpick]

/-! ## Readings asked for, periodic and lost (08 R268, R275, R276) -/

theorem periodicReading_due {d : Dev} {m : Nat} (hr : d.running = true) (hi : d.get (0x4D90 + m) 3 ≠ 0)
    (hn : d.now % (d.get (0x4D90 + m) 3 * 1920000) = 0) :
    periodicReading m d
      = if d.supply.hold || d.pausing 3 then d.inc 0x4D80 8 else { d with reads := { d.reads with periodic := d.reads.periodic.insert m } } := by
  have hc : (d.running && d.get (0x4D90 + m) 3 != 0 && d.now % (d.get (0x4D90 + m) 3 * 1920000) == 0) = true := by simp [hr, hi, hn]
  unfold periodicReading
  exact Dev.when_pos hc _ d

theorem meter_reissueOf (d : Dev) (l : LostReading) : (reissueOf d l).meter = l.meter := by
  unfold reissueOf
  dsimp only
  split
  · rfl
  · split <;> rfl

/-- The first lost reading, its record committed, is captured again from it and the event names both numbers. -/
theorem readingReissue_first {d : Dev} {l : LostReading} {rest : List LostReading} (hl : d.reads.lost = l :: rest) (hc : d.recordCommitted l = true)
    (hq : d.reads.queue = []) (hs : d.signs = true) (hh : d.supply.hold = false) :
    ∃ c, c.meter = l.meter
      ∧ EventLogged (Dev.enqueueReading { d with reads := { d.reads with lost := rest } } c) (readingReissue d) := by
  have hfind : (l :: rest).find? d.recordCommitted = some l := List.find?_cons_of_pos hc
  have hroom : (decide (d.reads.queue.length < 512) && d.signs && !d.supply.hold) = true := by simp [hq, hs, hh]
  refine ⟨_, meter_reissueOf { d with reads := { d.reads with lost := rest } } l, ?_⟩
  simp only [readingReissue, hl, hfind, if_pos hroom, List.erase_cons_head]
  exact Dev.eventLogged_eventAt _ _ _ _ _ _ _

/-! ## The six commands -/

/-- Settles O33: the close of a session is work of H4 that ends with a record in its slot; the readings of a tick, a signature, a reading given
out and one taken again each work on the head of their list, by the equation of their meaning. -/
theorem sessionRecordsAndReadings : Obligations.SessionRecordsAndReadings := by
  unfold Obligations.SessionRecordsAndReadings
  refine ⟨?closed, ?asked, ?periodic, ?captured, ?skipped, ?signed, ?given, ?reissued⟩
  case closed =>
    intro s o x t hr hs he ht hw hk
    refine completes_onRun (f := inH4 (sessionClose o)) rfl hr ?_
    obtain ⟨b, htake, hclose⟩ := sessionClose_unkeyed hs he ht hw hk
    have hsub : slotSub (x.number % 4096) < 256 := slotSub_lt _
    generalize slotIx 0x4E20 (x.number % 4096) = ix at *
    generalize slotSub (x.number % 4096) = sub at *
    obtain ⟨ob, bl, bi, hp, hsess, hbefore⟩ := s.dev.sessionClosed_parts o (t + 1087) ix sub x.number b
    obtain ⟨y, hy⟩ := inH4_parts (sessionClose o) s.dev
    have hbank : BankFollows s.dev (inH4 (sessionClose o) s.dev) := bankFollows_inH4 (by rw [hclose, Dev.stream_eq, hp])
    have hslot := s.dev.getB_sessionClosed o (t + 1087) ix sub x.number b
    have hlatest := s.dev.latest_sessionClosed o (t + 1087) ix sub x.number b
    have hmark := s.dev.mark_sessionClosed o (t + 1087) ix sub x.number b
    have hobjs := s.dev.keepsObjs_sessionClosed o (t + 1087) ix sub x.number b
    have hblobs := s.dev.keepsBlobs_sessionClosed o (t + 1087) ix sub x.number b hsub
    rw [hy, hclose, Dev.stream_eq] at hbank ⊢
    rw [hp] at *
    exact ⟨hsess, hbefore, (congrArg (List.take 4) hslot).trans htake, hlatest, hmark, hobjs.of_objs_eq rfl, hblobs.of_blobs_eq rfl, hbank, rfl⟩
  case asked =>
    intro s role m h
    refine completes_onDev (f := fun d => writeObj role (0x4D90 + m) 2 (.num 1) (readingRules d 1) (effRequestReading m 1) d) rfl ?_
    rw [writeObj_of_accepts h]
    rfl
  case periodic =>
    intro s m hr hi hn hh hp
    refine completes_onRun rfl hr ?_
    rw [periodicReading_due hr hi hn, if_neg (by simp [hh, hp])]
  case captured =>
    intro d m k hs hp ha hm hk hl hmet hq
    obtain ⟨c, hkind, hcm, he⟩ := tickReadings_periodic hs hp ha hm hmet (Dev.signs_of_key hk hl) hq
    have hc : c.meter < 36 := hcm ▸ hm
    have hobjs := (Dev.keepsObjs_enqueueReading { d with reads := { d.reads with periodic := [] } } c hc).rebase (d' := d) rfl
    have hlen := Dev.get_enqueueReading { d with reads := { d.reads with periodic := [] } } c hc
    obtain ⟨o, p, r, hr, hrk, hrm, hrn, hrs⟩ := Dev.enqueueReading_parts { d with reads := { d.reads with periodic := [] } } c hc
    rw [he]
    rw [hr] at hobjs hlen ⊢
    refine ⟨?_, List.length_append, rfl, rfl, hlen, hobjs, rfl⟩
    simp [hrk, hrm, hrn, hrs, hkind, hcm]
  case skipped =>
    intro s m hr hi hn hh
    refine completes_onRun rfl hr ?_
    rw [periodicReading_due hr hi hn, if_pos (by simpa using hh)]
    exact ⟨Dev.get_satInc_same _ _ _ _ _, (KeepsObjs.refl _ s.dev).set (by simp) (by decide) _, rfl⟩
  case signed =>
    exact fun s r q hr hq hs hk => completes_onRun rfl hr (readingSigned_first hq hs hk)
  case given =>
    intro s r q g hr hq hs hv hw ht hd
    refine completes_onRun (f := fun d => settleReadings (readingsResume (readingGivenOut d))) rfl hr ?_
    have hgiven := readingGivenOut_first hq hs hv
    have hleft : KeepsObjs [(0x4D80, 1), (0x4D80, 3)] s.dev (s.dev.queueLeft q) :=
      ((KeepsObjs.refl _ s.dev).of_objs_eq rfl).set (by simp) (by decide) _
    have hlen : (s.dev.queueLeft q).get 0x4D80 3 = q.length := Dev.get_set_same _ _ _ _
    have hold : (s.dev.queueLeft q).get 0x4D80 1 = s.dev.get 0x4D80 1 := Dev.get_set_ne _ _ _ _ _ _ (by decide)
    have hblobs : KeepsBlobs _ s.dev (giveOut r (s.dev.queueLeft q)) := (keepsBlobs_giveOut r _).rebase rfl
    have hslot := getB_giveOut_slot r (s.dev.queueLeft q)
    have hmeter := getB_giveOut_meter r (s.dev.queueLeft q)
    have hlatest := latest_giveOut r (s.dev.queueLeft q)
    have hkept := keepsObjs_giveOut r (s.dev.queueLeft q)
    rw [hs, Option.getD_some] at hslot hmeter
    obtain ⟨bl, w, hp⟩ := giveOut_parts r (s.dev.queueLeft q)
    have hidle : settleReadings (readingsResume (readingGivenOut s.dev)) = giveOut r (s.dev.queueLeft q) := by
      rw [hgiven, readingsResume_idle (by rw [hp]; exact ht) (by rw [hp]; exact hd), settleReadings_idle (by rw [hp]; exact hw)]
    rw [hidle]
    refine ⟨by rw [hp]; rfl, (hkept _ _ (by decide) (by simp)).trans hlen, hslot, hmeter, hlatest.trans (by rw [hold]),
      hleft.trans (hkept.mono (by simp)), hblobs, ?_⟩
    rw [hp]
    rfl
  case reissued =>
    intro s l rest k hr hl hq hk hlife hm hh hc
    refine completes_onRun rfl hr ?_
    obtain ⟨c, hcm, hf⟩ := readingReissue_first hl hc hq (Dev.signs_of_key hk hlife) hh
    have hc36 : c.meter < 36 := hcm ▸ hm
    have hobjs := (Dev.keepsObjs_enqueueReading { s.dev with reads := { s.dev.reads with lost := rest } } c hc36).rebase (d' := s.dev) rfl
    have hnumber := hf.number_of_keeps hobjs (by simp)
    have hthen := hobjs.then_event hf
    have honly := hf.onlyLogged
    obtain ⟨ob, bl, lo, w, hlogged⟩ := hf.parts
    obtain ⟨o, p, r, he, -, hrm, hrn, -⟩ := Dev.enqueueReading_parts { s.dev with reads := { s.dev.reads with lost := rest } } c hc36
    rw [he] at hlogged honly
    rw [hlogged] at hnumber hthen honly ⊢
    refine ⟨rfl, ?_, rfl, hnumber, hthen, honly.1, (honly.2).rebase rfl⟩
    simp [hq, hrm, hrn, hcm]

end Sys2Proof.Machine
end

section
/-! SUPPORT. The boundary step where nothing is due (07 R242, R249 to R252): it selects the rates and does no more. -/
namespace Sys2Proof.Machine

open Sys2Proof

/-! ## The step up to the rates -/

/-- A loop of which no step changes anything changes nothing. -/
theorem each_fixed {n : Nat} {f : Nat → Dev → Dev} {d : Dev} (h : ∀ i, i < n → f i d = d) : each n f d = d :=
  each_preserves (· = d) n f (fun i hi e he => by rw [he]; exact h i hi) d rfl

theorem demandStep_quiet {d : Dev} {m : Nat} (hc : (d.meter m).closeNow = none) (hv : d.civil.valid = false) (b : Nat) :
    demandStep b false m d = d := by
  simp [demandStep, hc, hv]

theorem snapshotStep_quiet {d : Dev} (hr : d.bill.retake = []) (hc : d.bill.commanded = none) (hv : d.civil.valid = false) (b : Nat) (f : Bool) :
    snapshotStep b f d = d := by
  have hd : { d with bill := { d.bill with retake := [] } } = d := by rw [← hr]
  simp only [snapshotStep, hr, List.foldl_nil, hd]
  simp [hc, hv]

theorem runStep_quiet {d : Dev} (h : QuietStep d) (b : Nat) : runStep b false d = each 36 (selectRate b) d := by
  obtain ⟨hv, -, -, hc, hr, -, -, hm⟩ := h
  have hdemand : each 36 (demandStep b false) d = d := each_fixed fun m hlt => demandStep_quiet (hm m hlt) hv b
  simp [runStep, hdemand, snapshotStep_quiet hr hc hv, hv]

/-! ## The rates (07 R242) -/

/-- The objects that hold the rates in force. -/
def rateObjs : List (Nat × Nat) := (List.range 36).map fun m => (meterIx m + 8, 5)

theorem mem_rateObjs {m : Nat} (h : m < 36) : (meterIx m + 8, 5) ∈ rateObjs := List.mem_map.mpr ⟨m, List.mem_range.mpr h, rfl⟩

theorem not_mem_rateObjs (ix : Nat) {sub : Nat} (h : sub ≠ 5) : (ix, sub) ∉ rateObjs := fun hm => by
  obtain ⟨m, -, hx⟩ := List.mem_map.mp hm
  exact h (Prod.ext_iff.mp hx).2.symm

/-- A selection notes that a rate has been in force and shows it. -/
theorem selectRate_steps (b m : Nat) (d : Dev) :
    ∃ v, selectRate b m d = (d.setMeter m { d.meter m with rated := true }).set (meterIx m + 8) 5 v
      ∧ (d.get (meterIx m + 8) 4 ≠ 0 → v = d.get (meterIx m + 8) 4) :=
  ⟨_, rfl, fun h => if_pos h⟩

theorem rates_parts (b : Nat) (d : Dev) : ∃ o ms, each 36 (selectRate b) d = { d with objs := o, meters := ms } := by
  refine each_preserves (fun e => ∃ o ms, e = { d with objs := o, meters := ms }) 36 _ (fun m _ e he => ?_) d ⟨_, _, rfl⟩
  obtain ⟨o, ms, rfl⟩ := he
  exact ⟨_, _, rfl⟩

theorem keepsObjs_rates (b : Nat) (d : Dev) : KeepsObjs rateObjs d (each 36 (selectRate b) d) := by
  refine each_preserves (KeepsObjs rateObjs d) 36 _ (fun m hm e he => ?_) d (KeepsObjs.refl _ d)
  obtain ⟨v, hv, -⟩ := selectRate_steps b m e
  rw [hv]
  exact KeepsObjs.set (he.of_objs_eq rfl) (mem_rateObjs hm) (by decide) v

/-- Whether the rate in force of meter `m` is `v` where its control .04 names it. -/
def Dev.controlHolds (v m : Nat) (d : Dev) : Prop := d.get (meterIx m + 8) 4 = v → d.get (meterIx m + 8) 5 = v

theorem Dev.get_selectRate_ne (b m : Nat) (d : Dev) {ix sub : Nat} (h : ix ≠ meterIx m + 8 ∨ sub ≠ 5) (hs : sub < 256) :
    (selectRate b m d).get ix sub = d.get ix sub := by
  have hk : okey (meterIx m + 8) 5 ≠ okey ix sub := fun hk => by
    obtain ⟨hix, hsub⟩ := (okey_inj (by decide) hs).mp hk
    exact h.elim (· hix.symm) (· hsub.symm)
  obtain ⟨v, hv, -⟩ := selectRate_steps b m d
  rw [hv]
  exact Dev.get_set_ne _ _ _ _ _ _ hk

theorem controlHolds_selectRate {v : Nat} (hv : v ≠ 0) (b m : Nat) (d : Dev) : (selectRate b m d).controlHolds v m := fun hc => by
  rw [Dev.get_selectRate_ne b m d (.inr (by decide)) (by decide)] at hc
  obtain ⟨w, hw, hcontrol⟩ := selectRate_steps b m d
  rw [hw, Dev.get_set_same, hcontrol (hc ▸ hv), hc]

theorem controlHolds_selectRate_ne (v b : Nat) {m k : Nat} (d : Dev) (h : k ≠ m) : (selectRate b m d).controlHolds v k = d.controlHolds v k := by
  have hix : meterIx k + 8 ≠ meterIx m + 8 := by unfold meterIx; omega
  unfold Dev.controlHolds
  rw [Dev.get_selectRate_ne b m d (.inl hix) (by decide), Dev.get_selectRate_ne b m d (.inl hix) (by decide)]

/-- A rate that the control names is in force after the step. -/
theorem get_rates_of_control {d : Dev} {m v : Nat} (hm : m < 36) (hv : v ≠ 0) (h : d.get (meterIx m + 8) 4 = v) (b : Nat) :
    (each 36 (selectRate b) d).get (meterIx m + 8) 5 = v := by
  have hall := each_at (Dev.controlHolds v) (selectRate b) (fun _ _ => True) (fun i e => eq_true (controlHolds_selectRate hv b i e))
    (fun i j e hj => controlHolds_selectRate_ne v b e hj) 36 m d
  rw [if_pos hm] at hall
  refine of_eq_true hall ?_
  exact (keepsObjs_rates b d _ _ (by decide) (not_mem_rateObjs _ (by decide))).trans h

/-! ## The whole step -/

/-- Where nothing is due, the boundary step selects the rates. -/
theorem boundaryStep_quiet {d : Dev} (h : QuietStep d) : boundaryStep d = each 36 (selectRate d.effTick) d := by
  have hquiet := h
  obtain ⟨-, hw, hd, -, -, hs, hread, -⟩ := h
  obtain ⟨o, ms, hp⟩ := rates_parts d.effTick d
  have hstaged : (each 36 (selectRate d.effTick) d).staged = 0 := by
    rw [hp, Dev.staged, hs]
    rfl
  simp [boundaryStep, hw, hd, tickReadings_done hread, runStep_quiet hquiet, hstaged]

/-- Whether a boundary can fall follows from the records apart from the logs, and from the state of an activation. -/
theorem QuietStep.of_onlyLogged {d e : Dev} (h : QuietStep d) (hl : OnlyLogged d e) (hp : e.get 0x2300 2 = d.get 0x2300 2) : QuietStep e := by
  obtain ⟨hv, hw, hd, hc, hr, hs, hread, hm⟩ := h
  have hwaits : e.stepWaits = d.stepWaits := by
    unfold Dev.stepWaits Dev.pausing
    rw [hp, hl.1]
  unfold QuietStep ReadingsDone
  rw [hwaits, hl.1]
  exact ⟨hv, hw, hd, hc, hr, hs, hread, hm⟩

/-- A write outside the activations of an image, logged as an event and followed by the step of its tick of effect, where nothing is due. -/
theorem stepNow_quiet {d f : Dev} (hf : EventLogged d f) (hr : d.running = true) (hq : QuietStep d) {ix sub : Nat} (hs : sub < 256)
    (hix : 0x4000 ≤ ix) (v : Nat) : stepNow (f.set ix sub v) = each 36 (selectRate (d.now + 1)) (f.set ix sub v) := by
  have hl : OnlyLogged d (f.set ix sub v) := hf.onlyLogged.set ix sub v
  have hpause : (f.set ix sub v).get 0x2300 2 = d.get 0x2300 2 :=
    (Dev.get_set_ne _ _ _ _ _ _ (okey_ne_of_ix (by omega) hs (by decide))).trans (hf.keepsObjs _ _ (by decide) (by simp [eventObjs]))
  have hrun : (f.set ix sub v).running = true := by rw [hl.1]; exact hr
  have hnow : (f.set ix sub v).effTick = d.now + 1 := by rw [hl.1]; rfl
  rw [stepNow, Dev.when_pos hrun, boundaryStep_quiet (hq.of_onlyLogged hl hpause), hnow]

/-- A value written, then the rates selected. -/
theorem keepsObjs_setRates (f : Dev) (ix : Nat) {sub : Nat} (hs : sub < 256) (v b : Nat) :
    KeepsObjs ([(ix, sub)] ++ rateObjs) f (each 36 (selectRate b) (f.set ix sub v)) :=
  KeepsObjs.trans (((KeepsObjs.refl [(ix, sub)] f).set (by simp) hs v).mono (List.subset_append_left _ _))
    ((keepsObjs_rates b _).mono (List.subset_append_right _ _))

section
variable {d f : Dev} (hf : EventLogged d f) {ix sub : Nat} (v b : Nat)
include hf

theorem number_writtenRates (hs : sub < 256) (hix : ix ≠ 0x4D40) :
    (each 36 (selectRate b) (f.set ix sub v)).get 0x4D40 1 = d.get 0x4D40 1 + 1 := by
  refine hf.number_then (keepsObjs_setRates f ix hs v b) ?_
  simp [not_mem_rateObjs, hix.symm]

theorem onlyLogged_writtenRates :
    let e := (each 36 (selectRate b) (f.set ix sub v)).answer 0
    OnlyLogged { d with meters := e.meters, status := 0 } e := by
  have hl := hf.onlyLogged.set ix sub v
  obtain ⟨o, ms, hp⟩ := rates_parts b (f.set ix sub v)
  rw [hp]
  generalize f.set ix sub v = g at *
  obtain ⟨he, hb⟩ := hl
  refine ⟨?_, (hb.of_blobs_eq rfl).rebase rfl⟩
  rw [he]
  rfl

end

/-- A value written beside the rates in force stands after the step. -/
theorem get_writtenRates (f : Dev) (ix : Nat) {sub : Nat} (hs : sub < 256) (h5 : sub ≠ 5) (v b : Nat) :
    (each 36 (selectRate b) (f.set ix sub v)).get ix sub = v :=
  (keepsObjs_rates b _ _ _ hs (not_mem_rateObjs ix h5)).trans (Dev.get_set_same f ix sub v)

end Sys2Proof.Machine
end

section
/-! SUPPORT. What a snapshot leaves (07 R253, R254, R246): its number shown and its record in the slot of every meter. -/
namespace Sys2Proof.Machine

open Sys2Proof

/-! ## The maxima restarted (07 R246) -/

/-- The part with the six values of a maximum record written. -/
def Dev.maximaSet (d : Dev) (m r : Nat) (vals : List Nat) : Dev :=
  (List.range 6).foldl (fun (d : Dev) i => d.set (meterIx m + 0x11 + r) (i + 1) (vals.getD i 0)) d

theorem stageMaxima_steps (d : Dev) (m r : Nat) (vals : List Nat) :
    ∃ st, d.stageMaxima m r vals = { d.maximaSet m r vals with bill := { (d.maximaSet m r vals).bill with staging := st } } := by
  unfold Dev.stageMaxima
  dsimp only
  split
  · exact ⟨_, rfl⟩
  · exact ⟨_, rfl⟩

/-- What no write of a maximum and no change of the staging memory touches, a restart of the maxima of every meter leaves as it was. -/
theorem maxima_keep {α : Type} (g : Dev → α)
    (hset : ∀ m r sub v d, m < 36 → r < 8 → sub < 256 → g (Dev.set d (meterIx m + 0x11 + r) sub v) = g d)
    (hst : ∀ d st, g { d with bill := { d.bill with staging := st } } = g d) (d : Dev) :
    g (each 36 (fun m d => each 8 (fun r d => d.stageMaxima m r []) d) d) = g d := by
  refine each_keeps g 36 _ (fun m hm e => each_keeps g 8 _ (fun r hr e => ?_) e) d
  obtain ⟨st, he⟩ := stageMaxima_steps e m r []
  rw [he, hst, Dev.maximaSet]
  refine List.foldlRecOn (motive := fun x => g x = g e) _ _ rfl fun x hx i hi => ?_
  have hsub : i < 6 := List.mem_range.mp hi
  exact (hset m r (i + 1) _ x hm hr (by omega)).trans hx

/-! ## The records of a snapshot (07 R253, R254) -/

/-- A snapshot record begins with its number. -/
theorem snapshotBytes_take (d : Dev) (m n flags b : Nat) (utc : Nat × Nat) : (snapshotBytes d m n flags b utc).take 4 = natLE 4 n := by
  refine take_natLE_of_isPrefix ?_
  unfold snapshotBytes
  dsimp only
  simp only [List.append_assoc, List.prefix_append]

/-- The record that a snapshot stages for each meter. -/
def Dev.snapshotRec (d : Dev) (flags : Nat) (utc : Nat × Nat) : StagedRec :=
  { snapshot := d.bill.nextSnapshot, flags := flags, utc := utc.1, prev := d.get 0x4C00 5 }

/-- The record of snapshot `n` of meter `m` staged in slot `sub`. -/
def stageSnapshot (n sub flags b : Nat) (utc : Nat × Nat) (r : StagedRec) (m : Nat) (d : Dev) : Dev :=
  d.stageBlob (0x4C10 + m) sub (snapshotBytes d m n flags b utc) r

/-- The part with the next number taken and shown, and the records of every meter staged. -/
def Dev.snapshotStaged (d : Dev) (b flags : Nat) (utc : Nat × Nat) : Dev :=
  each 36 (stageSnapshot d.bill.nextSnapshot (d.bill.nextSnapshot % 36 + 1) flags b utc (d.snapshotRec flags utc))
    (Dev.set { d with bill := { d.bill with nextSnapshot := d.bill.nextSnapshot + 1 } } 0x4C00 4 d.bill.nextSnapshot)

section
variable (n sub flags b : Nat) (utc : Nat × Nat) (r : StagedRec) (m : Nat) (d : Dev)

theorem nextSnapshot_stageSnapshot : (stageSnapshot n sub flags b utc r m d).bill.nextSnapshot = d.bill.nextSnapshot := rfl

theorem get_stageSnapshot (ix s : Nat) : (stageSnapshot n sub flags b utc r m d).get ix s = d.get ix s := rfl

theorem take_stageSnapshot : ((stageSnapshot n sub flags b utc r m d).getB (0x4C10 + m) sub).take 4 = natLE 4 n :=
  (congrArg (List.take 4) (Dev.getB_setB_same d _ _ _)).trans (snapshotBytes_take d m n flags b utc)

theorem getB_stageSnapshot_ne (hs : sub < 256) {k : Nat} (hk : k ≠ m) :
    (stageSnapshot n sub flags b utc r m d).getB (0x4C10 + k) sub = d.getB (0x4C10 + k) sub :=
  Dev.getB_setB_ne d _ _ _ _ _ (okey_ne_of_ix (by omega) hs hs)

end

section
variable (d : Dev) (b flags : Nat) (utc : Nat × Nat)

theorem Dev.nextSnapshot_snapshotStaged : (d.snapshotStaged b flags utc).bill.nextSnapshot = d.bill.nextSnapshot + 1 :=
  each_keeps (fun e => e.bill.nextSnapshot) 36 _ (fun _ _ _ => nextSnapshot_stageSnapshot ..) _

theorem Dev.get_snapshotStaged : (d.snapshotStaged b flags utc).get 0x4C00 4 = d.bill.nextSnapshot :=
  (each_keeps (fun e => e.get 0x4C00 4) 36 _ (fun _ _ _ => get_stageSnapshot ..) _).trans (Dev.get_set_same _ _ _ _)

/-- Every slot of the number begins with it. -/
theorem Dev.take_snapshotStaged {m : Nat} (hm : m < 36) :
    ((d.snapshotStaged b flags utc).getB (0x4C10 + m) (d.bill.nextSnapshot % 36 + 1)).take 4 = natLE 4 d.bill.nextSnapshot := by
  have hs : d.bill.nextSnapshot % 36 + 1 < 256 := by omega
  have h := each_at (fun k e => (Dev.getB e (0x4C10 + k) (d.bill.nextSnapshot % 36 + 1)).take 4)
    (stageSnapshot d.bill.nextSnapshot (d.bill.nextSnapshot % 36 + 1) flags b utc (d.snapshotRec flags utc)) (fun _ _ => natLE 4 d.bill.nextSnapshot)
    (fun k e => take_stageSnapshot ..) (fun k j e hj => congrArg (List.take 4) (getB_stageSnapshot_ne (hs := hs) (hk := hj) ..)) 36 m
    (Dev.set { d with bill := { d.bill with nextSnapshot := d.bill.nextSnapshot + 1 } } 0x4C00 4 d.bill.nextSnapshot)
  rw [if_pos hm] at h
  exact h

end

/-- What a snapshot adds to its records, where it touches nothing that `g` reads: the instant of a scheduled one, the readings to be
captured, and the maxima restarted. -/
theorem takeSnapshot_keeps {α : Type} (g : Dev → α) (h5 : ∀ d v, g (Dev.set d 0x4C00 5 v) = g d)
    (hr : ∀ d r, g { d with reads := r } = g d)
    (hset : ∀ m r sub v d, m < 36 → r < 8 → sub < 256 → g (Dev.set d (meterIx m + 0x11 + r) sub v) = g d)
    (hst : ∀ d st, g { d with bill := { d.bill with staging := st } } = g d) (b flags : Nat) (utc : Nat × Nat) (d : Dev) :
    g (takeSnapshot b flags utc d) = g (d.snapshotStaged b flags utc) := by
  have hinstant : g (if flags.testBit 0 then (d.snapshotStaged b flags utc).set 0x4C00 5 utc.1 else d.snapshotStaged b flags utc)
      = g (d.snapshotStaged b flags utc) := by
    split
    · exact h5 _ _
    · rfl
  refine Eq.trans ?_ hinstant
  unfold takeSnapshot
  dsimp only
  split
  · exact (maxima_keep g hset hst _).trans (hr _ _)
  · exact hr _ _

end Sys2Proof.Machine
end

section
/-! Billing control, calendars, activation times and commanded snapshots (chapter 07): what each command does where its condition holds. -/
namespace Sys2Proof.Machine

open Sys2Proof

/-- Above the objects of an image the part acts on a write only while it works. -/
theorem running_of_accepts {d : Dev} {role : Role} {ix sub : Nat} {v : Val} {x : Rules} (hix : 0x4000 ≤ ix) (h : Accepts d role ix sub v x) :
    d.running = true := by
  have hacts := h.1
  have hblock : ix ≠ 0x2330 := by omega
  have hactivate : ix ≠ 0x2300 := by omega
  simpa [Dev.acts, hblock, hactivate] using hacts

/-! ## The effects of the writes (07 R229, R240, R248) -/

/-- A control that leaves the length of the subinterval alone is logged and stored before the step. -/
theorem effBilling_steps (role : Role) (m v : Nat) {sub : Nat} (hs : sub = 1 ∨ sub = 4) (d : Dev) :
    ∃ f, EventLogged d f ∧ effBilling role m sub v d = stepNow (f.set (meterIx m + 8) sub v) := by
  have hf := d.eventLogged_eventEff 0x000A (roleCode role) (subjObj (meterIx m + 8) sub) (natLE 1 (d.get (meterIx m + 8) sub)) (natLE 1 v)
  obtain rfl | rfl := hs
  · exact ⟨_, hf, rfl⟩
  · exact ⟨_, hf, rfl⟩

theorem effActivation_steps (role : Role) (k v : Nat) (d : Dev) :
    ∃ f, EventLogged d f ∧ effActivation role k v d = stepNow (f.set (calendarIx k) 3 v) :=
  ⟨_, d.eventLogged_eventEff _ _ _ _ _, rfl⟩

/-- A passive calendar is logged, stored and its CRC shown. -/
theorem effCalendar_steps (role : Role) (k : Nat) (v : Bytes) (d : Dev) :
    ∃ f, EventLogged d f ∧ effCalendar role k v d = (f.setB (calendarIx k) 2 v).set (calendarIx k) 5 (crc32 v) :=
  ⟨_, d.eventLogged_eventEff _ _ _ _ _, rfl⟩

/-- While the part works a commanded snapshot runs the boundary step. -/
theorem effSnapshot_running {d : Dev} (hr : d.running = true) (v : Nat) :
    effSnapshot v d = boundaryStep { d with bill := { d.bill with commanded := some (max v (d.bill.commanded.getD 0)) } } :=
  Dev.when_pos hr _ _

/-! ## The five commands and the snapshot -/

/-- Settles O32: a write that nothing due follows logs its event, takes its value and has the rates selected; a snapshot shows its number and
stages its records before what else it does, which touches neither. -/
theorem tariffWritesAndSnapshots : Obligations.TariffWritesAndSnapshots := by
  unfold Obligations.TariffWritesAndSnapshots
  refine ⟨?control, ?calendar, ?activation, ?commanded, ?resetting, ?taken⟩
  case control =>
    intro s role m sub v h hsub hq
    refine completes_onDev rfl ?_
    have hix : 0x4000 ≤ meterIx m + 8 := by unfold meterIx; omega
    have hs : sub < 256 := by omega
    obtain ⟨f, hf, he⟩ := effBilling_steps role m v hsub s.dev
    have hwritten := he.trans (stepNow_quiet hf (running_of_accepts hix h) hq hs hix v)
    have hval := get_writtenRates f (meterIx m + 8) hs (by omega) v (s.dev.now + 1)
    have hnumber := number_writtenRates hf v (s.dev.now + 1) (ix := meterIx m + 8) hs (by unfold meterIx; omega)
    have hk := hf.keepsObjs_then (keepsObjs_setRates f (meterIx m + 8) hs v (s.dev.now + 1))
    have hl := onlyLogged_writtenRates hf v (s.dev.now + 1) (ix := meterIx m + 8) (sub := sub)
    rw [writeObj_of_accepts h, hwritten]
    refine ⟨(Dev.get_answer ..).trans hval, rfl, fun h4 hv => ?_, (Dev.get_answer ..).trans hnumber, hk.answer 0, hl⟩
    subst h4
    exact (Dev.get_answer ..).trans (get_rates_of_control m.isLt hv (Dev.get_set_same f _ _ v) _)
  case calendar =>
    intro s role k v h
    refine completes_onDev rfl ?_
    rw [writeObj_of_accepts h]
    obtain ⟨f, hf, he⟩ := effCalendar_steps role k v s.dev
    rw [he]
    have hset : KeepsObjs [(calendarIx k, 5)] f ((f.setB (calendarIx k) 2 v).set (calendarIx k) 5 (crc32 v)) :=
      KeepsObjs.set ((KeepsObjs.refl _ f).of_objs_eq rfl) (by simp) (by decide) _
    have hn : (0x4D40, 1) ∉ [(calendarIx k, 5)] := by simp
    have hblobs : KeepsBlobs [(calendarIx k, 2)] s.dev (f.setB (calendarIx k) 2 v) := (hf.keepsBlobs _).setB (by simp) (by decide) v
    obtain ⟨o, b, l, w, hp⟩ := hf.parts
    refine ⟨Dev.getB_setB_same f _ _ v, Dev.get_set_same _ _ _ _, rfl, hf.number_then hset hn, hf.keepsObjs_then hset, hblobs.of_blobs_eq rfl, ?_⟩
    rw [hp]
    exact onlyLogged_of_eq rfl rfl
  case activation =>
    intro s role k v h hq
    refine completes_onDev rfl ?_
    have hix : 0x4000 ≤ calendarIx k := by unfold calendarIx; omega
    obtain ⟨f, hf, he⟩ := effActivation_steps role k v s.dev
    have hwritten := he.trans (stepNow_quiet hf (running_of_accepts hix h) hq (by decide) hix v)
    have hval := get_writtenRates f (calendarIx k) (sub := 3) (by decide) (by decide) v (s.dev.now + 1)
    have hk := hf.keepsObjs_then (keepsObjs_setRates f (calendarIx k) (sub := 3) (by decide) v (s.dev.now + 1))
    have hl := onlyLogged_writtenRates hf v (s.dev.now + 1) (ix := calendarIx k) (sub := 3)
    rw [writeObj_of_accepts h, hwritten]
    exact ⟨(Dev.get_answer ..).trans hval, rfl, hk.answer 0, hl⟩
  case commanded =>
    intro s role h hr
    refine completes_onDev rfl ?_
    rw [writeObj_of_accepts h, effSnapshot_running hr]
  case resetting =>
    intro s role h hr
    refine completes_onDev rfl ?_
    rw [writeObj_of_accepts h, effSnapshot_running hr]
  case taken =>
    intro d b flags utc
    have hkeeps {α : Type} (g : Dev → α) := takeSnapshot_keeps g (b := b) (flags := flags) (utc := utc) (d := d)
    refine ⟨?_, ?_, fun m hm => ?_⟩
    · exact (hkeeps (fun e => e.bill.nextSnapshot) (fun _ _ => rfl) (fun _ _ => rfl) (fun _ _ _ _ _ _ _ _ => rfl) fun _ _ => rfl).trans
        (d.nextSnapshot_snapshotStaged b flags utc)
    · refine (hkeeps (fun e => e.get 0x4C00 4) (fun e v => Dev.get_set_ne e _ _ _ _ _ (by decide)) (fun _ _ => rfl) (fun k r sub v e hk hr hs => ?_)
        fun _ _ => rfl).trans (d.get_snapshotStaged b flags utc)
      have hix : meterIx k + 0x11 + r ≠ 0x4C00 := by unfold meterIx; omega
      exact Dev.get_set_ne e _ _ _ _ _ (okey_ne_of_ix hix hs (by decide))
    · exact (hkeeps (fun e => (e.getB (0x4C10 + m) (d.bill.nextSnapshot % 36 + 1)).take 4) (fun _ _ => rfl) (fun _ _ => rfl)
        (fun _ _ _ _ _ _ _ _ => rfl) fun _ _ => rfl).trans (d.take_snapshotStaged b flags utc hm)

end Sys2Proof.Machine
end

section
/-! SUPPORT. The tamper domain (08 R283 to R286): its records, and what each of its events does where its condition holds. -/
namespace Sys2Proof.Machine

open Sys2Proof

/-! ## Bits that are set -/

/-- A bit stands after updates that leave its object alone. -/
theorem KeepsObjs.setsBit {but : List (Nat × Nat)} {ix sub i : Nat} {b : Bool} {d e : Dev} (h : KeepsObjs but (d.setBitO ix sub i b) e)
    (hs : sub < 256) (hn : (ix, sub) ∉ but) : SetsBit ix sub i b d e := fun j =>
  (congrArg (Nat.testBit · j) (h ix sub hs hn)).trans (Dev.bitO_setBitO d ix sub i b j)

/-- What is raised is pending. -/
theorem Dev.evPending_raiseEv_same (d : Dev) {n : Nat} (hn : n < 256) : (d.raiseEv n).evPending n = true :=
  (Dev.evPending_raiseEv d n n hn hn).trans (if_pos rfl)

/-! ## The bytes of a record (08 R285, R286) -/

/-- A number of `n` bytes reads back from its place in a byte string. -/
theorem leAt_natLE {a : Bytes} {o : Nat} (ho : a.length = o) (n v : Nat) (b : Bytes) : leAt (a ++ natLE n v ++ b) o n = v % 256 ^ n := by
  have hslice : ((a ++ natLE n v ++ b).drop o).take n = natLE n v := by
    rw [List.append_assoc, List.drop_left' ho, List.take_left' (natLE_length n v)]
  rw [leAt, sliceB, hslice, natLE_length, Nat.sub_self, List.replicate_zero, List.append_nil, leNat_natLE]

/-- The sequence number of a record is at bytes 8 to 11. -/
theorem leAt_tamperBytes (i : Nat) (active supply valid : Bool) (clock : Nat × Nat) (seq : Nat) :
    leAt (tamperBytes i active supply valid clock seq) 8 4 = seq % 2 ^ 32 :=
  leAt_natLE (by simp) 4 seq (zeros 4)

/-- The record `b` marked as copied, in bit 0 of byte 12. -/
def copiedRec (b : Bytes) : Bytes := b.take 12 ++ natLE 1 (setBit (byteAt b 12) 0 true) ++ b.drop 13

theorem testBit_copiedRec {b : Bytes} (h : 12 ≤ b.length) : (byteAt (copiedRec b) 12).testBit 0 = true := by
  have hlen : (b.take 12).length = 12 := by rw [List.length_take]; omega
  have hbyte : (copiedRec b).getD 12 0 = BitVec.ofNat 8 (setBit (byteAt b 12) 0 true) := by
    rw [copiedRec, List.append_assoc, List.getD_eq_getElem?_getD, List.getElem?_append_right (Nat.le_of_eq hlen), hlen]
    rfl
  rw [byteAt, hbyte, BitVec.toNat_ofNat, Nat.testBit_mod_two_pow, testBit_setBit]
  rfl

/-- The slot of a new record follows from the records alone. -/
theorem tamperSlot_of_blobs_eq {d e : Dev} (h : e.blobs = d.blobs) : e.tamperSlot = d.tamperSlot := by
  have hrec : e.tamperRec = d.tamperRec := funext fun r => by simp only [Dev.tamperRec, Dev.getB, h]
  unfold Dev.tamperSlot Dev.tamperDue Dev.tamperHas
  rw [hrec]

theorem tamperOn_of_not_stopped {d : Dev} (h : d.tamper.stopped = false) : d.tamperOn = true := by simp [Dev.tamperOn, h]

/-! ## A change of an input (08 R285) -/

/-- Bringing the clock up to date leaves the configuration in force. -/
@[simp] theorem enabled_clockOn (raw : Option (Nat × Nat)) (t : TamperRec) : (clockOn raw t).enabled = t.enabled := by
  unfold clockOn
  split <;> rfl

/-- Bringing the clock up to date leaves the numbering of the records. -/
@[simp] theorem next_clockOn (raw : Option (Nat × Nat)) (t : TamperRec) : (clockOn raw t).next = t.next := by
  unfold clockOn
  split <;> rfl

/-- The part with the state of input `i` shown, the record `b` in slot `r` and counted. -/
def Dev.inputRecorded (d : Dev) (i r : Nat) (active : Bool) (b : Bytes) : Dev :=
  ((d.setBitO 0x4DE0 6 i active).setB 0x4DE2 (r + 1) b).satInc 16 0x4DE0 5 1

/-- An enabled input that has changed for long enough is recorded, with the next number, in the slot there is. -/
theorem tamperInput_records {d : Dev} {i n r : Nat} {active : Bool} {raw : Nat × Nat} (hstop : d.tamper.stopped = false)
    (hbit : d.bitO 0x4DE0 6 i ≠ active) (hn : d.tamper.debounce.getD i 0x20 ≤ n) (hen : d.tamper.enabled.testBit i = true)
    (hslot : d.tamperSlot = some r) :
    ∃ supply valid clock, tamperInput i active n raw d
      = { d.inputRecorded i r active (tamperBytes i active supply valid clock d.tamper.next) with
          tamper := { clockOn (some raw) d.tamper with next := d.tamper.next + 1 } } := by
  have hon := tamperOn_of_not_stopped hstop
  have hcond : (d.tamperOn && d.bitO 0x4DE0 6 i != active && decide (d.tamper.debounce.getD i 0x20 ≤ n)) = true := by
    rw [hon, bne_iff_ne.mpr hbit, decide_eq_true hn]
    rfl
  have hread : d.clockRead (some raw) = { d with tamper := clockOn (some raw) d.tamper } := if_neg (by simp [hon])
  have hslot' : (Dev.setBitO { d with tamper := clockOn (some raw) d.tamper } 0x4DE0 6 i active).tamperSlot = some r :=
    (tamperSlot_of_blobs_eq rfl).trans hslot
  have hen' : (Dev.setBitO { d with tamper := clockOn (some raw) d.tamper } 0x4DE0 6 i active).tamper.enabled.testBit i = true :=
    (congrArg (Nat.testBit · i) (enabled_clockOn _ _)).trans hen
  unfold tamperInput
  rw [if_pos hcond, hread]
  dsimp only
  rw [if_pos hen', hslot', ← next_clockOn (some raw) d.tamper]
  exact ⟨_, _, _, rfl⟩

section
variable (d : Dev) (i : Nat) {r : Nat} (active : Bool) (b : Bytes)

theorem Dev.keepsObjs_inputRecorded : KeepsObjs [(0x4DE0, 5)] (d.setBitO 0x4DE0 6 i active) (d.inputRecorded i r active b) :=
  KeepsObjs.set ((KeepsObjs.refl _ _).of_objs_eq rfl) (by simp) (by decide) _

theorem Dev.count_inputRecorded : (d.inputRecorded i r active b).get 0x4DE0 5 = satAdd 16 (d.get 0x4DE0 5) 1 := by
  refine (Dev.get_satInc_same _ _ _ _ _).trans ?_
  rw [Dev.get_setB, Dev.get_setBitO_ne _ _ _ _ _ _ _ (okey_ne_of_sub _ (by decide))]

theorem Dev.keepsBlobs_inputRecorded (hr : r < 64) : KeepsBlobs [(0x4DE2, r + 1)] d (d.inputRecorded i r active b) :=
  (((KeepsBlobs.refl _ d).of_blobs_eq (f := d.setBitO 0x4DE0 6 i active) rfl).setB (by simp) (by omega) b).of_blobs_eq rfl

theorem Dev.record_inputRecorded : (d.inputRecorded i r active b).tamperRec r = b := Dev.getB_setB_same _ _ _ b

end

/-! ## The copy of a record (08 R286) -/

/-- Data that fits an entry needs no continuation (08 R280). -/
theorem Dev.eventLogged_eventData (d : Dev) (code role subject : Nat) {data : Bytes} (h : data.length ≤ 32) :
    EventLogged d (d.eventData code role subject data) := by
  refine ⟨d.now, code, role, b2n (decide (32 < data.length)), subject, data.take 32, ?_⟩
  simp [Dev.eventData, Dev.eventDataAt, eventMore, List.drop_eq_nil_of_le h]

/-- The part with record `r` replaced by `b` and EV29 raised. -/
def Dev.recordCopied (d : Dev) (r : Nat) (b : Bytes) : Dev := (d.setB 0x4DE2 (r + 1) b).raiseEv 29

/-- A record that is due logs its event and is marked. -/
theorem tamperCopy_due {d : Dev} {r : Nat} (h : d.tamperDue r = true) (hlen : (d.tamperRec r).length ≤ 32) :
    ∃ f, EventLogged d f ∧ tamperCopy r d = f.recordCopied r (copiedRec (d.tamperRec r)) :=
  ⟨_, d.eventLogged_eventData 0x0012 0xFF _ hlen, Dev.when_pos h _ _⟩

theorem Dev.keepsObjs_recordCopied (d : Dev) (r : Nat) (b : Bytes) : KeepsObjs [evObj 29] d (d.recordCopied r b) :=
  KeepsObjs.raiseEv ((KeepsObjs.refl _ d).of_objs_eq rfl) (by simp) (by decide)

/-- A copied record is not due. -/
theorem tamperDue_recordCopied (f : Dev) (r : Nat) {b : Bytes} (h : 12 ≤ b.length) : (f.recordCopied r (copiedRec b)).tamperDue r = false := by
  have hrec : (f.recordCopied r (copiedRec b)).tamperRec r = copiedRec b := Dev.getB_setB_same _ _ _ _
  rw [Dev.tamperDue, hrec, testBit_copiedRec h, Bool.not_true, Bool.and_false]

/-! ## The battery and the stop of the domain (08 R283, R287) -/

theorem batteryLow_warns {d : Dev} (hstop : d.tamper.stopped = false) (hbit : d.bitO 0x4DE0 4 1 = false) (hl : d.loom = .running) :
    batteryLow d = (d.setBitO 0x4DE0 4 1 true).raiseEv 30 := by
  have hcond : (d.tamperOn && !d.bitO 0x4DE0 4 1) = true := by rw [tamperOn_of_not_stopped hstop, hbit]; rfl
  exact (Dev.when_pos hcond _ _).trans (Dev.when_pos (Dev.ticking_of_running (d := d.setBitO 0x4DE0 4 1 true) hl) _ _)

/-- The part with every tamper record back at its default. -/
def Dev.recordsLost (d : Dev) : Dev := each 64 (fun r d => d.setB 0x4DE2 (r + 1) (blobDefault 0x4DE2 (r + 1))) d

/-- The part with every count of lost changes at 0. -/
def Dev.countsLost (d : Dev) : Dev := each 8 (fun i d => d.set 0x4DE3 (i + 1) 0) d

/-- The part with the state of the tamper domain at 0. -/
def Dev.stateLost (d : Dev) : Dev := ((d.set 0x4DE0 4 0).set 0x4DE0 5 0).set 0x4DE0 6 0

/-- The part with all of this lost. -/
def Dev.domainLost (d : Dev) : Dev := d.recordsLost.countsLost.stateLost

/-- Without the main supply the domain stops and loses what it held. -/
theorem tamperStop_unpowered {d : Dev} (h : d.loom = .unpowered) : tamperStop d = Dev.domainLost { d with tamper := { stopped := true } } :=
  Dev.when_pos (by rw [h]; rfl) _ d

theorem Dev.recordsLost_parts (d : Dev) : ∃ bl, d.recordsLost = { d with blobs := bl } :=
  each_preserves (fun e => ∃ bl, e = { d with blobs := bl }) 64 _ (fun _ _ _ ⟨_, he⟩ => by rw [he]; exact ⟨_, rfl⟩) d ⟨_, rfl⟩

theorem Dev.countsLost_parts (d : Dev) : ∃ o, d.countsLost = { d with objs := o } :=
  each_preserves (fun e => ∃ o, e = { d with objs := o }) 8 _ (fun _ _ _ ⟨_, he⟩ => by rw [he]; exact ⟨_, rfl⟩) d ⟨_, rfl⟩

theorem Dev.record_recordsLost (d : Dev) {r : Nat} (hr : r < 64) : d.recordsLost.tamperRec r = blobDefault 0x4DE2 (r + 1) :=
  (each_at (fun r d => d.tamperRec r) (fun r d => d.setB 0x4DE2 (r + 1) (blobDefault 0x4DE2 (r + 1))) (fun r _ => blobDefault 0x4DE2 (r + 1))
    (fun _ e => Dev.getB_setB_same e _ _ _) (fun _ _ e hne => Dev.getB_setB_ne e _ _ _ _ _ (okey_ne_of_sub _ (by omega))) 64 r d).trans (if_pos hr)

theorem Dev.count_countsLost (d : Dev) {i : Nat} (hi : i < 8) : d.countsLost.get 0x4DE3 (i + 1) = 0 :=
  (each_at (fun i d => d.get 0x4DE3 (i + 1)) (fun i d => d.set 0x4DE3 (i + 1) 0) (fun _ _ => 0)
    (fun _ e => Dev.get_set_same e _ _ _) (fun _ _ e hne => Dev.get_set_ne e _ _ _ _ _ (okey_ne_of_sub _ (by omega))) 8 i d).trans (if_pos hi)

theorem Dev.keepsBlobs_recordsLost (d : Dev) : KeepsBlobs ((List.range 64).map fun r => (0x4DE2, r + 1)) d d.recordsLost :=
  each_preserves (KeepsBlobs ((List.range 64).map fun r => (0x4DE2, r + 1)) d) 64 _
    (fun r hr _ he => he.setB (List.mem_map.mpr ⟨r, List.mem_range.mpr hr, rfl⟩) (by omega) _) d (KeepsBlobs.refl _ d)

theorem Dev.keepsObjs_countsLost (d : Dev) : KeepsObjs ((List.range 8).map fun i => (0x4DE3, i + 1)) d d.countsLost :=
  each_preserves (KeepsObjs ((List.range 8).map fun i => (0x4DE3, i + 1)) d) 8 _
    (fun i hi _ he => he.set (List.mem_map.mpr ⟨i, List.mem_range.mpr hi, rfl⟩) (by omega) _) d (KeepsObjs.refl _ d)

theorem Dev.keepsObjs_stateLost (d : Dev) : KeepsObjs [(0x4DE0, 4), (0x4DE0, 5), (0x4DE0, 6)] d d.stateLost :=
  (((KeepsObjs.refl _ d).set (by simp) (by decide) _).set (by simp) (by decide) _).set (by simp) (by decide) _

theorem Dev.get_stateLost (d : Dev) : d.stateLost.get 0x4DE0 4 = 0 ∧ d.stateLost.get 0x4DE0 5 = 0 ∧ d.stateLost.get 0x4DE0 6 = 0 := by
  simp [Dev.stateLost, Dev.get_set]

/-- Beside the objects and the byte strings the loss leaves the part as it was. -/
theorem Dev.domainLost_parts (d : Dev) : ∃ o bl, d.domainLost = { d with objs := o, blobs := bl } := by
  obtain ⟨bl, hr⟩ := d.recordsLost_parts
  obtain ⟨o, hc⟩ := d.recordsLost.countsLost_parts
  rw [Dev.domainLost, hc, hr]
  exact ⟨_, _, rfl⟩

/-- Of the byte strings the records alone are lost. -/
theorem Dev.blobs_domainLost (d : Dev) : d.domainLost.blobs = d.recordsLost.blobs := by
  obtain ⟨o, hc⟩ := d.recordsLost.countsLost_parts
  rw [Dev.domainLost, hc, Dev.stateLost]
  simp only [Dev.set_blobs]

theorem Dev.record_domainLost (d : Dev) {r : Nat} (hr : r < 64) : d.domainLost.tamperRec r = blobDefault 0x4DE2 (r + 1) := by
  refine Eq.trans ?_ (d.record_recordsLost hr)
  simp only [Dev.tamperRec, Dev.getB, d.blobs_domainLost]

theorem Dev.get_domainLost (d : Dev) : d.domainLost.get 0x4DE0 4 = 0 ∧ d.domainLost.get 0x4DE0 5 = 0 ∧ d.domainLost.get 0x4DE0 6 = 0 :=
  d.recordsLost.countsLost.get_stateLost

theorem Dev.count_domainLost (d : Dev) {i : Nat} (hi : i < 8) : d.domainLost.get 0x4DE3 (i + 1) = 0 :=
  (d.recordsLost.countsLost.keepsObjs_stateLost 0x4DE3 (i + 1) (by omega) (by simp)).trans (d.recordsLost.count_countsLost hi)

theorem Dev.keepsBlobs_domainLost (d : Dev) : KeepsBlobs ((List.range 64).map fun r => (0x4DE2, r + 1)) d d.domainLost :=
  d.keepsBlobs_recordsLost.of_blobs_eq d.blobs_domainLost

theorem Dev.keepsObjs_domainLost (d : Dev) :
    KeepsObjs ([(0x4DE0, 4), (0x4DE0, 5), (0x4DE0, 6)] ++ (List.range 8).map fun i => (0x4DE3, i + 1)) d d.domainLost := by
  obtain ⟨bl, hr⟩ := d.recordsLost_parts
  have hcounts := d.recordsLost.keepsObjs_countsLost.mono (List.subset_append_right [(0x4DE0, 4), (0x4DE0, 5), (0x4DE0, 6)] _)
  have hstate := d.recordsLost.countsLost.keepsObjs_stateLost.mono (List.subset_append_left _ ((List.range 8).map fun i => (0x4DE3, i + 1)))
  exact (hcounts.trans hstate).rebase (by rw [hr])

/-! ## The restart of the domain (08 R283) -/

/-- The part with the domain running again and its restart at `mv` mV shown. -/
def Dev.restartShown (d : Dev) (mv : Nat) : Dev :=
  (Dev.setBitO { d with tamper := { d.tamper with stopped := false, restarted := true, restartMv := mv } } 0x4DE0 4 2 true).setBitO
    0x4DE0 4 1 (decide (mv < 2100))

/-- A stopped domain shows its restart, and warns of a low battery while ticks run. -/
theorem tamperRestart_stopped {d : Dev} (h : d.tamper.stopped = true) (mv : Nat) :
    tamperRestart mv d = (d.restartShown mv).when (d.ticking && decide (mv < 2100)) fun d => d.raiseEv 30 :=
  Dev.when_pos h _ d

section
variable (d : Dev) (mv : Nat)

theorem Dev.keepsObjs_restartShown : KeepsObjs [(0x4DE0, 4)] d (d.restartShown mv) :=
  KeepsObjs.set (KeepsObjs.set ((KeepsObjs.refl _ d).of_objs_eq rfl) (by simp) (by decide) _) (by simp) (by decide) _

theorem Dev.bitO_restartShown : (d.restartShown mv).bitO 0x4DE0 4 2 = true ∧ (d.restartShown mv).bitO 0x4DE0 4 1 = decide (mv < 2100) := by
  simp [Dev.restartShown, Dev.bitO_setBitO]

end

/-- An event source that comes about or not is pending where it was or comes about. -/
theorem Dev.evPending_when_raiseEv (d : Dev) (b : Bool) {n : Nat} (hn : n < 256) :
    (d.when b fun d => d.raiseEv n).evPending n = (d.evPending n || b) := by
  cases b with
  | true => exact (d.evPending_raiseEv_same hn).trans (Bool.or_true _).symm
  | false => exact (Bool.or_false _).symm

theorem Dev.keepsObjs_when_raiseEv (d : Dev) (b : Bool) {n : Nat} (hn : n < 256) : KeepsObjs [evObj n] d (d.when b fun d => d.raiseEv n) :=
  (KeepsObjs.refl _ d).when b ((KeepsObjs.refl _ d).raiseEv (by simp) hn)

theorem Dev.when_raiseEv_parts (d : Dev) (b : Bool) (n : Nat) : ∃ o, (d.when b fun d => d.raiseEv n) = { d with objs := o } := by
  cases b with
  | true => exact ⟨_, rfl⟩
  | false => exact ⟨_, rfl⟩

/-! ## The configuration (08 R287) -/

/-- A write to the configuration logs its event, then takes its value. -/
theorem effTamper_steps (role : Role) (ix sub v : Nat) (d : Dev) : ∃ f, EventLogged d f ∧ effTamper role ix sub v d = f.set ix sub v :=
  ⟨_, d.eventLogged_eventEff _ _ _ _ _, rfl⟩

/-- The sub-index of an admitted write to the readings or the tamper domain is one of their table. -/
theorem sub_lt_of_accepts_reading {d : Dev} {role : Role} {ix sub : Nat} {v : Val} {x : Rules} (hlo : 0x4D00 ≤ ix) (hhi : ix < 0x5000)
    (h : Accepts d role ix sub v x) : sub < 256 := by
  have hrows : rowsFor ix = rowsReading := by
    unfold rowsFor
    simp (disch := omega) only [if_neg, if_pos]
  have hsubs : ∀ r ∈ rowsReading, r.subHi < 256 := by decide
  obtain ⟨r, hr, hle⟩ := exists_row_of_accepts h
  rw [hrows] at hr
  exact Nat.lt_of_le_of_lt hle (hsubs r hr)

end Sys2Proof.Machine
end

section
/-! The tamper domain (chapter 08): what each of its commands does where its condition holds. -/
namespace Sys2Proof.Machine

open Sys2Proof

/-- Settles O34: an input, a copy and a configuration write are chains of updates of which each says what it leaves of those before it; the stop
clears records and counts unit by unit; the warning and the restart follow the equations of their meaning. -/
theorem tamperDomain : Obligations.TamperDomain := by
  unfold Obligations.TamperDomain
  refine ⟨?changed, ?copied, ?low, ?stopped, ?restarted, ?configured⟩
  case changed =>
    intro s i a n c r hstop hbit hn hen hslot hr
    refine completes_onDev (f := tamperInput i a n c) rfl ?_
    obtain ⟨supply, valid, clock, he⟩ := tamperInput_records (raw := c) hstop hbit hn hen hslot
    generalize hb : tamperBytes i a supply valid clock s.dev.tamper.next = b at he
    have hobjs := s.dev.keepsObjs_inputRecorded i (r := r) a b
    have hshown : KeepsObjs [(0x4DE0, 5), (0x4DE0, 6)] s.dev (s.dev.setBitO 0x4DE0 6 i a) := (KeepsObjs.refl _ _).set (by simp) (by decide) _
    have hseq : leAt ((s.dev.inputRecorded i r a b).tamperRec r) 8 4 = s.dev.tamper.next % 2 ^ 32 := by
      rw [Dev.record_inputRecorded, ← hb, leAt_tamperBytes]
    rw [he]
    exact ⟨(hobjs.of_objs_eq rfl).setsBit (by decide) (by simp), rfl, hseq, s.dev.count_inputRecorded i a b,
      (hshown.trans (hobjs.mono (by simp))).of_objs_eq rfl, (s.dev.keepsBlobs_inputRecorded i a b hr).of_blobs_eq rfl, rfl⟩
  case copied =>
    intro s r hrun hdue hlen
    refine completes_onDev (f := fun d => d.when d.running (tamperCopy r)) rfl ?_
    obtain ⟨f, hf, he⟩ := tamperCopy_due hdue (by omega)
    have hk := f.keepsObjs_recordCopied r (copiedRec (s.dev.tamperRec r))
    have hblobs : KeepsBlobs [(0x4DE2, r.val + 1)] s.dev (f.recordCopied r (copiedRec (s.dev.tamperRec r))) :=
      ((hf.keepsBlobs _).setB (by simp) (by omega) _).of_blobs_eq rfl
    rw [Dev.when_pos hrun, he]
    refine ⟨tamperDue_recordCopied f r (by omega), Dev.evPending_raiseEv_same _ (by decide), hf.number_then hk (by simp [evObj]),
      hf.keepsObjs_then hk, hblobs, ?_⟩
    obtain ⟨o, b, l, w, rfl⟩ := hf.parts
    exact onlyLogged_of_eq rfl rfl
  case low =>
    intro s hstop hbit hl
    refine completes_onDev rfl ?_
    have hraised : KeepsObjs [evObj 30] (s.dev.setBitO 0x4DE0 4 1 true) ((s.dev.setBitO 0x4DE0 4 1 true).raiseEv 30) :=
      (KeepsObjs.refl _ _).raiseEv (by simp) (by decide)
    have hshown : KeepsObjs [(0x4DE0, 4), evObj 30] s.dev (s.dev.setBitO 0x4DE0 4 1 true) := (KeepsObjs.refl _ _).set (by simp) (by decide) _
    rw [batteryLow_warns hstop hbit hl]
    exact ⟨hraised.setsBit (by decide) (by simp [evObj]), Dev.evPending_raiseEv_same _ (by decide), hshown.trans (hraised.mono (by simp)), rfl⟩
  case stopped =>
    intro s hl
    refine completes_onDev rfl ?_
    rw [tamperStop_unpowered hl]
    generalize hd : ({ s.dev with tamper := { stopped := true } } : Dev) = d
    obtain ⟨h4, h5, h6⟩ := d.get_domainLost
    obtain ⟨o, bl, he⟩ := d.domainLost_parts
    refine ⟨?_, fun r hr => d.record_domainLost hr, h4, h5, h6, fun i hi => d.count_domainLost hi, d.keepsObjs_domainLost.rebase ?_,
      d.keepsBlobs_domainLost.rebase ?_, ?_⟩
    · rw [he, ← hd]
    · rw [← hd]
    · rw [← hd]
    · rw [he, ← hd]
  case restarted =>
    intro s mv hstop
    refine completes_onDev rfl ?_
    rw [tamperRestart_stopped hstop]
    generalize (s.dev.ticking && decide (mv < 2100)) = low
    have hshown := s.dev.keepsObjs_restartShown mv
    obtain ⟨h2, h1⟩ := s.dev.bitO_restartShown mv
    have hraised := (s.dev.restartShown mv).keepsObjs_when_raiseEv low (n := 30) (by decide)
    have hpending := (s.dev.restartShown mv).evPending_when_raiseEv low (n := 30) (by decide)
    have hstays := hraised 0x4DE0 4 (by decide) (by simp [evObj])
    obtain ⟨o, he⟩ := (s.dev.restartShown mv).when_raiseEv_parts low 30
    refine ⟨by rw [he]; rfl, (congrArg (Nat.testBit · 2) hstays).trans h2, (congrArg (Nat.testBit · 1) hstays).trans h1, ?_, ?_,
      by rw [he]; rfl⟩
    · rw [hpending, hshown.evPending (by decide) (by simp [evObj])]
    · exact (hshown.mono (by simp)).trans (hraised.mono (by simp))
  case configured =>
    intro s role i sub v h
    refine completes_onDev (f := writeTamper role (0x4DE0 + i) sub v) rfl ?_
    have hs : sub < 256 := sub_lt_of_accepts_reading (by omega) (by omega) h
    obtain ⟨f, hf, he⟩ := effTamper_steps role (0x4DE0 + i) sub v s.dev
    have hset : KeepsObjs [(0x4DE0 + i.val, sub)] f (f.set (0x4DE0 + i) sub v) := (KeepsObjs.refl _ f).set (by simp) hs v
    have hn : (0x4D40, 1) ∉ [(0x4DE0 + i.val, sub)] := by simp; omega
    rw [writeTamper, writeObj_of_accepts h, he]
    refine ⟨Dev.get_set_same f _ _ v, rfl, hf.number_then hset hn, (hf.keepsObjs_then hset).answer 0, ?_, (hf.keepsBlobs []).of_blobs_eq rfl⟩
    obtain ⟨o, b, l, w, rfl⟩ := hf.parts
    rfl

end Sys2Proof.Machine
end

section
/-! SUPPORT. Commands that act on the part alone, the supply warning, the load channels under a command, and the Mill die's own sequence while the
Loom die is in reset (09 R302 to R304). -/
namespace Sys2Proof.Machine

open Sys2Proof

/-! ## Commands that act on the part alone -/

/-- Every command but DEBUG_WRITE, SUPPLY_RESET and POWER_ON_RESET acts on the part alone. -/
theorem exec_onPart (c : Instr) (s : State) : (∃ e : Dev, exec c s = .next { s with dev := e })
    ∨ (∃ good tag addr data, c = .debugWrite good tag addr data) ∨ c = .supplyReset ∨ c = .powerOnReset := by
  cases c
  case debugWrite good tag addr data => exact .inr (.inl ⟨good, tag, addr, data, rfl⟩)
  case supplyReset => exact .inr (.inr (.inl rfl))
  case powerOnReset => exact .inr (.inr (.inr rfl))
  all_goals exact .inl ⟨_, rfl⟩

/-- DEBUG_WRITE acts on the part and on the debug memory. -/
theorem exec_debugWrite (good : Bool) (tag : Byte) (addr : Nat) (data : Bytes) (s : State) :
    ∃ e m, exec (.debugWrite good tag addr data) s = .next { s with dev := e, mem := m } := by
  show ∃ e m, debugWrite good tag addr data s = _
  unfold debugWrite
  dsimp only
  split <;> exact ⟨_, _, rfl⟩

/-! ## The supply warning (09 R292) -/

/-- The part with the comparator's state `b` held and shown. -/
def Dev.warningShown (d : Dev) (b : Bool) : Dev := Dev.setBitO { d with supply := { d.supply with warning := b } } 0x2100 4 0 b

theorem Dev.warningShown_only (d : Dev) (b : Bool) :
    SetsBit 0x2100 4 0 b d (d.warningShown b) ∧ KeepsObjs [(0x2100, 4)] d (d.warningShown b)
      ∧ d.warningShown b = { d with supply := { d.supply with warning := b }, objs := (d.warningShown b).objs } :=
  ⟨fun j => Dev.bitO_setBitO d _ _ _ b j, KeepsObjs.set ((KeepsObjs.refl _ _).of_objs_eq rfl) (by simp) (by decide) _, rfl⟩

/-! ## Commands of load channels (13 R404, R413) -/

theorem loadIx_ge (n : Nat) : 0x7000 ≤ loadIx n := Nat.le_add_right _ _

/-- Beyond `d`, only the numeric objects of load channels and the records of the channels differ. -/
def OnlyLoads (d e : Dev) : Prop :=
  e = { d with objs := e.objs, loads := e.loads } ∧ ∀ ix sub, ix < 0x7000 → sub < 256 → e.get ix sub = d.get ix sub

theorem OnlyLoads.refl (d : Dev) : OnlyLoads d d := ⟨rfl, fun _ _ _ _ => rfl⟩

section
variable {d e : Dev} (h : OnlyLoads d e)
include h

theorem OnlyLoads.setLoad (n : Nat) (r : LoadRec) : OnlyLoads d (e.setLoad n r) := by
  obtain ⟨he, hk⟩ := h
  exact ⟨congrArg (Dev.setLoad · n r) he, hk⟩

theorem OnlyLoads.set (n sub v : Nat) (hs : sub < 256) : OnlyLoads d (e.set (loadIx n) sub v) := by
  obtain ⟨he, hk⟩ := h
  refine ⟨congrArg (Dev.set · (loadIx n) sub v) he, fun ix sub' hix hs' => ?_⟩
  have hne : loadIx n ≠ ix := by have := loadIx_ge n; omega
  exact (Dev.get_set_ne _ _ _ _ _ _ (okey_ne_of_ix hne hs hs')).trans (hk ix sub' hix hs')

theorem OnlyLoads.setLoadState (n st : Nat) : OnlyLoads d (e.setLoadState n st) := by
  have hstate := h.set n 0x10 (setField (e.get (loadIx n) 0x10) 0 3 st) (by decide)
  unfold Dev.setLoadState
  dsimp only
  generalize e.set (loadIx n) 0x10 (setField (e.get (loadIx n) 0x10) 0 3 st) = f at hstate ⊢
  have hresults : OnlyLoads d (if e.loadState n = 0 && st != 0 then (f.setBitO (loadIx n) 0x10 4 false).setBitO (loadIx n) 0x10 5 false else f) := by
    split
    · exact (hstate.set n 0x10 _ (by decide)).set n 0x10 _ (by decide)
    · exact hstate
  split
  · exact hresults
  · exact hresults.setLoad n _

theorem OnlyLoads.loadRamp (n : Nat) : OnlyLoads d (e.loadRamp n) := (h.setLoadState n _).setLoad n _

/-- A command to a load channel changes what belongs to the channel alone. -/
theorem OnlyLoads.loadCommand (n : Nat) (on : Bool) : OnlyLoads d (e.loadCommand n on) := by
  unfold Dev.loadCommand
  dsimp only
  have hshown := (h.setLoad n { e.load n with on := on }).set n 0x10 (setBit ((e.setLoad n { e.load n with on := on }).get (loadIx n) 0x10) 3 on) (by decide)
  split
  · exact h
  · split
    · split
      · exact hshown.loadRamp n
      · exact hshown
    · split
      · exact hshown.setLoadState n 0
      · exact hshown

end

/-! ## Channels that the Mill die turns off (09 R304) -/

/-- Channels turned off leave the part as it was but for the channels, their objects and the note of those turned off. -/
theorem holdChannels_parts (a g : Nat) (d : Dev) :
    ∃ o l x, holdChannels a g d = { d with objs := o, loads := l, hold := { d.hold with dropped := x } } := by
  refine each_preserves (fun e => ∃ o l x, e = { d with objs := o, loads := l, hold := { d.hold with dropped := x } }) 64 _ (fun n _ e he => ?_) d
    ⟨_, _, _, rfl⟩
  have hoff : ∃ o l x, holdOff n e = { d with objs := o, loads := l, hold := { d.hold with dropped := x } } := by
    obtain ⟨hcommand, -⟩ := (OnlyLoads.refl e).loadCommand n false
    obtain ⟨o, l, x, rfl⟩ := he
    unfold holdOff Dev.when
    dsimp only
    rw [hcommand]
    split <;> exact ⟨_, _, _, rfl⟩
  unfold Dev.when
  split
  · exact hoff
  · exact he

/-- The safe sequence removes the permits and applies STO; beyond that it leaves load channels, groups and objects changed (09 R304). -/
theorem safeSequence_parts (d : Dev) :
    ∃ o gs l x, safeSequence d = { d with objs := o, groups := gs, loads := l, whorl := { d.whorl with permits := 0, sto := 0xFF }
                                          hold := { d.hold with safe := true, dropped := x } } := by
  unfold safeSequence
  dsimp only
  generalize hb : ({ d with whorl := { d.whorl with permits := 0, sto := 0xFF }, hold := { d.hold with safe := true } } : Dev) = b
  generalize hx : each 8 _ b = x
  have hgroups : ∃ o gs, x = { b with objs := o, groups := gs } := by
    rw [← hx]
    refine each_preserves (fun e => ∃ o gs, e = { b with objs := o, groups := gs }) 8 _ (fun g _ e he => ?_) b ⟨_, _, rfl⟩
    obtain ⟨o, gs, rfl⟩ := he
    exact ⟨_, _, rfl⟩
  obtain ⟨o, gs, rfl⟩ := hgroups
  obtain ⟨o', l, x, hc⟩ := holdChannels_parts 1 0 { b with objs := o, groups := gs }
  rw [hc, ← hb]
  exact ⟨_, _, _, _, rfl⟩

/-- A group that opens leaves the part as it was but for its channels and that it is open. -/
theorem openGroup_parts (g : Nat) (d : Dev) :
    ∃ o l x, openGroup g d = { d with objs := o, loads := l, hold := { d.hold with dropped := x, opened := setBit d.hold.opened g true } } := by
  obtain ⟨o, l, x, hc⟩ := holdChannels_parts 2 g d
  rw [openGroup, hc]
  exact ⟨_, _, _, rfl⟩

/-! ## The reclaim (09 R302, R304, R310) -/

/-- The result of a window that ends: 1 without the safe sequence, 2 with every opened group confirmed, 3 otherwise (09 R310). -/
def HoldRec.result (h : HoldRec) : Nat := if !h.safe then 1 else if h.unconfirmed = 0 then 2 else 3

/-- The part with the window over and its result, its duration and the unconfirmed groups shown. -/
def Dev.windowEnded (d : Dev) (micros : Nat) : Dev :=
  { ((d.set 0x2112 1 d.hold.result).set 0x2112 2 (micros % 2 ^ 32)).set 0x2112 3 d.hold.unconfirmed with
    hold := { micros := micros, actions := d.hold.actions, bands := d.hold.bands } }

/-- The first command frame ends the window, then commands the load channels. -/
theorem controlReclaim_onlyLoads {d : Dev} (hr : d.running = true) (ha : d.hold.active = true) (n : Nat) :
    OnlyLoads (d.windowEnded n) (controlReclaim n d) := by
  unfold controlReclaim
  rw [Dev.when_pos (by rw [hr, ha]; rfl)]
  refine each_preserves (OnlyLoads (d.windowEnded n)) 64 _ (fun i _ e he => ?_) _ (OnlyLoads.refl _)
  split
  · split
    · exact he.loadCommand i _
    · exact he
  · exact he.loadCommand i _

theorem Dev.get_windowEnded (d : Dev) (n : Nat) : (d.windowEnded n).get 0x2112 1 = d.hold.result
    ∧ (d.windowEnded n).get 0x2112 2 = n % 2 ^ 32 ∧ (d.windowEnded n).get 0x2112 3 = d.hold.unconfirmed := by
  have hget (ix sub : Nat) : (d.windowEnded n).get ix sub
      = (((d.set 0x2112 1 d.hold.result).set 0x2112 2 (n % 2 ^ 32)).set 0x2112 3 d.hold.unconfirmed).get ix sub := rfl
  simp [hget, Dev.get_set, okey_inj]

end Sys2Proof.Machine
end

section
/-! The outcome of every command, the reset state, the supply monitor's levels and the reset-hold window (chapter 09). -/
namespace Sys2Proof.Machine

open Sys2Proof

/-- Settles O2: every command but three acts on the part alone, and none of the three touches the queue. -/
theorem everyCommandAnswers : Obligations.EveryCommandAnswers := by
  unfold Obligations.EveryCommandAnswers
  intro c s
  obtain ⟨e, he⟩ | ⟨good, tag, addr, data, rfl⟩ | rfl | rfl := exec_onPart c s
  · exact ⟨_, he, rfl, .inl rfl⟩
  · obtain ⟨e, m, he⟩ := exec_debugWrite good tag addr data s
    exact ⟨_, he, rfl, .inr (.inl ⟨good, tag, addr, data, rfl⟩)⟩
  · exact ⟨_, rfl, rfl, .inr (.inr (.inl rfl))⟩
  · exact ⟨_, rfl, rfl, .inr (.inr (.inr rfl))⟩

/-- Settles O4: the tables of objects are empty at reset, so that each object reads its default. -/
theorem resetStateHolds : Obligations.ResetStateHolds :=
  ⟨rfl, rfl, rfl, rfl, rfl, fun _ _ => ⟨rfl, rfl⟩⟩

/-- Settles O7: each event sets one bit of one object where the Loom die has supply, and does nothing else. -/
theorem supplyWarningLevels : Obligations.SupplyWarningLevels := by
  unfold Obligations.SupplyWarningLevels
  refine ⟨?warning, ?clear, ?unpowered⟩
  case warning =>
    intro s h
    refine completes_onDev rfl ?_
    rw [supplyWarning, Dev.when_pos (bne_iff_ne.mpr h)]
    exact s.dev.warningShown_only true
  case clear =>
    intro s h
    refine completes_onDev rfl ?_
    rw [supplyWarningClear, Dev.when_pos (bne_iff_ne.mpr h)]
    exact s.dev.warningShown_only false
  case unpowered =>
    intro s h
    have hb : (s.dev.loom != .unpowered) = false := by rw [h]; rfl
    have hset : supplyWarning s.dev = s.dev := Dev.when_neg hb _ _
    have hclear : supplyWarningClear s.dev = s.dev := Dev.when_neg hb _ _
    exact ⟨(onDev_next supplyWarning s).trans (by rw [hset]), (onDev_next supplyWarningClear s).trans (by rw [hclear])⟩

/-- Settles O14: expiry, confirmation, opening and reclaim each change the window's record in one way and beyond it load channels alone. -/
theorem resetHoldWindow : Obligations.ResetHoldWindow := by
  unfold Obligations.ResetHoldWindow
  refine ⟨?expiry, ?confirmed, ?released, ?timeout, ?reclaimed⟩
  case expiry =>
    intro s ha hs
    refine completes_onDev rfl ?_
    obtain ⟨o, gs, l, x, he⟩ := safeSequence_parts s.dev
    rw [resetHoldExpiry, Dev.when_pos (by rw [ha, hs]; rfl), he]
    exact ⟨rfl, rfl, rfl, ha, rfl, rfl⟩
  case confirmed =>
    intro s g l ha hs ho hz
    refine completes_onDev rfl ?_
    rw [groupConfirmed, Dev.when_pos (by rw [ha, hs, ho, hz]; rfl)]
    exact ⟨(testBit_setBit ..).trans (if_pos rfl), fun j hj => (testBit_setBit ..).trans (if_neg hj), rfl⟩
  case released =>
    intro s g ha hc ho
    refine completes_onDev rfl ?_
    obtain ⟨o, l, x, he⟩ := openGroup_parts g s.dev
    rw [contactorRelease, Dev.when_pos (by rw [ha, hc, ho]; rfl), he]
    exact ⟨(testBit_setBit ..).trans (if_pos rfl), rfl, rfl, rfl⟩
  case timeout =>
    intro s g ha hs hc ho
    refine completes_onDev rfl ?_
    obtain ⟨o, l, x, he⟩ := openGroup_parts g { s.dev with hold := { s.dev.hold with unconfirmed := setBit s.dev.hold.unconfirmed g true } }
    rw [groupTimeout, Dev.when_pos (by rw [ha, hs, hc, ho]; rfl), he]
    exact ⟨(testBit_setBit ..).trans (if_pos rfl), (testBit_setBit ..).trans (if_pos rfl), rfl⟩
  case reclaimed =>
    intro s n hr ha
    refine completes_onDev rfl ?_
    obtain ⟨he, hk⟩ := controlReclaim_onlyLoads hr ha n
    obtain ⟨h1, h2, h3⟩ := s.dev.get_windowEnded n
    have hhold : (controlReclaim n s.dev).hold = (s.dev.windowEnded n).hold := by rw [he]
    refine ⟨by rw [hhold]; rfl, by rw [hhold]; rfl, by rw [hhold]; rfl, by rw [hhold]; rfl, by rw [hhold]; rfl, ?_,
      (hk _ _ (by decide) (by decide)).trans h2, (hk _ _ (by decide) (by decide)).trans h3, ?_⟩
    · rw [hk _ _ (by decide) (by decide), h1, HoldRec.result]
      cases s.dev.hold.safe <;> rfl
    · rw [he]; rfl

end Sys2Proof.Machine
end

section
/-! SUPPORT. A dip that recovers where a request under a number that no requester has waits for a service, and a start whose boot record differs
from what the objects of the images show; what a start leaves of the Loom die. -/
namespace Sys2Proof.Machine

open Sys2Proof

/-! ## Counterexamples -/

/-- What a command on the part completes with is what its function gives. -/
theorem of_completes_onDev {c : Instr} {s : State} {f : Dev → Dev} {p : Dev → Prop} (h : exec c s = onDev f s) (hc : Completes c s p) :
    p (f s.dev) := by
  obtain ⟨e, he, hp⟩ := hc
  have hnext : { s with dev := f s.dev } = { s with dev := e } := Host.Outcome.next.inj (h.symm.trans he)
  rw [show f s.dev = e from congrArg State.dev hnext]
  exact hp

/-- A part in a supply warning whose save is committed, while a request numbered 38 waits for the SHAKE engine; the requesters are 0 to 37
(18 R514). -/
def strayDip : Dev :=
  { loom := .running, supply := { seenAt := some 7, areas := [(1, { committed := true })] }, arb := { svcs := [(0, { waiting := [{ q := 38 }] })] } }

/-- The mark of the save raises the billing engine's rank; the contest then grants the SHAKE engine and counts that for number 38. -/
theorem grants_dipRecovered_strayDip : (dipRecovered strayDip).get (reqIx 38) 4 ≠ strayDip.get (reqIx 38) 4 := by decide +kernel

theorem stray_not_mem_dipObjs : (reqIx 38, 4) ∉ rankObjs ++ [(0x2100, 4), (0x2100, 5), (0x2100, 8)] ++ eventObjs := by decide +kernel

/-- The boot record that names slot 1 of kind 1, where 0x2311.04 shows slot 0 as shipped. -/
def switchedBoot : BootCopy :=
  let c : BootCopy := { slots := [1, 0, 0], floors := [0, 0, 0] }
  { c with crc := crc32 c.bytes }

/-- A part after the release of the power-on reset with that boot record, as when a memory error has taken 0x2311.04 (21 R615). -/
def switchedPart : Dev := { loom := .released, upd := { boot := (some switchedBoot, none) } }

/-- Inputs of a start that finds neither application image good. -/
def badImages : StartInputs :=
  { battery := none, straps := 0, duplicate := false, pair0 := true, pair1 := true, activeBad := [1], otherBad := [1], liveGood := true, vbat := 3000 }

/-- The start takes the active slot from the boot record (20 R594). -/
theorem slot_coldStart_switchedPart : (coldStart badImages switchedPart).get 0x2311 4 ≠ switchedPart.get 0x2311 4 := by decide +kernel

/-! ## Starts (09 R290, R299) -/

/-- The part when a start has counted the boot epoch and loaded the images. -/
def Dev.imagesLoaded (x : StartInputs) (d : Dev) : Dev :=
  loadImage x 3 (loadImage x 2 (loadImage x 1 (loadBoot (d.set 0x1100 1 (if d.get 0x1100 1 = 65535 then 1 else d.get 0x1100 1 + 1)))))

/-- A start that does not end in recovery leaves the Loom die started and its live billing state held (09 R290, R299). -/
theorem startDev_started {x : StartInputs} {d : Dev} (h : (d.imagesLoaded x).loom ≠ .recovery) :
    (startDev x d).loom = .started ∧ (startDev x d).supply.live = true := by
  suffices hs : ∀ e, startDev x d = e → e.loom = .started ∧ e.supply.live = true from hs _ rfl
  intro e he
  unfold startDev at he
  extract_lets at he
  split at he
  · rename_i hrec
    exact absurd hrec h
  · subst he
    exact ⟨rfl, rfl⟩

theorem loom_loadBoot (d : Dev) : (loadBoot d).loom = d.loom := by
  unfold loadBoot
  dsimp only
  split
  · exact each_keeps Dev.loom 3 _ (fun _ _ _ => rfl) d
  · rfl

/-- With every image good the loading leaves the Loom die as it was. -/
theorem loom_imagesLoaded {x : StartInputs} (h : x.activeBad = []) (d : Dev) : (d.imagesLoaded x).loom = d.loom := by
  have hload (k : Nat) (e : Dev) : loadImage x k e = e := by simp [loadImage, h]
  rw [Dev.imagesLoaded, hload, hload, hload, loom_loadBoot, Dev.set_loom]

end Sys2Proof.Machine
end

section
/-! The recovery from a dip and the starts of the Loom die (chapter 09). -/
namespace Sys2Proof.Machine

open Sys2Proof

/-- Refutes O9: where a committed save is marked, it bounds the objects that change by those of requesters 0 to 37 and asks nothing of the
requests that wait; from `strayDip` the contest at the change of rank counts a grant at 0x2536.04. -/
theorem not_recoveryFromADip : ¬ Obligations.RecoveryFromADip := by
  unfold Obligations.RecoveryFromADip
  rintro ⟨-, -, hdip⟩
  obtain ⟨-, -, -, hmarked, -⟩ := hdip strayDip (fun _ ht => nomatch ht) rfl
  obtain ⟨-, -, -, -, -, -, -, -, hkeeps⟩ := hmarked 1 rfl (by decide)
  exact grants_dipRecovered_strayDip (hkeeps _ _ (by decide) stray_not_mem_dipObjs)

/-- Refutes O12: with no application image to be loaded it lets a start change the boot epoch alone among the objects; the start of `switchedPart`
first takes slots and floors from the boot record, and 0x2311.04 changes from 0 to 1. -/
theorem not_startsOfTheLoomDie : ¬ Obligations.StartsOfTheLoomDie := by
  unfold Obligations.StartsOfTheLoomDie
  rintro ⟨-, -, -, hrecovery, -⟩
  obtain ⟨-, -, hkeeps, -⟩ := of_completes_onDev rfl (hrecovery { dev := switchedPart } badImages rfl rfl rfl rfl)
  exact slot_coldStart_switchedPart (hkeeps _ _ (by decide) (by decide))

/-- Settles O13: with every image good neither start ends in recovery. -/
theorem startFromReset : Obligations.StartFromReset := by
  unfold Obligations.StartFromReset
  refine ⟨?cold, ?warm⟩
  case cold =>
    intro s x hl hj hx
    refine completes_onDev rfl ?_
    rw [coldStart, Dev.when_pos (by rw [hl, hj]; rfl)]
    exact startDev_started (by rw [loom_imagesLoaded hx, hl]; decide)
  case warm =>
    intro s x hl hc hj hx
    refine completes_onDev rfl ?_
    rw [warmStart, Dev.when_pos (by rw [hl, decide_eq_true hc, hj]; rfl)]
    exact startDev_started (by rw [loom_imagesLoaded hx, hl]; decide)

end Sys2Proof.Machine
end

section
/-! SUPPORT. The resets of the Loom die (09 R298, R302, R303): what is settled before one, what it keeps, the window that it begins, and the debug
memory without its SRAM. -/
namespace Sys2Proof.Machine

open Sys2Proof

/-! ## What is settled before a reset (07 R264; 08 R268, R272; log entries 97 and 98) -/

/-- Beyond `d`, only objects, byte strings, the free values used, the readings, the billing engine and demand differ. -/
def OnlyRecords (d e : Dev) : Prop :=
  e = { d with freeIdx := e.freeIdx, objs := e.objs, blobs := e.blobs, demand := e.demand, bill := e.bill, reads := e.reads }

theorem OnlyRecords.refl (d : Dev) : OnlyRecords d d := rfl

theorem OnlyRecords.trans {d e f : Dev} (h : OnlyRecords d e) (k : OnlyRecords e f) : OnlyRecords d f := by
  unfold OnlyRecords at k
  rw [h] at k
  exact k

section
variable {d e : Dev} (h : OnlyRecords d e)
include h

theorem OnlyRecords.now : e.now = d.now := by rw [h]
theorem OnlyRecords.areas : e.supply.areas = d.supply.areas := by rw [h]
theorem OnlyRecords.tamper : e.tamper = d.tamper := by rw [h]
theorem OnlyRecords.civil : e.civil = d.civil := by rw [h]
theorem OnlyRecords.hold : e.hold = d.hold := by rw [h]
theorem OnlyRecords.queue : e.dict.queue = d.dict.queue := by rw [h]

end

/-- A chain of such updates is one. -/
theorem onlyRecords_foldl {α : Type} {f : Dev → α → Dev} (h : ∀ d x, OnlyRecords d (f d x)) (l : List α) (d : Dev) :
    OnlyRecords d (l.foldl f d) := by
  induction l generalizing d with
  | nil => exact OnlyRecords.refl d
  | cons x r ih => exact (h d x).trans (ih (f d x))

theorem onlyRecords_numberReading (d : Dev) (c : Capture) : OnlyRecords d (d.numberReading c) := by
  unfold Dev.numberReading Dev.when
  dsimp only
  split <;> rfl

/-- A captured reading changes objects, free values and the readings. -/
theorem onlyRecords_capture (d : Dev) (c : Capture) : OnlyRecords d (d.capture c) := by
  have hnumber := onlyRecords_numberReading d c
  unfold Dev.capture
  split
  · exact OnlyRecords.refl d
  · split
    · exact hnumber.trans rfl
    · split
      · exact rfl
      · split
        · exact hnumber.trans rfl
        · exact OnlyRecords.refl d

theorem onlyRecords_startReadings (d : Dev) : OnlyRecords d (startReadings d) := by
  refine eachN_preserves (OnlyRecords d) _ _ (fun o _ e he => he.trans ?_) _ rfl
  split
  · have hnoted (b : BillRec) : OnlyRecords e { e with bill := b } := rfl
    exact (hnoted _).trans (onlyRecords_capture _ _)
  · exact OnlyRecords.refl e

theorem onlyRecords_snapReadings (d : Dev) : OnlyRecords d (snapReadings d) := by
  have htaken : OnlyRecords d { d with reads := { d.reads with snaps := [] } } := rfl
  exact htaken.trans (onlyRecords_foldl onlyRecords_capture _ _)

theorem onlyRecords_unstage (d : Dev) (r : StagedRec) : OnlyRecords d (unstage d r) := by
  unfold unstage
  split
  · rfl
  · split <;> rfl

theorem onlyRecords_loseStaged (d : Dev) : OnlyRecords d (loseStaged d) :=
  (onlyRecords_foldl onlyRecords_unstage d.bill.staging.reverse d).trans rfl

theorem keepCommitted_idle {d : Dev} (h : d.dict.queue = []) : keepCommitted d = d := by
  unfold keepCommitted
  rw [h]
  rfl

/-- The part as a reset finds it: readings captured, committed writes kept, staged records lost. -/
def Dev.settledForReset (d : Dev) : Dev := loseStaged (keepCommitted (snapReadings (startReadings d)))

/-- With no request in the dictionary queue a reset finds all but records as they were. -/
theorem onlyRecords_settledForReset {d : Dev} (h : d.dict.queue = []) : OnlyRecords d d.settledForReset := by
  have hread := (onlyRecords_startReadings d).trans (onlyRecords_snapReadings _)
  have hqueue : (snapReadings (startReadings d)).dict.queue = [] := hread.queue.trans h
  unfold Dev.settledForReset
  rw [keepCommitted_idle hqueue]
  exact hread.trans (onlyRecords_loseStaged _)

/-! ## What a reset leaves (09 R298) -/

/-- The part `e` is in reset with cause `cause`, and has of `d` what a reset of kind `k` keeps: 0 power-on, 1 supply, 2 warm. -/
structure AfterReset (k cause : Nat) (d e : Dev) : Prop where
  loom : e.loom = .inReset
  cause : e.supply.cause = cause
  now : e.now = d.now
  areas : e.supply.areas = d.supply.areas
  tamper : e.tamper = d.tamper
  civil : e.civil = d.civil
  bill : e.bill = d.bill
  hold : e.hold = if k = 0 then {} else d.hold
  loads : e.loads = if k = 0 then [] else d.loads
  fails : e.dbg.fails = if k = 0 then 0 else d.dbg.fails

theorem AfterReset.of_objs {k cause : Nat} {d e : Dev} (h : AfterReset k cause d e) (o : Tab Nat) : AfterReset k cause d { e with objs := o } :=
  ⟨h.loom, h.cause, h.now, h.areas, h.tamper, h.civil, h.bill, h.hold, h.loads, h.fails⟩

theorem keptBits_parts (d e : Dev) : ∃ o, keptBits d e = { e with objs := o } := by
  unfold keptBits
  dsimp only
  generalize hx : each 4 _ _ = x
  have hobjs : ∃ o, x = { e with objs := o } := by
    rw [← hx]
    refine each_preserves (fun y => ∃ o, y = { e with objs := o }) 4 _ (fun a _ y hy => ?_) _
      (each_preserves (fun y => ∃ o, y = { e with objs := o }) 32 _ (fun o _ y hy => ?_) e ⟨_, rfl⟩)
    all_goals
      obtain ⟨o, rfl⟩ := hy
      split <;> exact ⟨_, rfl⟩
  obtain ⟨o, rfl⟩ := hobjs
  split <;> exact ⟨_, rfl⟩

theorem afterReset_resetDev (k cause : Nat) (d : Dev) : AfterReset k cause d.settledForReset (resetDev k cause d) := by
  suffices hs : ∀ e, resetDev k cause d = e → AfterReset k cause d.settledForReset e from hs _ rfl
  intro e he
  unfold resetDev at he
  extract_lets r w fresh kept at he
  have hfresh : AfterReset k cause d.settledForReset fresh := ⟨rfl, rfl, rfl, rfl, rfl, rfl, rfl, rfl, rfl, rfl⟩
  have hkept : AfterReset k cause d.settledForReset kept := by
    obtain ⟨o, ho⟩ := keptBits_parts r fresh
    rw [show kept = { fresh with objs := o } from ho]
    exact hfresh.of_objs o
  subst he
  split
  · exact hkept
  · split
    · exact hkept.of_objs _
    · exact hkept

/-- Nothing staged outlives a reset. -/
theorem staging_settledForReset (d : Dev) : d.settledForReset.bill.staging = [] := rfl

/-! ## The kinds of reset (09 R298, R302, R303, R305) -/

/-- The part with the reset-hold window begun, unless one runs (09 R302). -/
def Dev.windowBegun (d : Dev) : Dev :=
  if d.hold.active then d else { d with hold := { active := true, actions := d.hold.actions, bands := d.hold.bands } }

theorem Dev.windowBegun_parts (d : Dev) :
    ∃ h, d.windowBegun = { d with hold := h } ∧ h.active = true ∧ h.safe = (d.hold.active && d.hold.safe) := by
  unfold Dev.windowBegun
  split
  · rename_i ha
    exact ⟨d.hold, rfl, ha, by rw [ha]; rfl⟩
  · rename_i ha
    exact ⟨_, rfl, rfl, by rw [Bool.eq_false_iff.mpr ha]; rfl⟩

/-- A warm reset begins the window and turns channels off. -/
theorem warmReset_running {d : Dev} (hl : d.loom = .running) (cause : Nat) :
    ∃ r o l h, AfterReset 2 cause d.settledForReset r ∧ warmReset cause d = { r with objs := o, loads := l, hold := h }
      ∧ h.active = true ∧ h.safe = (r.hold.active && r.hold.safe) := by
  have hr := afterReset_resetDev 2 cause d
  obtain ⟨h, hw, ha, hs⟩ := (resetDev 2 cause d).windowBegun_parts
  obtain ⟨o, l, x, hc⟩ := holdChannels_parts 0 0 (resetDev 2 cause d).windowBegun
  have hreset : warmReset cause d = holdChannels 0 0 (resetDev 2 cause d).windowBegun := by
    simp only [warmReset, hl, Dev.when_true, Dev.windowBegun]
  rw [hreset, hc, hw]
  generalize resetDev 2 cause d = r at hr hs ⊢
  exact ⟨r, _, _, _, hr, rfl, ha, hs⟩

/-- The Loom die in reset after a warm reset, with its cause. -/
theorem warmReset_cause {d : Dev} (hl : d.loom = .running) (cause : Nat) :
    (warmReset cause d).loom = .inReset ∧ (warmReset cause d).supply.cause = cause := by
  obtain ⟨r, o, l, h, hr, he, -, -⟩ := warmReset_running hl cause
  rw [he]
  exact ⟨hr.loom, hr.cause⟩

/-- With no request in the dictionary queue a warm reset keeps device time, the save areas, the tamper domain and civil time, and a window that
runs goes on (09 R298, R302). -/
theorem warmReset_keeps {d : Dev} (hl : d.loom = .running) (hq : d.dict.queue = []) (cause : Nat) :
    let e := warmReset cause d
    e.now = d.now ∧ e.hold.active = true ∧ e.hold.safe = (d.hold.active && d.hold.safe) ∧ e.supply.areas = d.supply.areas ∧ e.tamper = d.tamper
      ∧ e.civil = d.civil ∧ e.bill.staging = [] := by
  obtain ⟨r, o, l, h, hr, he, ha, hs⟩ := warmReset_running hl cause
  have hsettled : OnlyRecords d d.settledForReset := onlyRecords_settledForReset hq
  have hwindow : r.hold = d.hold := hr.hold.trans hsettled.hold
  rw [hwindow] at hs
  dsimp only
  rw [he]
  exact ⟨hr.now.trans hsettled.now, ha, hs, hr.areas.trans hsettled.areas, hr.tamper.trans hsettled.tamper, hr.civil.trans hsettled.civil,
    (congrArg BillRec.staging hr.bill).trans (staging_settledForReset d)⟩

/-- A supply reset begins the safe sequence at once. -/
theorem supplyReset_running {d : Dev} (hl : d.loom = .running) :
    ∃ r o gs l w h, AfterReset 1 2 d.settledForReset r ∧ supplyReset d = { r with objs := o, groups := gs, loads := l, whorl := w, hold := h }
      ∧ h.active = true ∧ h.safe = true ∧ w.permits = 0 ∧ w.sto = 0xFF := by
  have hr := afterReset_resetDev 1 2 d
  obtain ⟨h, hw, ha, -⟩ := (resetDev 1 2 d).windowBegun_parts
  obtain ⟨o, gs, l, x, hq⟩ := safeSequence_parts (resetDev 1 2 d).windowBegun
  obtain ⟨o', l', x', hc⟩ := holdChannels_parts 0 0 (safeSequence (resetDev 1 2 d).windowBegun)
  have hreset : supplyReset d = holdChannels 0 0 (safeSequence (resetDev 1 2 d).windowBegun) := by
    simp only [supplyReset, Dev.supplyFalls, hl, Dev.when_true, Dev.windowBegun]
  rw [hreset, hc, hq, hw]
  generalize resetDev 1 2 d = r at hr ⊢
  exact ⟨r, _, _, _, _, _, hr, rfl, ha, rfl, rfl, rfl⟩

theorem execSupplyReset_running {s : State} (hl : s.dev.loom = .running) :
    exec .supplyReset s = .next { s with dev := supplyReset s.dev, mem := sramLost s.mem } := by
  have hfalls : s.dev.supplyFalls = true := by simp only [Dev.supplyFalls, hl]
  show execSupplyReset s = _
  rw [execSupplyReset, if_pos hfalls]

/-- A power-on reset takes the supply away; a tamper domain that had stopped loses what it held. -/
theorem powerOnReset_parts (d : Dev) :
    ∃ r o bl t, AfterReset 0 1 d.settledForReset r ∧ powerOnReset d = { r with loom := .unpowered, objs := o, blobs := bl, tamper := t }
      ∧ (r.tamper.stopped = false → t = r.tamper) := by
  have hr := afterReset_resetDev 0 1 d
  unfold powerOnReset
  dsimp only
  generalize resetDev 0 1 d = r at hr ⊢
  cases hs : r.tamper.stopped with
  | false => exact ⟨r, _, _, _, hr, rfl, fun _ => rfl⟩
  | true =>
    rw [Dev.when_true, tamperStop_unpowered (d := { r with loom := .unpowered }) rfl]
    obtain ⟨o, bl, hd⟩ := Dev.domainLost_parts { r with loom := .unpowered, tamper := { stopped := true } }
    rw [hd]
    exact ⟨r, _, _, _, hr, rfl, fun h => absurd (hs.symm.trans h) (by decide)⟩

/-! ## The SRAM of the debug memory (21 R602) -/

/-- Reading a table of which the entries under some keys are dropped. -/
theorem tget_filter_key {α : Type} (z : α) (p : Nat → Bool) (t : Tab α) (k : Nat) :
    tget z (t.filter fun c => p c.1) k = if p k = true then tget z t k else z := by
  induction t with
  | nil => exact (ite_self z).symm
  | cons c r ih =>
    obtain ⟨q, v⟩ := c
    by_cases hq : q = k
    · subst hq
      cases hp : p q with
      | true => simp [hp, tget]
      | false => simpa [hp] using ih
    · cases hp : p q with
      | true => simpa [hp, tget, hq] using ih
      | false => simpa [hp, tget, hq] using ih

theorem memGet_sramLost (m : List Host.Cell) (a : Nat) : memGet (sramLost m) a = if a < 0x20000000 then memDefault else memGet m a := by
  refine (tget_filter_key memDefault (fun a => decide (0x20000000 ≤ a)) m a).trans ?_
  by_cases h : a < 0x20000000
  · rw [if_pos h, if_neg (by simpa using h)]
  · rw [if_neg h, if_pos (by simpa using h)]
    rfl

end Sys2Proof.Machine
end

section
/-! The resets of the Loom die (chapter 09). -/
namespace Sys2Proof.Machine

open Sys2Proof

/-- Settles O10: every kind of reset goes through `resetDev`; what it keeps is that of the part settled before it, which with no request in the queue
differs from the part in records alone. -/
theorem resetsOfTheLoomDie : Obligations.ResetsOfTheLoomDie := by
  unfold Obligations.ResetsOfTheLoomDie
  have hwatchdog {d : Dev} (hh : d.dbg.halted = false) : watchdogExpiry d = warmReset 7 d := Dev.when_pos (by rw [hh]; rfl) _ _
  refine ⟨?window, ?warm, ?watchdog, ?clock, ?supply, ?supplyKeeps, ?powerOn, ?powerOnKeeps, ?memory, ?commanded⟩
  case window =>
    intro s c k hc hl hh hq
    have hexec : exec c s = .next { s with dev := warmReset k s.dev } := by
      simp only [List.mem_cons, Prod.mk.injEq, List.not_mem_nil, or_false] at hc
      obtain ⟨rfl, rfl⟩ | ⟨rfl, rfl⟩ | ⟨rfl, rfl⟩ := hc
      · rfl
      · exact (onDev_next watchdogExpiry s).trans (by rw [hwatchdog hh])
      · rfl
    obtain ⟨hloom, hcause⟩ := warmReset_cause hl k
    exact ⟨_, hexec, hloom, hcause, warmReset_keeps hl hq k⟩
  case warm =>
    intro s hl
    exact completes_onDev rfl (warmReset_cause hl 3)
  case watchdog =>
    intro s hl hh
    refine completes_onDev rfl ?_
    rw [hwatchdog hh]
    exact warmReset_cause hl 7
  case clock =>
    intro s hl
    exact completes_onDev rfl (warmReset_cause hl 5)
  case supply =>
    intro s hl
    obtain ⟨r, o, gs, l, w, h, hr, he, -⟩ := supplyReset_running hl
    refine ⟨supplyReset s.dev, execSupplyReset_running hl, ?_⟩
    rw [he]
    exact ⟨hr.loom, hr.cause⟩
  case supplyKeeps =>
    intro s hl hq
    obtain ⟨r, o, gs, l, w, h, hr, he, ha, hs, hp, ht⟩ := supplyReset_running hl
    have hsettled := onlyRecords_settledForReset hq
    refine ⟨supplyReset s.dev, execSupplyReset_running hl, ?_⟩
    rw [he]
    exact ⟨ha, hs, hp, ht, hr.tamper.trans hsettled.tamper, hr.civil.trans hsettled.civil, hr.areas.trans hsettled.areas⟩
  case powerOn =>
    intro s
    obtain ⟨r, o, bl, t, hr, he, -⟩ := powerOnReset_parts s.dev
    refine ⟨powerOnReset s.dev, rfl, ?_⟩
    rw [he]
    exact ⟨rfl, hr.cause, hr.hold, hr.loads, hr.fails⟩
  case powerOnKeeps =>
    intro s hq hstop
    obtain ⟨r, o, bl, t, hr, he, ht⟩ := powerOnReset_parts s.dev
    have hsettled := onlyRecords_settledForReset hq
    have htamper := hr.tamper.trans hsettled.tamper
    refine ⟨powerOnReset s.dev, rfl, ?_⟩
    rw [he]
    exact ⟨(ht (by rw [htamper]; exact hstop)).trans htamper, hr.civil.trans hsettled.civil, hr.areas.trans hsettled.areas⟩
  case memory => exact fun m a _ => memGet_sramLost m a
  case commanded =>
    intro s role v h
    refine completes_onDev rfl ?_
    rw [writeObj_of_accepts h]
    rfl

end Sys2Proof.Machine
end

section
/-! SUPPORT. The record, the step and the objects of an outlet after an update (10 R326, R328), and the sub-index of an admitted write to an
outlet. -/
namespace Sys2Proof.Machine

open Sys2Proof

/-! ## The record beside the objects -/

@[simp] theorem Dev.out_set (d : Dev) (ix sub v o : Nat) : (d.set ix sub v).out o = d.out o := rfl
@[simp] theorem Dev.out_setBitO (d : Dev) (ix sub i : Nat) (b : Bool) (o : Nat) : (d.setBitO ix sub i b).out o = d.out o := rfl
@[simp] theorem Dev.out_raiseEv (d : Dev) (n o : Nat) : (d.raiseEv n).out o = d.out o := rfl
@[simp] theorem Dev.get_setOut (d : Dev) (o : Nat) (r : OutRec) (ix sub : Nat) : (d.setOut o r).get ix sub = d.get ix sub := rfl
@[simp] theorem Dev.evPending_setOut (d : Dev) (o : Nat) (r : OutRec) (n : Nat) : (d.setOut o r).evPending n = d.evPending n := rfl

/-- The record and an object of the part are set in either order. -/
@[simp] theorem Dev.set_setOut (d : Dev) (o : Nat) (r : OutRec) (ix sub v : Nat) : (d.setOut o r).set ix sub v = (d.set ix sub v).setOut o r := rfl

theorem Dev.askEnd_eq (d : Dev) (o r : Nat) : d.askEnd o r = d.setOut o { d.out o with ask := setBit (d.out o).ask r true } := rfl

section
variable {but : List (Nat × Nat)} {d e : Dev} (h : KeepsObjs but d e)
include h

theorem KeepsObjs.setOut (o : Nat) (r : OutRec) : KeepsObjs but d (e.setOut o r) := h.of_objs_eq rfl

theorem KeepsObjs.setBitO {ix sub : Nat} (hm : (ix, sub) ∈ but) (hs : sub < 256) (i : Nat) (b : Bool) : KeepsObjs but d (e.setBitO ix sub i b) :=
  h.set hm hs _

/-- A bit set after updates that do not touch its object. -/
theorem KeepsObjs.then_setBitO {ix sub : Nat} (hs : sub < 256) (hn : (ix, sub) ∉ but) (i : Nat) (b : Bool) :
    SetsBit ix sub i b d (e.setBitO ix sub i b) := fun j => by
  have hbit : e.bitO ix sub j = d.bitO ix sub j := congrArg (Nat.testBit · j) (h ix sub hs hn)
  rw [Dev.bitO_setBitO, hbit]

end

/-! ## Indices and sub-indices -/

/-- The objects of an outlet stand above those of the events and the logs. -/
theorem outletIx_ge (o : Nat) : 0x5000 ≤ outletIx o := Nat.le_add_right _ _

theorem Dev.evPending_set_outlet (d : Dev) (o k v n : Nat) {sub : Nat} (hs : sub < 256) : (d.set (outletIx o + k) sub v).evPending n = d.evPending n :=
  Dev.evPending_set d v n (by have := outletIx_ge o; omega) hs

/-- The sub-index of an admitted write to an outlet is one of its table. -/
theorem sub_lt_of_accepts_outlet {d : Dev} {role : Role} {o : Fin 32} {k sub : Nat} {v : Val} {x : Rules} (hk : k < 0x20)
    (h : Accepts d role (outletIx o + k) sub v x) : sub < 256 := by
  have hrows : rowsFor (outletIx o + k) = rowsOutlet := by
    unfold rowsFor outletIx
    simp (disch := omega) only [if_neg, if_pos]
  have hsubs : ∀ r ∈ rowsOutlet, r.subHi < 256 := by decide
  obtain ⟨r, hr, hle⟩ := exists_row_of_accepts h
  rw [hrows] at hr
  exact Nat.lt_of_le_of_lt hle (hsubs r hr)

end Sys2Proof.Machine
end

section
/-! The session sequencer's own events and the host limits that grow stale (10 R324, R326, R330): what each command does where its condition
holds. -/
namespace Sys2Proof.Machine

open Sys2Proof

/-! ## Entering a step (10 R326) -/

/-- Ramp-down is never skipped and begins with no action. -/
theorem enterStep_rampDown (o t : Nat) (d : Dev) :
    enterStep 1 o 7 t d = (d.set (outletIx o + 3) 1 7).setOut o { d.out o with since := t, run := 0 } := rfl

/-- Step 0 waits for the vehicle to leave. -/
theorem enterStep_idle (o t : Nat) (d : Dev) :
    enterStep 1 o 0 t d = (d.set (outletIx o + 3) 1 0).setOut o
      { d.out o with waitAbsent := true, ask := 0, reason := 0, since := t, run := 0 } := by
  simp [enterStep, Dev.skips, stepAction]

/-! ## The end of a session (10 R328) -/

theorem endReason_of_bit3 {ask : Nat} (h : ask.testBit 3 = true) : endReason ask = 3 := by simp [endReason, h]

/-- What waits of a trip of the tick itself hides no other cause (11 R364). -/
theorem OutRec.testBit_asks {r : OutRec} (h : r.ask.testBit 3 = true) (t : Nat) : (r.asks t).testBit 3 = true := by
  unfold OutRec.asks
  split
  · rw [testBit_setBit]
    exact h
  · exact h

/-- An end with reason 3 among the causes goes to ramp-down with reason 3. -/
theorem toRampDown_of_bit3 {o t : Nat} {d : Dev} (h : (d.out o).ask.testBit 3 = true) :
    toRampDown o t d = (d.set (outletIx o + 3) 1 7).setOut o { d.out o with reason := 3, ask := 0, since := t, run := 0 } := by
  have hreason : endReason ((d.out o).asks t) = 3 := endReason_of_bit3 (OutRec.testBit_asks h t)
  simp [toRampDown, hreason, enterStep_rampDown]

/-! ## The three events -/

section
variable {d : Dev} {o : Nat}

theorem Dev.stepLate_iff (t : Nat) :
    d.stepLate o t = true ↔ d.get (outletIx o + 6) (d.step o) ≠ 0 ∧ (d.out o).since + d.get (outletIx o + 6) (d.step o) ≤ t := by
  simp [Dev.stepLate]

theorem stepTimeout_late (hr : d.running = true) (hs : d.stepIn o 2 6 = true) (hw : d.warned = false) (hp : d.pausing 1 = false)
    (ht : d.stepLate o (d.now + 1) = true) :
    stepTimeout o d = (d.set (outletIx o + 3) 1 7).setOut o { d.out o with reason := 3, ask := 0, since := d.now + 1, run := 0 } := by
  have hask : ((d.askEnd o 3).out o).ask.testBit 3 = true := by simp [Dev.askEnd, testBit_setBit]
  refine (Dev.when_pos (by simp [hr, hs, hw, hp, ht, Dev.effTick]) _ d).trans ((toRampDown_of_bit3 hask).trans ?_)
  simp [Dev.askEnd, Dev.effTick]

/-- The outlet out of service, with its event (10 R330). -/
def Dev.outletWelded (d : Dev) (o : Nat) : Dev := (d.setBitO (outletIx o + 3) 2 5 true).raiseEv 42

theorem weldedContactor_late (hr : d.running = true) (hs : d.step o = 8) (hp : d.pausing 1 = false) (ht : d.stepLate o (d.now + 1) = true) :
    weldedContactor o d = ((d.outletWelded o).set (outletIx o + 3) 1 0).setOut o
      { d.out o with waitAbsent := true, ask := 0, reason := 0, since := d.now + 1, run := 0 } :=
  (Dev.when_pos (by simp [hr, hs, hp, ht, Dev.effTick]) _ d).trans (enterStep_idle o (d.now + 1) (d.outletWelded o))

/-- The outlet marked as one of stale limits, with its event (10 R324). -/
def Dev.limitsMarked (d : Dev) (o : Nat) : Dev := (d.setBitO (outletIx o + 3) 2 3 true).raiseEv 43

theorem limitsStale_first (hp : d.pausing 1 = false) (ht : d.limitsOld o (d.now + 1) = true) (hb : d.bitO (outletIx o + 3) 2 3 = false) :
    limitsStale o d = (d.limitsMarked o).setOut o { d.out o with current := 0 } :=
  Dev.when_pos (by simp [hp, ht, hb, Dev.effTick]) _ d

/-- Limits known as stale are marked no more. -/
theorem limitsStale_again (hb : d.bitO (outletIx o + 3) 2 3 = true) : limitsStale o d = d := Dev.when_neg (by simp [hb]) _ d

theorem stepTimeout_pausing (hp : d.pausing 1 = true) : stepTimeout o d = d := Dev.when_neg (by simp [hp]) _ d
theorem weldedContactor_pausing (hp : d.pausing 1 = true) : weldedContactor o d = d := Dev.when_neg (by simp [hp]) _ d
theorem limitsStale_pausing (hp : d.pausing 1 = true) : limitsStale o d = d := Dev.when_neg (by simp [hp]) _ d

end

/-- An event of the working part that does nothing in a pause changes nothing where the part does not work or pauses. -/
theorem completes_idle {c : Instr} {s : State} {f : Dev → Dev} (h : exec c s = onRun f s) (hidle : s.dev.running = false ∨ s.dev.pausing 1 = true)
    (hpause : s.dev.pausing 1 = true → f s.dev = s.dev) : Completes c s fun e => e = s.dev := by
  refine completes_onDev (f := fun d => d.when d.running f) h ?_
  cases hr : s.dev.running with
  | false => exact Dev.when_neg rfl f s.dev
  | true => exact (Dev.when_pos rfl f s.dev).trans (hpause (hidle.resolve_left (by simp [hr])))

/-- Settles O37: each event sets the step and the record of its outlet by the equation of its meaning, over the bit that it marks. -/
theorem sequencerTimeouts : Obligations.SequencerTimeouts := by
  unfold Obligations.SequencerTimeouts
  refine ⟨?timeout, ?welded, ?stale, ?idle⟩
  case timeout =>
    intro s o hr hs hw hp hx ht
    refine completes_onRun rfl hr ?_
    rw [stepTimeout_late hr hs hw hp ((Dev.stepLate_iff _).mpr ⟨hx, ht⟩)]
    exact ⟨Dev.get_set_same _ _ _ _, by simp, by simp, by simp, by simp, by simp, fun p hp => Dev.out_setOut_ne _ _ _ hp,
      ((KeepsObjs.refl _ s.dev).set (by simp) (by decide) 7).setOut o _, rfl⟩
  case welded =>
    intro s o hr hs hp hx ht
    refine completes_onRun rfl hr ?_
    rw [← hs] at hx ht
    rw [weldedContactor_late hr hs hp ((Dev.stepLate_iff _).mpr ⟨hx, ht⟩)]
    have hafter : KeepsObjs [(outletIx o + 3, 1), evObj 42] (s.dev.setBitO (outletIx o + 3) 2 5 true)
        ((s.dev.outletWelded o).set (outletIx o + 3) 1 0) :=
      ((KeepsObjs.refl _ _).raiseEv (by simp) (by decide)).set (by simp) (by decide) 0
    have hbit := (KeepsObjs.refl [(outletIx o + 3, 2)] s.dev).setBitO (ix := outletIx o + 3) (sub := 2) (by simp) (by decide) 5 true
    have hne : (outletIx o + 3, 2) ∉ [(outletIx o + 3, 1), evObj 42] := by
      have := outletIx_ge o
      simp [evObj]
      omega
    refine ⟨Dev.get_set_same _ _ _ _, (hafter.setsBit (by decide) hne), ?_, by simp [Dev.outletWelded],
      fun p hp => Dev.out_setOut_ne _ _ _ hp, ((hbit.mono (by simp)).trans (hafter.mono (by simp))).setOut o _, rfl⟩
    rw [Dev.evPending_setOut, Dev.evPending_set_outlet _ _ _ _ _ (by decide)]
    exact Dev.evPending_raiseEv_same _ (by decide)
  case stale =>
    intro s o hr hp ht
    refine ⟨fun hb => completes_onRun rfl hr ?_, fun hb => completes_onRun rfl hr (limitsStale_again hb)⟩
    rw [limitsStale_first hp ht hb]
    have hafter : KeepsObjs [evObj 43] (s.dev.setBitO (outletIx o + 3) 2 3 true) (s.dev.limitsMarked o) :=
      (KeepsObjs.refl _ _).raiseEv (by simp) (by decide)
    have hbit := (KeepsObjs.refl [(outletIx o + 3, 2)] s.dev).setBitO (ix := outletIx o + 3) (sub := 2) (by simp) (by decide) 3 true
    have hne : (outletIx o + 3, 2) ∉ [evObj 43] := by
      have := outletIx_ge o
      simp [evObj]
      omega
    exact ⟨hafter.setsBit (by decide) hne, Dev.evPending_raiseEv_same _ (by decide), by simp, fun p hp => Dev.out_setOut_ne _ _ _ hp,
      ((hbit.mono (by simp)).trans (hafter.mono (by simp))).setOut o _, rfl⟩
  case idle =>
    exact fun s o h => ⟨completes_idle rfl h stepTimeout_pausing, completes_idle rfl h weldedContactor_pausing,
      completes_idle rfl h limitsStale_pausing⟩

end Sys2Proof.Machine
end

section
/-! Writes to an outlet (10 R312, R319, R324, R327, R328, R330, R334): what each leaves once every check admits it. -/
namespace Sys2Proof.Machine

open Sys2Proof

/-! ## Host limits (10 R324) -/

/-- The part with a limit of outlet `o` stored and the mark of stale limits cleared. -/
def Dev.limitWritten (d : Dev) (o sub v : Nat) : Dev := (d.set (outletIx o + 1) sub v).setBitO (outletIx o + 3) 2 3 false

theorem effLimits_eq (o sub v : Nat) (d : Dev) :
    effLimits o sub v d = (d.limitWritten o sub v).setOut o { d.out o with limitsAt := some (d.now + 1) } := rfl

/-! ## Control (10 R327, R328, R330) -/

theorem effControl_permit (o v : Nat) (d : Dev) :
    effControl o 1 v d = (d.set (outletIx o + 2) 1 v).setProt o { d.prot o with selfDone := false } := rfl
theorem effControl_return (o : Nat) (d : Dev) : effControl o 5 1 d = d.setBitO (outletIx o + 3) 2 5 false := rfl
theorem effControl_noReturn (o : Nat) (d : Dev) : effControl o 5 0 d = d := rfl

/-- Each of several statuses is 0 where the first that is not 0 is none of them. -/
theorem firstStatus_eq_zero {l : List Nat} : firstStatus l = 0 ↔ ∀ x ∈ l, x = 0 := by
  induction l with
  | nil => simp [firstStatus]
  | cons a l ih =>
    by_cases h : a = 0 <;> simp [firstStatus, h, ih]

/-- A write that its object's row admits is admitted unless its chapter refuses it, and where its chapter refuses the value alone it is answered with
that status. -/
theorem writeStatus_of_range {d : Dev} {role : Role} {ix sub : Nat} {v : Val} (h : writeStatus d role ix sub v {} = 0) (st : Nat) :
    writeStatus d role ix sub v { atRange := st } = st := by
  unfold writeStatus at h ⊢
  split at h
  · exact absurd h (by decide)
  · rename_i hix
    rw [if_neg hix]
    cases hrow : objRow ix sub with
    | none =>
      rw [hrow] at h
      dsimp only at h
      split at h <;> exact absurd h (by decide)
    | some r =>
      rw [hrow] at h
      have hall := firstStatus_eq_zero.mp h
      simp only [List.mem_cons, List.not_mem_nil, or_false, forall_eq_or_imp, forall_eq] at hall
      obtain ⟨hdir, -, hrole, hlife, -, -, hlen, hrange, -⟩ := hall
      simpa [firstStatus, hdir, hrole, hlife, hlen, hrange] using Eq.symm

/-- An admitted write was refused by its chapter in no check of the lifecycle state. -/
theorem atLife_of_accepts {d : Dev} {role : Role} {ix sub : Nat} {v : Val} {x : Rules} (h : Accepts d role ix sub v x) : x.atLife = 0 := by
  have hst := h.2
  unfold writeStatus at hst
  split at hst
  · exact absurd hst (by decide)
  · cases hrow : objRow ix sub with
    | none =>
      rw [hrow] at hst
      dsimp only at hst
      split at hst <;> exact absurd hst (by decide)
    | some r =>
      rw [hrow] at hst
      exact firstStatus_eq_zero.mp hst _ (by simp)

/-! ## Configuration (10 R319, R334) -/

/-- The part with V+0x00.01 of outlet `o` written; code 6 clears the bit rate of the CAN path. -/
def Dev.codeWritten (d : Dev) (o v : Nat) : Dev :=
  (d.set (outletIx o) 1 v).when (v % 16 == 6) fun d => d.set (outletIx o + 5) 4 0

section
variable (d : Dev) (o v : Nat)

theorem Dev.codeWritten_eq : d.codeWritten o v = { d with objs := (d.codeWritten o v).objs } := by
  unfold Dev.codeWritten
  cases v % 16 == 6 <;> rfl

theorem Dev.keepsObjs_codeWritten : KeepsObjs [(outletIx o, 1), (outletIx o + 5, 4)] d (d.codeWritten o v) :=
  have hset := (KeepsObjs.refl [(outletIx o, 1), (outletIx o + 5, 4)] d).set (by simp) (by decide) v
  hset.when _ (hset.set (by simp) (by decide) 0)

theorem Dev.get_codeWritten : (d.codeWritten o v).get (outletIx o) 1 = v := by
  have hset := Dev.get_set_same d (outletIx o) 1 v
  have hk : KeepsObjs [(outletIx o + 5, 4)] (d.set (outletIx o) 1 v) (d.codeWritten o v) :=
    (KeepsObjs.refl _ _).when _ ((KeepsObjs.refl _ _).set (by simp) (by decide) 0)
  exact (hk _ _ (by decide) (by simp)).trans hset

theorem Dev.rate_codeWritten : (d.codeWritten o v).get (outletIx o + 5) 4 = if v % 16 = 6 then 0 else d.get (outletIx o + 5) 4 := by
  unfold Dev.codeWritten
  by_cases h : v % 16 = 6
  · rw [if_pos h, Dev.when_pos (beq_iff_eq.mpr h)]
    exact Dev.get_set_same _ _ _ _
  · rw [if_neg h, Dev.when_neg (beq_eq_false_iff_ne.mpr h)]
    exact Dev.get_set_ne _ _ _ _ _ _ (okey_ne_of_ix (by omega) (by decide) (by decide))

theorem Dev.step_codeWritten : (d.codeWritten o v).step o = d.step o := d.keepsObjs_codeWritten o v _ _ (by decide) (by simp)

theorem Dev.stepIn_codeWritten (a b : Nat) : (d.codeWritten o v).stepIn o a b = d.stepIn o a b := by
  simp only [Dev.stepIn, Dev.step_codeWritten]

theorem Dev.out_codeWritten (p : Nat) : (d.codeWritten o v).out p = d.out p := by rw [Dev.codeWritten_eq]; rfl

/-- A value that leaves the outlet in service is stored. -/
theorem effOutlet_enabling (h : disables v = false) : effOutlet o 1 v d = d.codeWritten o v := by
  simp [effOutlet, h, Dev.codeWritten]

/-- Taken out of service before a session, the outlet goes to step 0. -/
theorem effOutlet_idle (h : disables v = true) (hs : d.step o ≤ 1) :
    effOutlet o 1 v d = ((d.codeWritten o v).set (outletIx o + 3) 1 0).setOut o { d.out o with slac := {} } := by
  have hstep : (d.codeWritten o v).step o ≤ 1 := by rw [Dev.step_codeWritten]; exact hs
  have hout := d.out_codeWritten o v o
  unfold Dev.codeWritten at hstep hout ⊢
  simp only [effOutlet, h, if_true, if_pos hstep, hout]

/-- Taken out of service later, the outlet ends its session with reason 4. -/
theorem effOutlet_draining (h : disables v = true) (hs : 1 < d.step o) :
    effOutlet o 1 v d = (d.codeWritten o v).when (d.stepIn o 2 6) fun e => e.askEnd o 4 := by
  have hstep : ¬(d.codeWritten o v).step o ≤ 1 := by rw [Dev.step_codeWritten]; omega
  have hin := d.stepIn_codeWritten o v 2 6
  unfold Dev.codeWritten at hstep hin ⊢
  simp only [effOutlet, h, if_true, if_neg hstep, hin]

theorem effOutlet_other {sub : Nat} (h : sub ≠ 1) : effOutlet o sub v d = d.set (outletIx o) sub v := by simp [effOutlet, h]

end

/-- What a configuration written leaves (10 R319, R334). -/
def ConfigWritten (o sub v : Nat) (d e : Dev) : Prop :=
  e.get (outletIx o) sub = v
  ∧ e.get (outletIx o + 5) 4 = (if sub = 1 ∧ v % 16 = 6 then 0 else d.get (outletIx o + 5) 4)
  ∧ e.step o = (if sub = 1 ∧ disables v = true ∧ d.step o ≤ 1 then 0 else d.step o)
  ∧ (e.out o).ask = (if sub = 1 ∧ disables v = true ∧ d.stepIn o 2 6 = true then setBit (d.out o).ask 4 true else (d.out o).ask)
  ∧ e.out o = { d.out o with ask := (e.out o).ask, slac := (e.out o).slac, waitAbsent := (e.out o).waitAbsent }
  ∧ (∀ p, p ≠ o → e.out p = d.out p) ∧ (sub ≠ 1 ∨ disables v = false → e.outs = d.outs)
  ∧ KeepsObjs [(outletIx o, sub), (outletIx o + 3, 1), (outletIx o + 5, 4)] d e
  ∧ e = { d with objs := e.objs, outs := e.outs }

section
variable {o v : Nat} {d : Dev}

theorem configWritten_other {sub : Nat} (h : sub ≠ 1) (hs : sub < 256) : ConfigWritten o sub v d (effOutlet o sub v d) := by
  rw [effOutlet_other d o v h]
  have hk := (KeepsObjs.refl [(outletIx o, sub)] d).set (ix := outletIx o) (by simp) hs v
  have hstep : (d.set (outletIx o) sub v).step o = d.step o := hk _ _ (by decide) (by simp)
  refine ⟨Dev.get_set_same _ _ _ _, ?_, by simp [h, hstep], by simp [h], rfl, fun p hp => rfl, fun _ => rfl, hk.mono (by simp), rfl⟩
  simp only [h, false_and, if_false]
  exact hk _ _ (by decide) (by simp)

/-- What is common to the values of V+0x00.01: the objects, with step `st` shown where the outlet was in step 0 or 1, and the record set beside
them. -/
theorem Dev.codeWritten_objs : (d.codeWritten o v).get (outletIx o) 1 = v
    ∧ (d.codeWritten o v).get (outletIx o + 5) 4 = (if (1 = 1) ∧ v % 16 = 6 then 0 else d.get (outletIx o + 5) 4)
    ∧ KeepsObjs [(outletIx o, 1), (outletIx o + 3, 1), (outletIx o + 5, 4)] d (d.codeWritten o v) := by
  refine ⟨d.get_codeWritten o v, ?_, (d.keepsObjs_codeWritten o v).mono (by simp)⟩
  simpa using d.rate_codeWritten o v

theorem configWritten_enabling (h : disables v = false) : ConfigWritten o 1 v d (effOutlet o 1 v d) := by
  rw [effOutlet_enabling d o v h]
  obtain ⟨hval, hrate, hk⟩ := Dev.codeWritten_objs (o := o) (v := v) (d := d)
  exact ⟨hval, hrate, by simp [h, Dev.step_codeWritten], by simp [h, Dev.out_codeWritten], by simp [Dev.out_codeWritten],
    fun p _ => d.out_codeWritten o v p, fun _ => by rw [Dev.codeWritten_eq], hk, by rw [Dev.codeWritten_eq]⟩

theorem configWritten_idle (h : disables v = true) (hs : d.step o ≤ 1) : ConfigWritten o 1 v d (effOutlet o 1 v d) := by
  rw [effOutlet_idle d o v h hs]
  obtain ⟨hval, hrate, hk⟩ := Dev.codeWritten_objs (o := o) (v := v) (d := d)
  have hset : KeepsObjs [(outletIx o + 3, 1)] (d.codeWritten o v) ((d.codeWritten o v).set (outletIx o + 3) 1 0) :=
    (KeepsObjs.refl _ _).set (by simp) (by decide) 0
  have hin : d.stepIn o 2 6 = false := by simp [Dev.stepIn]; omega
  refine ⟨(hset _ _ (by decide) (by simp)).trans hval, (hset _ _ (by decide) (by simp)).trans hrate, ?_, by simp [hin], by simp,
    fun p hp => (Dev.out_setOut_ne _ _ _ hp).trans (d.out_codeWritten o v p), fun hd => ?_, (hk.trans (hset.mono (by simp))).setOut o _, ?_⟩
  · rw [if_pos ⟨rfl, h, hs⟩]
    exact Dev.get_set_same _ _ _ _
  · simp [h] at hd
  · rw [Dev.codeWritten_eq]
    rfl

theorem configWritten_draining (h : disables v = true) (hs : 1 < d.step o) : ConfigWritten o 1 v d (effOutlet o 1 v d) := by
  rw [effOutlet_draining d o v h hs]
  obtain ⟨hval, hrate, hk⟩ := Dev.codeWritten_objs (o := o) (v := v) (d := d)
  have hstep := d.step_codeWritten o v
  have hn : ¬((1 = 1) ∧ disables v = true ∧ d.step o ≤ 1) := by omega
  cases hin : d.stepIn o 2 6 with
  | false =>
    refine ⟨hval, hrate, by rw [if_neg hn]; exact hstep, by simp [hin, Dev.out_codeWritten], by simp [Dev.out_codeWritten],
      fun p _ => d.out_codeWritten o v p, fun _ => by rw [Dev.codeWritten_eq]; rfl, hk, by rw [Dev.codeWritten_eq]; rfl⟩
  | true =>
    have hask : (d.codeWritten o v).when true (fun e => e.askEnd o 4)
        = (d.codeWritten o v).setOut o { d.out o with ask := setBit (d.out o).ask 4 true } := by
      rw [Dev.when_true, Dev.askEnd_eq, Dev.out_codeWritten]
    rw [hask]
    refine ⟨hval, hrate, by rw [if_neg hn]; exact hstep, by simp [hin, h], by simp,
      fun p hp => (Dev.out_setOut_ne _ _ _ hp).trans (d.out_codeWritten o v p), fun hd => ?_, hk.setOut o _, ?_⟩
    · simp [h] at hd
    · rw [Dev.codeWritten_eq]
      rfl

/-- An admitted value of the configuration is stored, and one that takes the outlet out of service ends what the outlet is in. -/
theorem configWritten_effOutlet {sub : Nat} (hs : sub < 256) : ConfigWritten o sub v d (effOutlet o sub v d) := by
  by_cases h1 : sub = 1
  · subst h1
    cases h : disables v with
    | false => exact configWritten_enabling h
    | true =>
      obtain hlt | hle := Nat.lt_or_ge 1 (d.step o)
      · exact configWritten_draining h hlt
      · exact configWritten_idle h hle
  · exact configWritten_other h1 hs

end

/-- Settles O38: an admitted write has the effect of its sub-index; the lemmas on each effect say what that leaves. -/
theorem outletWrites : Obligations.OutletWrites := by
  unfold Obligations.OutletWrites
  refine ⟨?limits, ?permit, ?refused, ?ends, ?returned, ?stays, ?config⟩
  case limits =>
    intro s role o sub v h
    refine completes_onDev rfl ?_
    rw [writeObj_of_accepts h, effLimits_eq]
    have hs : sub < 256 := sub_lt_of_accepts_outlet (by decide) h
    have hset := (KeepsObjs.refl [(outletIx o + 1, sub)] s.dev).set (ix := outletIx o + 1) (by simp) hs v
    have hbit : KeepsObjs [(outletIx o + 3, 2)] (s.dev.set (outletIx o + 1) sub v) (s.dev.limitWritten o sub v) :=
      (KeepsObjs.refl _ _).setBitO (by simp) (by decide) 3 false
    exact ⟨(hbit _ _ hs (by simp)).trans (Dev.get_set_same _ _ _ _), rfl,
      hset.then_setBitO (by decide) (by simp) 3 false, Dev.out_setOut _ _ _, fun p hp => Dev.out_setOut_ne _ _ _ hp,
      (((hset.mono (by simp)).trans (hbit.mono (by simp))).setOut o _).answer 0, rfl⟩
  case permit =>
    intro s role o v h
    refine completes_onDev (f := writeControl role o 1 v) rfl ?_
    rw [writeControl, writeObj_of_accepts h, effControl_permit]
    exact ⟨Dev.get_set_same _ _ _ _, rfl, (((KeepsObjs.refl _ s.dev).set (by simp) (by decide) v).of_objs_eq rfl).answer 0, rfl⟩
  case refused =>
    intro s role o h hs
    refine completes_onDev (f := writeControl role o 1 1) rfl ?_
    have hrules : controlRules s.dev o 1 1 = { atRange := 8 } := by simp [controlRules, hs]
    have hst := writeStatus_of_range h.2 8
    rw [writeControl, hrules, writeObj_refused _ _ _ _ _ _ _ h.1 (by rw [hst]; decide), hst]
    rfl
  case ends =>
    intro s role o
    have hasks : ∀ v, Accepts s.dev role (outletIx o + 2) 4 (.num v) {} →
        writeControl role o 4 v s.dev = (if s.dev.stepIn o 2 6 = true then s.dev.askEnd o v else s.dev).answer 0 := fun v h =>
      writeObj_of_accepts h (effControl o 4 v)
    exact ⟨fun h => completes_onDev rfl (hasks 1 h), fun h => completes_onDev rfl (hasks 2 h), fun h => completes_onDev rfl (hasks 4 h)⟩
  case returned =>
    intro s role o h
    have hlife : s.dev.life = 3 := by
      have := atLife_of_accepts h
      simpa [controlRules, Dev.inService] using this
    refine ⟨hlife, completes_onDev (f := writeControl role o 5 1) rfl ?_⟩
    rw [writeControl, writeObj_of_accepts h, effControl_return]
    exact ⟨fun j => Dev.bitO_setBitO _ _ _ _ _ j, rfl, ((KeepsObjs.refl _ s.dev).setBitO (by simp) (by decide) 5 false).answer 0, rfl⟩
  case stays =>
    intro s role o h
    refine completes_onDev (f := writeControl role o 5 0) rfl ?_
    have hrules : controlRules s.dev o 5 0 = {} := by simp [controlRules]
    rw [writeControl, hrules, writeObj_of_accepts h, effControl_noReturn]
    rfl
  case config =>
    intro s role o sub v h
    refine completes_onDev rfl ?_
    rw [writeObj_of_accepts h]
    have hs : sub < 256 := sub_lt_of_accepts_outlet (k := 0) (by decide) h
    obtain ⟨hval, hrate, hstep, hask, hrec, hne, houts, hk, he⟩ := configWritten_effOutlet (o := o) (v := v) (d := s.dev) hs
    exact ⟨hval, rfl, hrate, hstep, hask, hrec, hne, houts, hk.answer 0, congrArg (Dev.answer · 0) he⟩

end Sys2Proof.Machine
end

section
/-! SUPPORT. A trip of an outlet (11 R364, R365, R367) in its three parts: what it shows of itself, its entry in the log, and what it asks of the
sequencers. -/
namespace Sys2Proof.Machine

open Sys2Proof

/-! ## The protection record beside the objects and the outlets -/

@[simp] theorem Dev.prot_setProt (d : Dev) (o : Nat) (r : ProtRec) : (d.setProt o r).prot o = r := tget_tset_same _ _ _ _
theorem KeepsObjs.setProt {but : List (Nat × Nat)} {d e : Dev} (h : KeepsObjs but d e) (o : Nat) (r : ProtRec) : KeepsObjs but d (e.setProt o r) :=
  h.of_objs_eq rfl

/-! ## What a trip shows -/

/-- The cause of a trip and the trip held, shown and counted. -/
def Dev.tripCounted (d : Dev) (o bit : Nat) : Dev := ((d.setBitO (protIx o) 0x12 0 true).setBitO (protIx o) 0x12 bit true).inc (protIx o) 0x13

/-- The part with a new trip of outlet `o` at tick `n` shown, counted, recorded and raised; the third within a day asks for a service clear. -/
def Dev.tripShown (d : Dev) (o n bit : Nat) (third : Bool) : Dev :=
  ((((d.tripCounted o bit).when third fun e => e.setBitO (protIx o) 0x12 11 true).setProt o
    { d.prot o with trips := push 2 n (d.prot o).trips }).set (protIx o) 0x14 n).raiseEv (tripEvent bit)

theorem tripEvent_cases (bit : Nat) : tripEvent bit = 50 ∨ tripEvent bit = 53 := by
  unfold tripEvent
  split
  · exact .inl rfl
  · exact .inr rfl

theorem tripEvent_lt (bit : Nat) : tripEvent bit < 256 := by
  obtain h | h := tripEvent_cases bit <;> omega

theorem evObj_tripEvent (bit : Nat) : evObj (tripEvent bit) = (0x2410, 2) := by
  obtain h | h := tripEvent_cases bit <;> rw [h] <;> rfl

section
variable (d : Dev) (o n bit : Nat) (third : Bool)

/-- The third trip marks one more bit of the status. -/
theorem Dev.bitO_when_third (e : Dev) {j : Nat} (h : e.bitO (protIx o) 0x12 j = true) :
    (e.when third fun e => e.setBitO (protIx o) 0x12 11 true).bitO (protIx o) 0x12 j = true := by
  cases third with
  | false => exact h
  | true => rw [Dev.when_true, Dev.bitO_setBitO, h, ite_self]

theorem Dev.keepsObjs_tripCounted : KeepsObjs [(protIx o, 0x12), (protIx o, 0x13)] d (d.tripCounted o bit) :=
  (((KeepsObjs.refl _ d).setBitO (by simp) (by decide) 0 true).setBitO (by simp) (by decide) bit true).set (by simp) (by decide) _

theorem Dev.count_tripCounted : (d.tripCounted o bit).get (protIx o) 0x13 = satAdd 32 (d.get (protIx o) 0x13) 1 := by
  unfold Dev.tripCounted Dev.inc
  have hk : KeepsObjs [(protIx o, 0x12)] d ((d.setBitO (protIx o) 0x12 0 true).setBitO (protIx o) 0x12 bit true) :=
    ((KeepsObjs.refl _ d).setBitO (by simp) (by decide) 0 true).setBitO (by simp) (by decide) bit true
  rw [Dev.get_satInc_same, hk _ _ (by decide) (by simp)]

theorem Dev.bitO_tripCounted {j : Nat} (h : j = 0 ∨ j = bit) : (d.tripCounted o bit).bitO (protIx o) 0x12 j = true := by
  have hk : KeepsObjs [(protIx o, 0x13)] ((d.setBitO (protIx o) 0x12 0 true).setBitO (protIx o) 0x12 bit true) (d.tripCounted o bit) :=
    (KeepsObjs.refl _ _).set (by simp) (by decide) _
  have hbits : ((d.setBitO (protIx o) 0x12 0 true).setBitO (protIx o) 0x12 bit true).bitO (protIx o) 0x12 j = true := by
    rw [Dev.bitO_setBitO, Dev.bitO_setBitO]
    obtain rfl | rfl := h <;> simp
  exact (congrArg (Nat.testBit · j) (hk _ _ (by decide) (by simp))).trans hbits

/-- What is shown after the count: the tick and the event. -/
theorem Dev.keepsObjs_tripShown_after :
    KeepsObjs [(protIx o, 0x14), evObj (tripEvent bit)] ((d.tripCounted o bit).when third fun e => e.setBitO (protIx o) 0x12 11 true)
      (d.tripShown o n bit third) :=
  (((KeepsObjs.refl _ _).setProt o _).set (by simp) (by decide) n).raiseEv (by simp) (tripEvent_lt bit)

theorem Dev.keepsObjs_tripShown :
    KeepsObjs [(protIx o, 0x12), (protIx o, 0x13), (protIx o, 0x14), evObj (tripEvent bit)] d (d.tripShown o n bit third) := by
  have hcount := (d.keepsObjs_tripCounted o bit).mono (but' := [(protIx o, 0x12), (protIx o, 0x13), (protIx o, 0x14), evObj (tripEvent bit)]) (by simp)
  have hthird := hcount.when third (f := fun e => e.setBitO (protIx o) 0x12 11 true) (hcount.setBitO (by simp) (by decide) 11 true)
  exact hthird.trans ((d.keepsObjs_tripShown_after o n bit third).mono (by simp))

theorem protIx_ne_event : protIx o ≠ 0x2410 := by unfold protIx; omega

theorem Dev.bitO_tripShown {j : Nat} (h : j = 0 ∨ j = bit) : (d.tripShown o n bit third).bitO (protIx o) 0x12 j = true := by
  have hn : (protIx o, 0x12) ∉ [(protIx o, 0x14), evObj (tripEvent bit)] := by simp [evObj_tripEvent, protIx_ne_event]
  exact (congrArg (Nat.testBit · j) (d.keepsObjs_tripShown_after o n bit third _ _ (by decide) hn)).trans
    (Dev.bitO_when_third o third _ (d.bitO_tripCounted o bit h))

theorem Dev.count_tripShown : (d.tripShown o n bit third).get (protIx o) 0x13 = satAdd 32 (d.get (protIx o) 0x13) 1 := by
  have hn : (protIx o, 0x13) ∉ [(protIx o, 0x14), evObj (tripEvent bit)] := by simp [evObj_tripEvent, protIx_ne_event]
  have hthird : KeepsObjs [(protIx o, 0x12)] (d.tripCounted o bit) ((d.tripCounted o bit).when third fun e => e.setBitO (protIx o) 0x12 11 true) :=
    (KeepsObjs.refl _ _).when third ((KeepsObjs.refl _ _).setBitO (by simp) (by decide) 11 true)
  rw [d.keepsObjs_tripShown_after o n bit third _ _ (by decide) hn, hthird _ _ (by decide) (by simp), Dev.count_tripCounted]

theorem Dev.tick_tripShown : (d.tripShown o n bit third).get (protIx o) 0x14 = n := by
  unfold Dev.tripShown
  rw [Dev.get_raiseEv_ne _ _ _ _ (okey_ne_of_ix (protIx_ne_event o).symm (by omega) (by decide)), Dev.get_set_same]

theorem Dev.evPending_tripShown : (d.tripShown o n bit third).evPending (tripEvent bit) = true :=
  Dev.evPending_raiseEv_same _ (tripEvent_lt bit)

theorem Dev.tripShown_parts : ∃ x, d.tripShown o n bit third =
    { d with objs := x, prots := tset d.prots o { d.prot o with trips := push 2 n (d.prot o).trips } } := by
  have hthird : ∃ x, (d.tripCounted o bit).when third (fun e => e.setBitO (protIx o) 0x12 11 true) = { d with objs := x } := by
    cases third <;> exact ⟨_, rfl⟩
  obtain ⟨x, hx⟩ := hthird
  unfold Dev.tripShown
  rw [hx]
  exact ⟨_, rfl⟩

end

/-! ## What a trip asks for -/

/-- Beyond `d`, only the numeric objects of load channels, the records of the channels and those of the outlets differ. -/
def OnlyLoadsOuts (d e : Dev) : Prop :=
  e = { d with objs := e.objs, loads := e.loads, outs := e.outs } ∧ ∀ ix sub, ix < 0x7000 → sub < 256 → e.get ix sub = d.get ix sub

/-- The part with the contactor of an outlet of code 1 ordered off, by the outlet's own code (11 R364). -/
def Dev.tripOpens (d : Dev) (o : Nat) : Dev := d.when (d.code o == 1) fun d => d.loadOrder (d.get (outletIx o) 2) false

/-- The outlets of a trip's group that are in a session beside outlet `o`. -/
def Dev.tripGroup (d : Dev) (g o : Nat) : List Nat := (d.groupOutlets g).filter fun p => p != o && d.stepIn p 2 6

/-- The sequencers of a trip's group are asked for the end. -/
def Dev.groupAsked (d : Dev) (o n : Nat) : Dev :=
  if d.get (protIx o) 1 < 8 then eachN (d.tripGroup (d.get (protIx o) 1) o) (fun p d => d.askTrip p n) d else d

/-- The sequencer of outlet `o` is asked for the end, then those of its group. -/
def Dev.tripAsked (d : Dev) (o n : Nat) : Dev := (d.when (d.stepIn o 2 6) fun d => d.askTrip o n).groupAsked o n

/-- The setpoint of outlet `o` at 0. -/
def Dev.setpointOff (d : Dev) (o : Nat) : Dev := d.setOut o { d.out o with current := 0 }

/-- What a trip that is shown and logged makes follow: the setpoint falls to 0, the contactor opens, the sequencers are asked for the end. -/
def Dev.tripFollowed (d : Dev) (o n : Nat) : Dev := ((d.setpointOff o).tripOpens o).tripAsked o n

/-- The part after what a new trip shows and logs. -/
def TripLogged (d : Dev) (o n bit : Nat) (f : Dev) : Prop := ∃ third x, f = (d.tripShown o n bit third).skein x

/-- A new trip shows itself and is logged before what follows. -/
theorem tripOutlet_new {o : Nat} {d : Dev} (h : d.tripHeld o = false) (n bit : Nat) :
    ∃ f, TripLogged d o n bit f ∧ tripOutlet o n bit d = f.tripFollowed o n := by
  unfold tripOutlet
  simp only [h]
  exact ⟨_, ⟨_, _, rfl⟩, rfl⟩

section
variable (d : Dev) (o n : Nat)

theorem Dev.eachN_askTrip_parts (l : List Nat) : ∃ x, eachN l (fun p d => d.askTrip p n) d = { d with outs := x } :=
  eachN_preserves (fun e => ∃ x, e = { d with outs := x }) _ l
    (fun p _ _ ⟨_, he⟩ => ⟨_, (congrArg (Dev.askTrip · p n) he).trans rfl⟩) d ⟨_, rfl⟩

theorem Dev.groupAsked_parts : ∃ x, d.groupAsked o n = { d with outs := x } := by
  unfold Dev.groupAsked
  split
  · exact d.eachN_askTrip_parts n _
  · exact ⟨_, rfl⟩

theorem Dev.tripAsked_parts : ∃ x, d.tripAsked o n = { d with outs := x } := by
  obtain ⟨x, hx⟩ := (d.when (d.stepIn o 2 6) fun d => d.askTrip o n).groupAsked_parts o n
  refine ⟨x, hx.trans ?_⟩
  cases d.stepIn o 2 6 <;> rfl

/-- The outlet itself is not among those that its group's trip asks. -/
theorem Dev.out_groupAsked : (d.groupAsked o n).out o = d.out o := by
  unfold Dev.groupAsked
  split
  · refine eachN_keeps (fun e => e.out o) _ _ (fun p hp e => ?_) d
    have hne : p ≠ o := by
      have := (List.mem_filter.mp hp).2
      simp only [Bool.and_eq_true, bne_iff_ne] at this
      exact this.1
    exact Dev.out_setOut_ne _ _ _ hne.symm
  · rfl

/-- In a session the outlet's sequencer is asked for the end by the trip, elsewhere its record stays. -/
theorem Dev.out_tripAsked : (d.tripAsked o n).out o =
    if d.stepIn o 2 6 = true then
      { d.out o with ask := setBit (d.out o).ask 0 true, tripped := true, tripAt := if (d.out o).ask.testBit 0 = true then min (d.out o).tripAt n else n }
    else d.out o := by
  unfold Dev.tripAsked
  rw [Dev.out_groupAsked]
  cases d.stepIn o 2 6 with
  | false => rfl
  | true => exact Dev.out_setOut _ _ _

theorem onlyLoads_tripOpens : OnlyLoads d (d.tripOpens o) := by
  have horder : ∀ k, OnlyLoads d (d.loadOrder k false) := fun k => by
    unfold Dev.loadOrder
    split
    · exact OnlyLoads.refl d
    · exact (OnlyLoads.refl d).loadCommand k false
  unfold Dev.tripOpens
  cases d.code o == 1 with
  | false => exact OnlyLoads.refl d
  | true => exact horder _

/-- An outlet of another code has no contactor opened at once. -/
theorem Dev.tripOpens_other {d : Dev} {o : Nat} (h : d.code o ≠ 1) : d.tripOpens o = d := Dev.when_neg (beq_eq_false_iff_ne.mpr h) _ d

end

/-! ## What follows a trip -/

section
variable (d : Dev) (n : Nat) {o : Nat}

theorem onlyLoadsOuts_tripFollowed : OnlyLoadsOuts d (d.tripFollowed o n) := by
  obtain ⟨he, hk⟩ := onlyLoads_tripOpens (d.setpointOff o) o
  obtain ⟨x, hx⟩ := ((d.setpointOff o).tripOpens o).tripAsked_parts o n
  refine ⟨?_, fun ix sub hi hs => ?_⟩
  · unfold Dev.tripFollowed
    rw [hx, he]
    rfl
  · unfold Dev.tripFollowed
    rw [hx]
    exact hk ix sub hi hs

/-- The record of the outlet after what follows its trip. -/
theorem Dev.out_tripFollowed (ho : o < 32) : (d.tripFollowed o n).out o =
    if d.stepIn o 2 6 = true then
      { d.out o with current := 0, ask := setBit (d.out o).ask 0 true, tripped := true,
                     tripAt := if (d.out o).ask.testBit 0 = true then min (d.out o).tripAt n else n }
    else { d.out o with current := 0 } := by
  obtain ⟨he, hk⟩ := onlyLoads_tripOpens (d.setpointOff o) o
  have hout : ((d.setpointOff o).tripOpens o).out o = { d.out o with current := 0 } := by
    rw [he]
    exact Dev.out_setOut _ _ _
  have hstep : ((d.setpointOff o).tripOpens o).step o = d.step o := hk _ _ (by unfold outletIx; omega) (by decide)
  have hin : ((d.setpointOff o).tripOpens o).stepIn o 2 6 = d.stepIn o 2 6 := by
    unfold Dev.stepIn
    rw [hstep]
  unfold Dev.tripFollowed
  rw [Dev.out_tripAsked, hout, hin]

/-- Where the outlet has no contactor of code 1 no object changes. -/
theorem Dev.get_tripFollowed (hc : d.code o ≠ 1) (ix sub : Nat) : (d.tripFollowed o n).get ix sub = d.get ix sub := by
  have hcode : (d.setpointOff o).code o = d.code o := by
    unfold Dev.code Dev.setpointOff
    rw [Dev.out_setOut]
    rfl
  obtain ⟨x, hx⟩ := (d.setpointOff o).tripAsked_parts o n
  unfold Dev.tripFollowed
  rw [Dev.tripOpens_other (hcode ▸ hc), hx]
  rfl

end

/-! ## What a trip leaves -/

section
variable {d : Dev} {o n bit : Nat}

section
variable {f : Dev} (h : TripLogged d o n bit f)
include h

theorem TripLogged.keepsObjs :
    KeepsObjs ([(protIx o, 0x12), (protIx o, 0x13), (protIx o, 0x14), evObj (tripEvent bit)] ++ skeinObjs) d f := by
  obtain ⟨third, x, rfl⟩ := h
  exact ((d.keepsObjs_tripShown o n bit third).mono (List.subset_append_left _ _)).skein (List.subset_append_right _ _) x

theorem TripLogged.parts : ∃ ob b l v, f =
    { d with objs := ob, blobs := b, log := l, vcs := v, prots := tset d.prots o { d.prot o with trips := push 2 n (d.prot o).trips } } := by
  obtain ⟨third, x, rfl⟩ := h
  obtain ⟨ob, hx⟩ := d.tripShown_parts o n bit third
  rw [Dev.skein_eq, hx]
  exact ⟨_, _, _, _, rfl⟩

/-- The objects that show the trip are not those of the log. -/
theorem TripLogged.get_prot {sub : Nat} (hs : sub < 256) : ∃ third, f.get (protIx o) sub = (d.tripShown o n bit third).get (protIx o) sub := by
  obtain ⟨third, x, rfl⟩ := h
  refine ⟨third, (KeepsObjs.refl skeinObjs _).skein (List.Subset.refl _) x _ _ hs ?_⟩
  have hne : ∀ ix, ix < 0x6000 → protIx o ≠ ix := fun ix hix => by unfold protIx; omega
  simp [skeinObjs, hne]

theorem TripLogged.bits {j : Nat} (hj : j = 0 ∨ j = bit) : f.bitO (protIx o) 0x12 j = true := by
  obtain ⟨third, hg⟩ := h.get_prot (sub := 0x12) (by decide)
  exact (congrArg (Nat.testBit · j) hg).trans (d.bitO_tripShown o n bit third hj)

theorem TripLogged.count : f.get (protIx o) 0x13 = satAdd 32 (d.get (protIx o) 0x13) 1 := by
  obtain ⟨third, hg⟩ := h.get_prot (sub := 0x13) (by decide)
  exact hg.trans (d.count_tripShown o n bit third)

theorem TripLogged.tick : f.get (protIx o) 0x14 = n := by
  obtain ⟨third, hg⟩ := h.get_prot (sub := 0x14) (by decide)
  exact hg.trans (d.tick_tripShown o n bit third)

theorem TripLogged.evPending : f.evPending (tripEvent bit) = true := by
  obtain ⟨third, x, rfl⟩ := h
  have hne : tripEvent bit ≠ 6 := by obtain hb | hb := tripEvent_cases bit <;> omega
  exact (Dev.evPending_skein _ x hne (tripEvent_lt bit)).trans (d.evPending_tripShown o n bit third)

theorem TripLogged.number : f.get 0x2400 1 = (d.get 0x2400 1 + 1) % 2 ^ 32 := by
  obtain ⟨third, x, rfl⟩ := h
  have hk : (d.tripShown o n bit third).get 0x2400 1 = d.get 0x2400 1 :=
    d.keepsObjs_tripShown o n bit third _ _ (by decide) (by simp [evObj_tripEvent, protIx])
  rw [Dev.skein_number, hk]

/-- The objects of the outlets stay as they were. -/
theorem TripLogged.get_outlet (ho : o < 32) (p : Fin 32) {k sub : Nat} (hk : k < 0x20) (hs : sub < 256) :
    f.get (outletIx p + k) sub = d.get (outletIx p + k) sub := by
  refine h.keepsObjs _ _ hs ?_
  have hp := p.isLt
  simp [evObj_tripEvent, skeinObjs, outletIx, protIx]
  omega

end

end

end Sys2Proof.Machine
end

section
/-! A trip of an outlet, the comparators and the two checks of the self-test (11 R351, R352, R358, R364, R365): what each does where its condition
holds. -/
namespace Sys2Proof.Machine

open Sys2Proof

/-! ## A new trip -/

section
variable {d f : Dev} {o n bit : Nat} (h : TripLogged d o n bit f)
include h

theorem TripLogged.out_eq (p : Nat) : f.out p = d.out p := by
  obtain ⟨ob, b, l, v, rfl⟩ := h.parts
  rfl

theorem TripLogged.step_eq (ho : o < 32) : f.step o = d.step o := h.get_outlet ho ⟨o, ho⟩ (k := 3) (by decide) (by decide)

theorem TripLogged.stepIn_eq (ho : o < 32) (a b : Nat) : f.stepIn o a b = d.stepIn o a b := by simp only [Dev.stepIn, h.step_eq ho]

theorem TripLogged.code_eq (ho : o < 32) : f.code o = d.code o := by
  have hconf : f.get (outletIx o) 1 = d.get (outletIx o) 1 := h.get_outlet ho ⟨o, ho⟩ (k := 0) (by decide) (by decide)
  simp only [Dev.code, h.step_eq ho, h.out_eq, hconf]

/-- The protection records after a trip: the outlet's own notes the tick. -/
theorem TripLogged.prots_eq : f.prots = tset d.prots o { d.prot o with trips := push 2 n (d.prot o).trips } := by
  obtain ⟨ob, b, l, v, rfl⟩ := h.parts
  rfl

end

section
variable {d : Dev} {o n : Nat} (ho : o < 32) (h : d.tripHeld o = false) (bit : Nat)
include h

/-- What follows the entry of a trip leaves every object but those of the load channels. -/
theorem get_tripOutlet (n : Nat) : ∃ f, TripLogged d o n bit f ∧ ∀ ix sub, ix < 0x7000 → sub < 256 → (tripOutlet o n bit d).get ix sub = f.get ix sub := by
  obtain ⟨f, hf, he⟩ := tripOutlet_new h n bit
  rw [he]
  exact ⟨f, hf, (onlyLoadsOuts_tripFollowed f n).2⟩

theorem prots_tripOutlet : (tripOutlet o n bit d).prots = tset d.prots o { d.prot o with trips := push 2 n (d.prot o).trips } := by
  obtain ⟨f, hf, he⟩ := tripOutlet_new h n bit
  rw [he, (onlyLoadsOuts_tripFollowed f n).1]
  exact hf.prots_eq

include ho

theorem bitO_tripOutlet {j : Nat} (hj : j = 0 ∨ j = bit) : (tripOutlet o n bit d).bitO (protIx o) 0x12 j = true := by
  obtain ⟨f, hf, hg⟩ := get_tripOutlet h bit n
  exact (congrArg (Nat.testBit · j) (hg _ _ (by unfold protIx; omega) (by decide))).trans (hf.bits hj)

theorem count_tripOutlet : (tripOutlet o n bit d).get (protIx o) 0x13 = satAdd 32 (d.get (protIx o) 0x13) 1 := by
  obtain ⟨f, hf, hg⟩ := get_tripOutlet h bit n
  exact (hg _ _ (by unfold protIx; omega) (by decide)).trans hf.count

theorem tick_tripOutlet : (tripOutlet o n bit d).get (protIx o) 0x14 = n := by
  obtain ⟨f, hf, hg⟩ := get_tripOutlet h bit n
  exact (hg _ _ (by unfold protIx; omega) (by decide)).trans hf.tick

theorem get_tripOutlet_outlet {k sub : Nat} (hk : k < 0x20) (hs : sub < 256) :
    (tripOutlet o n bit d).get (outletIx o + k) sub = d.get (outletIx o + k) sub := by
  obtain ⟨f, hf, hg⟩ := get_tripOutlet h bit n
  exact (hg _ _ (by unfold outletIx; omega) hs).trans (hf.get_outlet ho ⟨o, ho⟩ hk hs)

end

section
variable {d : Dev} {o n : Nat} (h : d.tripHeld o = false) (bit : Nat)
include h

theorem evPending_tripOutlet : (tripOutlet o n bit d).evPending (tripEvent bit) = true := by
  obtain ⟨f, hf, hg⟩ := get_tripOutlet h bit n
  unfold Dev.evPending Dev.bitO
  rw [hg _ _ (by decide) (by omega)]
  exact hf.evPending

theorem number_tripOutlet : (tripOutlet o n bit d).get 0x2400 1 = (d.get 0x2400 1 + 1) % 2 ^ 32 := by
  obtain ⟨f, hf, hg⟩ := get_tripOutlet h bit n
  exact (hg _ _ (by decide) (by decide)).trans hf.number

theorem trips_tripOutlet (p : Nat) :
    ((tripOutlet o n bit d).prot p).trips = if p = o then push 2 n (d.prot o).trips else (d.prot p).trips := by
  rw [Dev.prot, prots_tripOutlet h bit, tget_tset]
  by_cases hp : p = o
  · rw [if_pos hp.symm, if_pos hp]
  · rw [if_neg (Ne.symm hp), if_neg hp, Dev.prot]

/-- The record of the outlet after a new trip: the setpoint at 0, and in a session the end asked for. -/
theorem out_tripOutlet (ho : o < 32) : (tripOutlet o n bit d).out o =
    if d.stepIn o 2 6 = true then
      { d.out o with current := 0, ask := setBit (d.out o).ask 0 true, tripped := true,
                     tripAt := if (d.out o).ask.testBit 0 = true then min (d.out o).tripAt n else n }
    else { d.out o with current := 0 } := by
  obtain ⟨f, hf, he⟩ := tripOutlet_new h n bit
  rw [he, f.out_tripFollowed n ho, hf.stepIn_eq ho, hf.out_eq]

theorem keepsObjs_tripOutlet (ho : o < 32) (hc : d.code o ≠ 1) :
    KeepsObjs ([(protIx o, 0x12), (protIx o, 0x13), (protIx o, 0x14), evObj (tripEvent bit)] ++ skeinObjs) d (tripOutlet o n bit d) := by
  obtain ⟨f, hf, he⟩ := tripOutlet_new h n bit
  have hcode : f.code o ≠ 1 := by rw [hf.code_eq ho]; exact hc
  rw [he]
  exact fun ix sub hs hn => (f.get_tripFollowed n hcode ix sub).trans (hf.keepsObjs ix sub hs hn)

theorem tripOutlet_meters_axes : (tripOutlet o n bit d).meters = d.meters ∧ (tripOutlet o n bit d).axes = d.axes := by
  obtain ⟨f, hf, he⟩ := tripOutlet_new h n bit
  obtain ⟨ob, b, l, v, hp⟩ := hf.parts
  rw [he, (onlyLoadsOuts_tripFollowed f n).1, hp]
  exact ⟨rfl, rfl⟩

end

/-! ## Comparators (11 R351, R352) -/

/-- A level beyond a comparator's threshold sets its output and its latch and removes the permit (11 R351, R352). -/
theorem ocInput_beyond {g : Nat} {x : Int} {d : Dev} (h : 4 * (d.get (protIx g) 0x20 : Int) < x ∨ x < -(4 * (d.get (protIx g) 0x21 : Int))) :
    ocInput g x d = (((d.setGrp g
      { out := true, unseen := (d.grp g).unseen || !d.bitO (protIx g) 0x23 0, enabled := (d.grp g).enabled
        zeroRun := if x.natAbs ≤ 2 * d.get 0x2111 (g + 1) then (d.grp g).zeroRun else 0 }).setBitO (protIx g) 0x23 1 true).setBitO
          (protIx g) 0x23 0 true).setBitO (protIx g) 0x23 2 false := by
  simp [ocInput, h]

/-! ## The self-test (11 R358) -/

section
variable {d : Dev} {o t : Nat}

theorem selfTestFirst_passes (h : (d.prot o).selfTest = some t) (hf : (d.prot o).firstDone = false) (ht : t + 3200 ≤ d.now + 1)
    (hp : dcAbove (windowSums (residualW d o) (d.prot o).win).1 (residualW d o) (d.get (protIx o) 0xE) 1 2 = true) :
    selfTestFirst o d = d.setProt o { d.prot o with firstDone := true } := by
  simp [selfTestFirst, h, hf, ht, hp, Dev.effTick]

theorem selfTestSecond_passes (h : (d.prot o).selfTest = some t) (hf : (d.prot o).firstDone = true) (ht : t + 6400 ≤ d.now + 1)
    (hp : dcAbove (windowSums (residualW d o) (d.prot o).win).1 (residualW d o) (bandLevel d o 4) 1 2 = false) :
    selfTestSecond o d = d.setProt o { d.prot o with selfTest := none, firstDone := false, selfDone := true } := by
  simp [selfTestSecond, h, hf, ht, hp, Dev.effTick]

theorem selfTestSecond_fails (h : (d.prot o).selfTest = some t) (hf : (d.prot o).firstDone = true) (ht : t + 6400 ≤ d.now + 1)
    (hp : dcAbove (windowSums (residualW d o) (d.prot o).win).1 (residualW d o) (bandLevel d o 4) 1 2 = true) :
    selfTestSecond o d = selfTestFail o d := by
  simp [selfTestSecond, h, hf, ht, hp, Dev.effTick]

end

/-- The part of a failed self-test before its trip: the test is over and the start permit cleared. -/
def Dev.testEnded (d : Dev) (o : Nat) : Dev := (d.setProt o { d.prot o with selfTest := none, firstDone := false }).set (outletIx o + 2) 1 0

theorem selfTestFail_eq (o : Nat) (d : Dev) : selfTestFail o d = (tripOutlet o (d.now + 1) 10 (d.testEnded o)).raiseEv 54 := rfl

/-- An object of an outlet or of its protection stands after an event. -/
theorem Dev.get_raiseEv_above (d : Dev) (n : Nat) {ix sub : Nat} (hi : 0x5000 ≤ ix) (hs : sub < 256) : (d.raiseEv n).get ix sub = d.get ix sub :=
  Dev.get_raiseEv_ne _ _ _ _ (okey_ne_of_ix (by omega) (by omega) hs)

/-- Settles O39: a new trip shows itself before what follows, which leaves its objects alone; a comparator's bits and record by the equation of its
input; a failed self-test is a trip of its own. -/
theorem outletTrips : Obligations.OutletTrips := by
  unfold Obligations.OutletTrips
  refine ⟨?trip, ?comparator, ?first, ?second⟩
  case trip =>
    intro d o n bit ho _ _ _ h
    have hout := out_tripOutlet (n := n) h bit ho
    obtain ⟨hmeters, haxes⟩ := tripOutlet_meters_axes (n := n) h bit
    refine ⟨bitO_tripOutlet ho h bit (.inl rfl), bitO_tripOutlet ho h bit (.inr rfl), count_tripOutlet ho h bit, tick_tripOutlet ho h bit,
      evPending_tripOutlet h bit, number_tripOutlet h bit, ?current, fun hs => ?asked, trips_tripOutlet h bit, keepsObjs_tripOutlet h bit ho,
      hmeters, haxes⟩
    case current =>
      rw [hout]
      split <;> rfl
    case asked =>
      rw [hout, if_pos hs]
      exact ⟨(testBit_setBit _ _ _ _).trans (if_pos rfl), rfl, rfl⟩
  case comparator =>
    intro s g level hl hx
    refine completes_onDev (f := fun d => d.when (d.loom != .unpowered) (ocInput g level)) rfl ?_
    rw [Dev.when_pos (bne_iff_ne.mpr hl), ocInput_beyond hx]
    refine ⟨fun j => ?_, tget_tset_same _ _ _ _, fun k hk => tget_tset_ne _ _ _ _ _ (Ne.symm hk), ?_, rfl⟩
    · simp only [Dev.bitO_setBitO]
      have hbase : ∀ r : GroupRec, (s.dev.setGrp g r).bitO (protIx g) 0x23 j = s.dev.bitO (protIx g) 0x23 j := fun _ => rfl
      rw [hbase]
      by_cases h2 : j = 2
      · simp [h2]
      · by_cases h0 : j = 0
        · simp [h0]
        · by_cases h1 : j = 1
          · simp [h1]
          · simp [h0, h1, h2]
            omega
    · exact ((((KeepsObjs.refl _ s.dev).of_objs_eq rfl).setBitO (by simp) (by decide) 1 true).setBitO (by simp) (by decide) 0 true).setBitO
        (by simp) (by decide) 2 false
  case first =>
    exact fun s o t hr hs hf ht hp => completes_onRun rfl hr (selfTestFirst_passes hs hf ht hp)
  case second =>
    intro s o t hr hs hf ht
    refine ⟨fun hp => completes_onRun rfl hr (selfTestSecond_passes hs hf ht hp), fun hp hheld => completes_onRun rfl hr ?_⟩
    rw [selfTestSecond_fails hs hf ht hp, selfTestFail_eq]
    have hheld' : (s.dev.testEnded o).tripHeld o = false := by
      have hk : KeepsObjs [(outletIx o + 2, 1)] s.dev (s.dev.testEnded o) := ((KeepsObjs.refl _ s.dev).setProt o _).set (by simp) (by decide) 0
      exact (congrArg (Nat.testBit · 0) (hk _ _ (by decide) (by simp))).trans hheld
    have hprot : ∀ sub, sub < 256 → ((tripOutlet o (s.dev.now + 1) 10 (s.dev.testEnded o)).raiseEv 54).get (protIx o) sub
        = (tripOutlet o (s.dev.now + 1) 10 (s.dev.testEnded o)).get (protIx o) sub := fun sub hs =>
      Dev.get_raiseEv_above _ _ (by unfold protIx; omega) hs
    have hbit : ∀ j, j = 0 ∨ j = 10 → ((tripOutlet o (s.dev.now + 1) 10 (s.dev.testEnded o)).raiseEv 54).bitO (protIx o) 0x12 j = true :=
      fun j hj => (congrArg (Nat.testBit · j) (hprot _ (by decide))).trans (bitO_tripOutlet o.isLt hheld' 10 hj)
    refine ⟨?_, hbit 0 (.inl rfl), hbit 10 (.inr rfl), Dev.evPending_raiseEv_same _ (by decide), ?_,
      (hprot _ (by decide)).trans (tick_tripOutlet o.isLt hheld' 10)⟩
    · rw [Dev.get_raiseEv_above _ _ (by have := outletIx_ge o; omega) (by decide), get_tripOutlet_outlet o.isLt hheld' 10 (by decide) (by decide)]
      exact Dev.get_set_same _ _ _ _
    · show (tget {} (tripOutlet o (s.dev.now + 1) 10 (s.dev.testEnded o)).prots o).selfTest = none
      rw [prots_tripOutlet hheld' 10, tget_tset_same]
      exact congrArg ProtRec.selfTest (Dev.prot_setProt _ _ _)

end Sys2Proof.Machine
end

section
/-! Curtailment of the site (10 R339 to R341): what a change of its state leaves, and what each command does where its condition holds. -/
namespace Sys2Proof.Machine

open Sys2Proof

/-! ## A change of state -/

/-- The part with the state of the curtailment set and shown, before the event of its change. -/
def Dev.curtailShown (d : Dev) (inForce waiting : Bool) (ends : Option Nat) : Dev :=
  Dev.set { d with alloc := { d.alloc with inForce := inForce, waiting := waiting, ends := ends } } 0x5811 1 (b2n inForce)

/-- Two states in force or waiting have one code where they are the same. -/
theorem curtailCode_ne {a w a' w' : Bool} (h : ¬(a = a' ∧ w = w')) : (b2n a + 2 * b2n w != b2n a' + 2 * b2n w') = true := by
  revert h
  cases a <;> cases w <;> cases a' <;> cases w' <;> decide

section
variable (d : Dev) (a w : Bool) (t : Option Nat)

/-- The state is shown; where it changes, EV45 and an entry of the Skein log follow. -/
theorem Dev.setCurtail_steps : ∃ x, d.setCurtail a w t =
    (d.curtailShown a w t).when (b2n d.alloc.inForce + 2 * b2n d.alloc.waiting != b2n a + 2 * b2n w) fun e => (e.raiseEv 45).skein x := ⟨_, rfl⟩

theorem Dev.keepsObjs_curtailShown : KeepsObjs [(0x5811, 1)] d (d.curtailShown a w t) :=
  ((KeepsObjs.refl _ d).of_objs_eq rfl).set (by simp) (by decide) _

/-- The event and the entry after the state is shown. -/
theorem Dev.keepsObjs_setCurtail_after : KeepsObjs (evObj 45 :: skeinObjs) (d.curtailShown a w t) (d.setCurtail a w t) := by
  obtain ⟨x, hx⟩ := d.setCurtail_steps a w t
  rw [hx]
  exact (KeepsObjs.refl _ _).when _ (((KeepsObjs.refl _ _).raiseEv (by simp) (by decide)).skein (by simp) x)

theorem Dev.keepsObjs_setCurtail : KeepsObjs ([(0x5811, 1), evObj 45] ++ skeinObjs) d (d.setCurtail a w t) :=
  ((d.keepsObjs_curtailShown a w t).mono (by simp)).trans ((d.keepsObjs_setCurtail_after a w t).mono (by simp))

theorem Dev.onlyLogged_setCurtail : OnlyLogged (d.curtailShown a w t) (d.setCurtail a w t) := by
  obtain ⟨x, hx⟩ := d.setCurtail_steps a w t
  rw [hx]
  cases b2n d.alloc.inForce + 2 * b2n d.alloc.waiting != b2n a + 2 * b2n w with
  | false => exact OnlyLogged.refl _
  | true => exact ((OnlyLogged.refl _).raiseEv 45).trans (onlyLogged_skein _ x)

@[simp] theorem Dev.alloc_setCurtail : (d.setCurtail a w t).alloc = { d.alloc with inForce := a, waiting := w, ends := t } := by
  rw [(d.onlyLogged_setCurtail a w t).1]
  rfl

@[simp] theorem Dev.shown_setCurtail : (d.setCurtail a w t).get 0x5811 1 = b2n a :=
  (d.keepsObjs_setCurtail_after a w t _ _ (by decide) (by decide)).trans (Dev.get_set_same _ _ _ _)

theorem Dev.evPending_setCurtail {d : Dev} {a w : Bool} (h : ¬(d.alloc.inForce = a ∧ d.alloc.waiting = w)) :
    (d.setCurtail a w t).evPending 45 = true := by
  obtain ⟨x, hx⟩ := d.setCurtail_steps a w t
  rw [hx, Dev.when_pos (curtailCode_ne h), Dev.evPending_skein _ x (by decide) (by decide)]
  exact Dev.evPending_raiseEv_same _ (by decide)

theorem Dev.keepsBlobs_setCurtail (but : List (Nat × Nat)) : KeepsBlobs but d (d.setCurtail a w t) := by
  intro ix sub hs _ hl
  exact (d.onlyLogged_setCurtail a w t).2 ix sub hs (by simp) hl

/-- Beyond what a curtailment shows of itself, its record, a log and byte strings, nothing differs. -/
theorem Dev.setCurtail_eq : d.setCurtail a w t = { d with
    objs := (d.setCurtail a w t).objs, alloc := (d.setCurtail a w t).alloc, blobs := (d.setCurtail a w t).blobs
    log := (d.setCurtail a w t).log, vcs := (d.setCurtail a w t).vcs } :=
  (d.onlyLogged_setCurtail a w t).1.trans (by rw [Dev.alloc_setCurtail]; rfl)

theorem Dev.onlyLogged_alloc_setCurtail : OnlyLogged { d with alloc := (d.setCurtail a w t).alloc } (d.setCurtail a w t) :=
  ⟨d.setCurtail_eq a w t, d.keepsBlobs_setCurtail a w t []⟩

end

/-! ## A curtailment written (10 R340) -/

/-- A curtailment applied is stored and then changes the state. -/
theorem applyCurtail_steps (v : Bytes) (d : Dev) : ∃ a w t, applyCurtail v d = (d.setB 0x5810 0 v).setCurtail a w t
    ∧ (leAt v 0 4 = 0xFFFFFFFF → a = false ∧ w = false)
    ∧ (leAt v 0 4 ≠ 0xFFFFFFFF → leAt v 8 8 = 0 →
        a = true ∧ w = false ∧ t = if leAt v 4 4 = 0 then none else some (d.now + 1 + 32000 * leAt v 4 4)) := by
  by_cases hlim : leAt v 0 4 = 0xFFFFFFFF
  · exact ⟨false, false, none, by simp [applyCurtail, hlim], fun _ => ⟨rfl, rfl⟩, fun hn => absurd hlim hn⟩
  · by_cases hstart : leAt v 8 8 = 0
    · exact ⟨true, false, _, by simp [applyCurtail, hlim, hstart, Dev.effTick], fun h => absurd h hlim, fun _ _ => ⟨rfl, rfl, rfl⟩⟩
    · simp only [applyCurtail, if_neg hlim, if_neg hstart]
      split <;> exact ⟨_, _, _, rfl, fun h => absurd h hlim, fun _ h => absurd h hstart⟩

/-- Settles O18: a curtailment applied, started or expired is one change of state, and the lemmas on it say what that leaves. -/
theorem curtailmentOfTheSite : Obligations.CurtailmentOfTheSite := by
  unfold Obligations.CurtailmentOfTheSite
  refine ⟨?master, ?forwarded, ?started, ?expired⟩
  case master =>
    intro s role v h hm
    refine completes_onDev rfl ?_
    have heff : effCurtail v s.dev = applyCurtail v s.dev := if_pos hm
    obtain ⟨a, w, t, he, hcancel, hnow⟩ := applyCurtail_steps v s.dev
    rw [writeObj_of_accepts h, heff, he]
    have hblobs : KeepsBlobs [(0x5810, 0)] s.dev ((s.dev.setB 0x5810 0 v).setCurtail a w t) :=
      ((KeepsBlobs.refl _ s.dev).setB (by simp) (by decide) v).trans (Dev.keepsBlobs_setCurtail _ a w t _)
    refine ⟨?stored, rfl, fun hl => ?cancelled, fun hl h0 => ?inForce, fun hch => ?event, hblobs.of_blobs_eq rfl, ?only⟩
    case stored =>
      exact (Dev.keepsBlobs_setCurtail _ a w t [] 0x5810 0 (by decide) (by simp) (by decide)).trans (Dev.getB_setB_same _ _ _ v)
    case cancelled =>
      obtain ⟨rfl, rfl⟩ := hcancel hl
      simp [b2n]
    case inForce =>
      obtain ⟨rfl, rfl, rfl⟩ := hnow hl h0
      simp [b2n]
    case event =>
      refine Dev.evPending_setCurtail t fun hsame => hch ?_
      simpa using hsame.1.symm
    case only =>
      exact onlyLogged_of_eq (congrArg (Dev.answer · 0) (Dev.setCurtail_eq (s.dev.setB 0x5810 0 v) a w t)) rfl
  case forwarded =>
    intro s role v h hm
    refine completes_onDev rfl ?_
    have heff : effCurtail v s.dev = Dev.setB { s.dev with alloc := { s.dev.alloc with forward := some v } } 0x5810 0 v :=
      if_neg (by simp [hm])
    rw [writeObj_of_accepts h, heff]
    exact ⟨Dev.getB_setB_same _ _ _ v, (((KeepsBlobs.refl _ s.dev).of_blobs_eq rfl).setB (by simp) (by decide) v).of_blobs_eq rfl, rfl⟩
  case started =>
    intro s hr hw hv hu hd hf
    refine completes_onRun rfl hr ?_
    have he : curtailStart s.dev = s.dev.setCurtail true false none := by simp [curtailStart, hr, hw, hv, hu, hd]
    rw [he]
    exact ⟨by simp, by simp, Dev.shown_setCurtail _ _ _ _, Dev.evPending_setCurtail none (by simp [hf]), s.dev.keepsObjs_setCurtail _ _ _,
      s.dev.onlyLogged_alloc_setCurtail _ _ _⟩
  case expired =>
    intro s t hr hf ht hle
    refine completes_onRun rfl hr ?_
    have he : curtailExpiry s.dev = s.dev.setCurtail false false none := by
      simp [curtailExpiry, hr, hf, ht, hle, Dev.effTick]
    rw [he]
    exact ⟨by simp, Dev.shown_setCurtail _ _ _ _, Dev.evPending_setCurtail none (by simp [hf]), s.dev.keepsObjs_setCurtail _ _ _,
      s.dev.onlyLogged_alloc_setCurtail _ _ _⟩

end Sys2Proof.Machine
end

section
/-! The pilot's state and the SLAC messages of a run (10 R314, R317, R318, R328): what each command does where its condition holds. -/
namespace Sys2Proof.Machine

open Sys2Proof

/-! ## A new pilot state (10 R314) -/

/-- The low three bits of an object replaced. -/
theorem setField_low3 (n : Nat) {v : Nat} (h : v < 8) : setField n 0 3 v = n / 8 * 8 + v := by
  rw [setField_eq]
  omega

section
variable (d : Dev) (b : Bool) (o r : Nat)

/-- An end asked for or not: the record of the outlet, and what stays. -/
theorem Dev.out_when_askEnd :
    (d.when b fun e => e.askEnd o r).out o = { d.out o with ask := if b = true then setBit (d.out o).ask r true else (d.out o).ask } := by
  cases b with
  | false => rfl
  | true => exact Dev.out_setOut _ _ _

theorem Dev.out_when_askEnd_ne {p : Nat} (h : p ≠ o) : (d.when b fun e => e.askEnd o r).out p = d.out p := by
  cases b with
  | false => rfl
  | true => exact Dev.out_setOut_ne _ _ _ h

theorem Dev.when_askEnd_eq : (d.when b fun e => e.askEnd o r) = { d with outs := (d.when b fun e => e.askEnd o r).outs } := by
  cases b <;> rfl

end

/-- The part with the candidate accepted as the pilot state of outlet `o`. -/
def Dev.pilotAccepted (d : Dev) (o : Nat) : Dev :=
  d.set (outletIx o + 3) 2 (setField (d.get (outletIx o + 3) 2) 0 3 (d.out o).cand)

/-- State A ends the match. -/
def Dev.matchEnded (d : Dev) (o : Nat) : Dev := d.when ((d.out o).cand == 0) fun d => d.setOut o { d.out o with slac := {} }

/-- Whether a new state ends the session: from C or D to B within it (10 R328). -/
def Dev.pilotEnds (d : Dev) (o : Nat) : Bool := (d.pilotState o == 2 || d.pilotState o == 3) && (d.out o).cand == 1 && d.stepIn o 2 6

section
variable (d : Dev) (o : Nat)

theorem Dev.keepsObjs_pilotAccepted : KeepsObjs [(outletIx o + 3, 2)] d (d.pilotAccepted o) :=
  (KeepsObjs.refl _ d).set (by simp) (by decide) _

theorem Dev.matchEnded_eq : d.matchEnded o = { d with outs := (d.matchEnded o).outs } := by
  unfold Dev.matchEnded
  cases (d.out o).cand == 0 <;> rfl

theorem Dev.out_matchEnded :
    (d.matchEnded o).out o = { d.out o with slac := if (d.out o).cand = 0 then {} else (d.out o).slac } := by
  unfold Dev.matchEnded
  by_cases h : (d.out o).cand = 0
  · rw [Dev.when_pos (beq_iff_eq.mpr h), Dev.out_setOut, if_pos h]
  · rw [Dev.when_neg (beq_eq_false_iff_ne.mpr h), if_neg h]

theorem Dev.out_matchEnded_ne {p : Nat} (h : p ≠ o) : (d.matchEnded o).out p = d.out p := by
  unfold Dev.matchEnded
  cases (d.out o).cand == 0 with
  | false => rfl
  | true => exact Dev.out_setOut_ne _ _ _ h

end

/-- A state that has held for two periods is accepted; state A ends the match, and a state that ends the session asks for it with reason 2. -/
theorem pilotChange_new {d : Dev} {o : Nat} (hr : 2 ≤ (d.out o).candRun) (hc : (d.out o).cand ≠ d.pilotState o) :
    pilotChange o d = ((d.pilotAccepted o).matchEnded o).when (d.pilotEnds o) fun e => e.askEnd o 2 := by
  have hstep : ((d.pilotAccepted o).matchEnded o).stepIn o 2 6 = d.stepIn o 2 6 := by
    have hk := d.keepsObjs_pilotAccepted o (outletIx o + 3) 1 (by decide) (by simp)
    rw [Dev.matchEnded_eq]
    exact congrArg (fun n => decide (2 ≤ n ∧ n ≤ 6)) hk
  unfold Dev.pilotEnds pilotChange
  dsimp only
  rw [← hstep, Dev.when_pos (by simp [hr, hc])]
  rfl

/-! ## SLAC (10 R317) -/

theorem Dev.running_of_slacOn {d : Dev} {o : Nat} (h : d.slacOn o = true) : d.running = true := by
  simp only [Dev.slacOn, Bool.and_eq_true] at h
  exact h.1.1

theorem sumN_addLists (a b : List Nat) : sumN (addLists a b) = sumN a + sumN b := by
  induction a generalizing b with
  | nil => simp [addLists, sumN]
  | cons x a ih =>
    cases b with
    | nil => simp [addLists, sumN]
    | cons y b =>
      simp only [addLists, sumN_cons, ih]
      omega

theorem Dev.slac_setSlac (d : Dev) (o : Nat) (x : SlacRec) : ((d.setSlac o x).out o).slac = x :=
  congrArg OutRec.slac (Dev.out_setOut _ _ _)

section
variable {d : Dev} {o mac run : Nat}

/-- Above the threshold the request of the match is not answered. -/
theorem slacMatch_above (h : d.get (outletIx o + 5) 2 < (d.out o).slac.average) : slacMatch o mac run d = d := by
  unfold slacMatch
  exact Dev.when_neg (by simp [h]) _ d

/-- The SLAC state of a match made with the next free value as its key. -/
def Dev.slacMatched (d : Dev) (o : Nat) : SlacRec := { (d.out o).slac with stage := 5, nmk := natLE 16 (Config.free d.freeIdx) }

/-- The part with the next free value used and the MAC address of the match of outlet `o` shown, with its event. -/
def Dev.matchShown (d : Dev) (o mac : Nat) : Dev := (Dev.raiseEv { d with freeIdx := d.freeIdx + 1 } 44).set (outletIx o + 5) 3 mac

/-- Up to the threshold the match is made. -/
theorem slacMatch_made (hon : d.slacOn o = true) (hmac : (d.out o).slac.mac = mac) (hrun : (d.out o).slac.run = run)
    (hs : (d.out o).slac.stage = 4) (h : (d.out o).slac.average ≤ d.get (outletIx o + 5) 2) :
    slacMatch o mac run d = (d.matchShown o mac).setOut o { d.out o with slac := d.slacMatched o, frameAt := d.now + 1 } := by
  unfold slacMatch
  dsimp only
  rw [Dev.when_pos (by simp [hon, hmac, hrun, hs, h, SlacRec.mine])]
  have hset : ∀ (e : Dev) (r r' : OutRec), (((e.setOut o r).raiseEv 44).set (outletIx o + 5) 3 mac).setOut o r'
      = ((e.raiseEv 44).set (outletIx o + 5) 3 mac).setOut o r' := fun e r r' => Dev.setOut_setOut ((e.raiseEv 44).set (outletIx o + 5) 3 mac) o r r'
  refine (hset _ _ _).trans ?_
  simp only [Dev.setSlac, Dev.out_setOut]
  rfl

end

theorem Dev.keepsObjs_matchShown (d : Dev) (o mac : Nat) : KeepsObjs [(outletIx o + 5, 3), evObj 44] d (d.matchShown o mac) :=
  (((KeepsObjs.refl _ d).of_objs_eq rfl).raiseEv (by simp) (by decide)).set (by simp) (by decide) mac

/-- The path of a matched vehicle is open where the link's tunnel is up (10 R318). -/
theorem Dev.etherOpen_matched {d : Dev} {o mac : Nat} (ho : o < 32) {r : OutRec} (hr : r.slac.stage = 5) (hcode : r.code = (d.out o).code)
    (hon : d.slacOn o = true) : ((d.matchShown o mac).setOut o r).etherOpen o = d.tunnel o := by
  have hk := d.keepsObjs_matchShown o mac
  have hne : ∀ ix sub, ix ≠ 0x2410 → ix ≠ outletIx o + 5 → sub < 256 → (d.matchShown o mac).get ix sub = d.get ix sub := fun ix sub hev hix hs =>
    hk ix sub hs (by simp [evObj, hev, hix])
  have hstep : (d.matchShown o mac).get (outletIx o + 3) 1 = d.get (outletIx o + 3) 1 :=
    hne _ _ (by have := outletIx_ge o; omega) (by omega) (by decide)
  have hconf : (d.matchShown o mac).get (outletIx o) 1 = d.get (outletIx o) 1 := hne _ _ (by have := outletIx_ge o; omega) (by omega) (by decide)
  have hlink : (d.matchShown o mac).get (linkIx o) 2 = d.get (linkIx o) 2 :=
    hne _ _ (by unfold linkIx; omega) (by unfold linkIx outletIx; omega) (by decide)
  have hcode' : ((d.matchShown o mac).setOut o r).code o = d.code o := by
    unfold Dev.code Dev.step
    rw [Dev.out_setOut, Dev.get_setOut, Dev.get_setOut, hstep, hconf, hcode]
  have htunnel : ((d.matchShown o mac).setOut o r).tunnel o = d.tunnel o :=
    congrArg (fun n : Nat => n == 5 && (d.link o).lineGen == 2) hlink
  simp only [Dev.slacOn, Bool.and_eq_true] at hon
  obtain ⟨⟨hrun, hc⟩, -⟩ := hon
  have hrun' : ((d.matchShown o mac).setOut o r).running = true := hrun
  simp [Dev.etherOpen, hcode', htunnel, hrun', hr, of_decide_eq_true hc]

/-- Settles O35: each message of the run in hand sets the SLAC state of its outlet; the match is one event more. -/
theorem pilotAndSlac : Obligations.PilotAndSlac := by
  unfold Obligations.PilotAndSlac
  refine ⟨?pilot, ?params, ?start, ?sound, ?attenuation, ?slacMatch⟩
  case pilot =>
    intro s o hr h2 hne hlt
    refine completes_onRun rfl hr ?_
    rw [pilotChange_new h2 hne]
    have hrec : (((s.dev.pilotAccepted o).matchEnded o).when (s.dev.pilotEnds o) fun e => e.askEnd o 2).out o
        = { s.dev.out o with
            slac := if (s.dev.out o).cand = 0 then {} else (s.dev.out o).slac
            ask := if s.dev.pilotEnds o = true then setBit (s.dev.out o).ask 2 true else (s.dev.out o).ask } := by
      rw [Dev.out_when_askEnd, Dev.out_matchEnded]
      rfl
    have hobjs : (((s.dev.pilotAccepted o).matchEnded o).when (s.dev.pilotEnds o) fun e => e.askEnd o 2).objs = (s.dev.pilotAccepted o).objs := by
      rw [Dev.when_askEnd_eq, Dev.matchEnded_eq]
    refine ⟨?shown, ?slac, ?ask, ?record, fun p hp => ?others, (s.dev.keepsObjs_pilotAccepted o).of_objs_eq hobjs, ?rest⟩
    case shown =>
      have hget := (KeepsObjs.refl [] (s.dev.pilotAccepted o)).of_objs_eq hobjs (outletIx o + 3) 2 (by decide) (by simp)
      exact hget.trans ((Dev.get_set_same _ _ _ _).trans (setField_low3 _ hlt))
    case slac => rw [hrec]
    case ask =>
      rw [hrec]
      simp [Dev.pilotEnds, and_assoc]
    case record => rw [hrec]
    case others => rw [Dev.out_when_askEnd_ne _ _ _ _ hp, Dev.out_matchEnded_ne _ _ hp]; rfl
    case rest =>
      rw [Dev.when_askEnd_eq, Dev.matchEnded_eq]
      rfl
  case params =>
    intro s o mac run hon hs
    exact completes_onRun rfl (Dev.running_of_slacOn hon) (Dev.when_pos (by simp [hon, hs]) _ s.dev)
  case start =>
    intro s o mac run sounds hon hmac hrun hs
    exact completes_onRun rfl (Dev.running_of_slacOn hon) (Dev.when_pos (by simp [hon, hmac, hrun, hs, SlacRec.mine]) _ s.dev)
  case sound =>
    intro s o mac run atten hon hmac hrun hs hl
    refine completes_onRun rfl (Dev.running_of_slacOn hon) ?_
    rw [Dev.when_pos (by simp [hon, hmac, hrun, hs, hl, SlacRec.mine])]
    simp only [Dev.slac_setSlac]
    exact ⟨trivial, trivial, sumN_addLists _ _, trivial⟩
  case attenuation =>
    intro s o hon hs h1 hn
    refine completes_onRun rfl (Dev.running_of_slacOn hon) ?_
    have hpos : max 1 ((s.dev.out o).slac.sounds * (s.dev.out o).slac.sums.length) = (s.dev.out o).slac.sounds * (s.dev.out o).slac.sums.length :=
      Nat.max_eq_right (Nat.mul_pos h1 hn)
    rw [Dev.when_pos (by simp [hon, hs, h1])]
    simp only [Dev.slac_setSlac, hpos]
    exact ⟨trivial, trivial, trivial⟩
  case slacMatch =>
    intro s o mac run hon hmac hrun hs
    refine ⟨fun h => completes_onRun rfl (Dev.running_of_slacOn hon) (slacMatch_above h),
      fun h => completes_onRun rfl (Dev.running_of_slacOn hon) ?_⟩
    rw [slacMatch_made hon hmac hrun hs h]
    refine ⟨by simp [Dev.slacMatched], Dev.get_set_same _ _ _ _, ?_, rfl, by simp, Dev.etherOpen_matched o.isLt rfl rfl hon,
      fun p hp => Dev.out_setOut_ne _ _ _ hp, (s.dev.keepsObjs_matchShown o mac).setOut o _, rfl⟩
    rw [Dev.evPending_setOut, Dev.matchShown, Dev.evPending_set_outlet _ _ _ _ _ (by decide)]
    exact Dev.evPending_raiseEv_same _ (by decide)

end Sys2Proof.Machine
end

section
/-! SUPPORT. The Hank link (19 R546 to R551): its channels in a loop, its entry to RUN and loss, and a cell that comes in. -/
namespace Sys2Proof.Machine

open Sys2Proof

/-! ## Virtual channels -/

@[simp] theorem Dev.vc_setVc (d : Dev) (v : Nat) (c : VcRec) : (d.setVc v c).vc v = c := tget_tset_same _ _ _ _
theorem Dev.vc_setVc_ne (d : Dev) (v : Nat) (c : VcRec) {u : Nat} (h : u ≠ v) : (d.setVc v c).vc u = d.vc u := tget_tset_ne _ _ _ _ _ h.symm

/-- A loop that sets each channel's own record changes the channels alone. -/
theorem each_setVc_parts (n : Nat) (k : Nat → VcRec → VcRec) (d : Dev) :
    ∃ x, each n (fun v d => d.setVc v (k v (d.vc v))) d = { d with vcs := x } :=
  each_preserves (fun e => ∃ x, e = { d with vcs := x }) n _
    (fun v _ _ ⟨_, he⟩ => ⟨_, (congrArg (fun e : Dev => e.setVc v (k v (e.vc v))) he).trans rfl⟩) d ⟨_, rfl⟩

/-- Each channel of the loop has its own step done to it. -/
theorem vc_each_setVc (n : Nat) (k : Nat → VcRec → VcRec) (d : Dev) (v : Nat) :
    (each n (fun v d => d.setVc v (k v (d.vc v))) d).vc v = if v < n then k v (d.vc v) else d.vc v :=
  each_at (fun v d => d.vc v) _ k (fun v d => d.vc_setVc v _) (fun v _ d h => d.vc_setVc_ne v _ h) n v d

/-! ## RUN (19 R547) -/

/-- The link's record on entry of the part's receiver to RUN. -/
def HankRec.entersRun (h : HankRec) : HankRec :=
  { h with rxRun := true, txRun := false, good := 0, bad := 0, seq := 0, expect := 0, ack := none, unacked := [], again := h.unacked ++ h.again }

/-- A channel on entry to RUN: its counts at 0 and the part's own buffer free. -/
def VcRec.restarts (v : Nat) (c : VcRec) : VcRec := { c with sent := 0, credit := 0, released := (vcBuffer v).getD 0 }

theorem hankRun_entered {d : Dev} (ht : d.ticking = true) (hr : d.hank.rxRun = false) :
    hankRun d = each 9 (fun v d => d.setVc v ((d.vc v).restarts v)) { d with hank := d.hank.entersRun } :=
  Dev.when_pos (by simp [ht, hr]) _ d

theorem hankRun_parts {d : Dev} (ht : d.ticking = true) (hr : d.hank.rxRun = false) :
    ∃ x, hankRun d = { d with hank := d.hank.entersRun, vcs := x } := by
  obtain ⟨x, hx⟩ := each_setVc_parts 9 (fun v c => c.restarts v) { d with hank := d.hank.entersRun }
  exact ⟨x, (hankRun_entered ht hr).trans hx⟩

theorem vc_hankRun {d : Dev} (ht : d.ticking = true) (hr : d.hank.rxRun = false) {v : Nat} (hv : v < 9) :
    (hankRun d).vc v = (d.vc v).restarts v := by
  rw [hankRun_entered ht hr, vc_each_setVc, if_pos hv]
  rfl

/-! ## The state of the link -/

/-- The part with a change of the link's state shown, raised and counted. -/
def Dev.hankShown (d : Dev) (run : Bool) : Dev := ((d.set 0x2610 1 (b2n run)).raiseEv 10).satInc 32 0x2610 4 1

theorem hankState_up {d : Dev} (h : d.get 0x2610 1 = 0) : hankState true d = d.hankShown true := by
  unfold hankState
  rw [h]
  rfl

theorem hankState_lost {d : Dev} (h : d.get 0x2610 1 = 1) : hankState false d = d.hankShown false := by
  unfold hankState
  rw [h]
  rfl

section
variable (d : Dev) (run : Bool)

theorem Dev.keepsObjs_hankShown : KeepsObjs [(0x2610, 1), (0x2610, 4), evObj 10] d (d.hankShown run) :=
  (((KeepsObjs.refl _ d).set (by simp) (by decide) _).raiseEv (by simp) (by decide)).set (by simp) (by decide) _

theorem Dev.state_hankShown : (d.hankShown run).get 0x2610 1 = b2n run := by
  unfold Dev.hankShown
  rw [Dev.get_satInc_ne _ _ _ _ _ _ _ (by decide), Dev.get_raiseEv_ne _ _ _ _ (by decide), Dev.get_set_same]

theorem Dev.count_hankShown : (d.hankShown run).get 0x2610 4 = satAdd 32 (d.get 0x2610 4) 1 := by
  unfold Dev.hankShown
  rw [Dev.get_satInc_same, Dev.get_raiseEv_ne _ _ _ _ (by decide), Dev.get_set_ne _ _ _ _ _ _ (by decide)]

theorem Dev.evPending_hankShown : (d.hankShown run).evPending 10 = true :=
  (Dev.evPending_set _ _ _ (by decide) (by decide)).trans (Dev.evPending_raiseEv_same _ (by decide))

end

/-- The link's record when the part's receiver leaves RUN. -/
def HankRec.leavesRun (h : HankRec) : HankRec := { h with rxRun := false, txRun := false, good := 0, bad := 0 }

theorem hankDown_run {d : Dev} (h : d.get 0x2610 1 = 1) : hankDown d = Dev.hankShown { d with hank := d.hank.leavesRun } false :=
  hankState_lost (d := { d with hank := d.hank.leavesRun }) h

/-- The loss of RUN changes objects and the link's record alone. -/
theorem hankDown_parts (d : Dev) : ∃ x, hankDown d = { d with objs := x, hank := d.hank.leavesRun } := by
  unfold hankDown hankState
  split <;> exact ⟨_, rfl⟩

/-! ## A cell that comes in (19 R546 to R548) -/

/-- The part with a good cell counted. -/
def Dev.cellHeard (d : Dev) : Dev := { d with hank := { d.hank with good := min 8 (d.hank.good + 1), bad := 0 } }

/-- The part with a bad cell counted. -/
def Dev.cellSpoilt (d : Dev) : Dev :=
  Dev.satInc { d with hank := { d.hank with good := 0, bad := min 8 (d.hank.bad + 1) } } 32 0x2610 2 1

section
variable {d : Dev} {cell : Bytes} (ht : d.ticking = true) (take : Nat → Dev → Dev)
include ht

/-- A good cell before RUN is counted, and the eighth in a row enters RUN. -/
theorem cellIn_enters (hr : d.hank.rxRun = false) (hg : cellGood cell = true) (h7 : 7 ≤ d.hank.good) :
    cellIn take cell d = hankRun d.cellHeard := by
  unfold cellIn countCell
  rw [Dev.when_pos ht]
  simp [hr, hg, h7, Dev.cellHeard]

/-- A bad cell in RUN is counted, and the eighth in a row leaves RUN. -/
theorem cellIn_bad (hr : d.hank.rxRun = true) (hb : cellGood cell = false) :
    cellIn take cell d = d.cellSpoilt.when (decide (7 ≤ d.hank.bad)) hankDown := by
  unfold cellIn countCell
  rw [Dev.when_pos ht]
  simp [hr, hb, Dev.cellSpoilt]

/-- A good cell in RUN is counted, shows the host's receiver where it carries data or credit, has its acknowledge taken, and is acted on. -/
theorem cellIn_good (hr : d.hank.rxRun = true) (hg : cellGood cell = true) :
    cellIn take cell d = take (byteAt cell 4 / 16)
      (hankAcked (byteAt cell 3) (d.cellHeard.when (byteAt cell 4 / 16 == 1 || byteAt cell 4 / 16 == 2) hankSeen)) := by
  unfold cellIn countCell
  rw [Dev.when_pos ht]
  simp [hr, hg, Dev.cellHeard]

end

/-- An acknowledge takes cells off the list and no more. -/
theorem hankAcked_parts (a : Nat) (d : Dev) : ∃ u, hankAcked a d = { d with hank := { d.hank with unacked := u } } := by
  unfold hankAcked
  dsimp only
  split <;> exact ⟨_, rfl⟩

theorem hankAcked_nil {d : Dev} (h : d.hank.unacked = []) (a : Nat) : hankAcked a d = d := by simp [hankAcked, h]

/-- The host's receiver once seen is seen no more. -/
theorem hankSeen_run {d : Dev} (h : d.hank.txRun = true) : hankSeen d = d := Dev.when_neg (by simp [h]) _ d

/-- With both directions in RUN and nothing unacknowledged, a good cell is counted and acted on. -/
theorem cellIn_both {d : Dev} {cell : Bytes} (ht : d.ticking = true) (hr : d.hank.rxRun = true) (htx : d.hank.txRun = true)
    (hu : d.hank.unacked = []) (hg : cellGood cell = true) (take : Nat → Dev → Dev) :
    cellIn take cell d = take (byteAt cell 4 / 16) d.cellHeard := by
  have hseen : d.cellHeard.when (byteAt cell 4 / 16 == 1 || byteAt cell 4 / 16 == 2) hankSeen = d.cellHeard := by
    cases byteAt cell 4 / 16 == 1 || byteAt cell 4 / 16 == 2 with
    | false => rfl
    | true => exact hankSeen_run htx
  rw [cellIn_good ht take hr hg, hseen, hankAcked_nil (d := d.cellHeard) hu]

/-! ## Credits (19 R550) -/

/-- The credits of a channel as they are shown. -/
def VcRec.creditShown (c : VcRec) : Nat := min 65535 (c.credit - c.sent)

/-- A channel with the latest count of a credit cell. -/
def VcRec.credited (cell : Bytes) (v : Nat) (c : VcRec) : VcRec := { c with credit := max c.credit (leAt cell (6 + 4 * v) 4) }

theorem takeCredits_eq (cell : Bytes) (d : Dev) :
    takeCredits cell d = showCredits (each 9 (fun v d => d.setVc v ((d.vc v).credited cell v)) d) := rfl

/-- The objects of the credits shown. -/
def creditObjs : List (Nat × Nat) := (List.range 9).map fun v => (0x2618 + v, 2)

theorem mem_creditObjs {v : Nat} (h : v < 9) : (0x2618 + v, 2) ∈ creditObjs := List.mem_map.mpr ⟨v, List.mem_range.mpr h, rfl⟩

theorem not_mem_creditObjs {ix : Nat} (h : ix < 0x2618) (sub : Nat) : (ix, sub) ∉ creditObjs := fun hm => by
  obtain ⟨v, -, hv⟩ := List.mem_map.mp hm
  have := congrArg Prod.fst hv
  omega

theorem keepsObjs_showCredits (d : Dev) : KeepsObjs creditObjs d (showCredits d) :=
  each_preserves (KeepsObjs creditObjs d) 9 _ (fun _ hv _ he => he.set (mem_creditObjs hv) (by decide) _) d (KeepsObjs.refl _ d)

theorem showCredits_parts (d : Dev) : ∃ x, showCredits d = { d with objs := x } :=
  each_preserves (fun e => ∃ x, e = { d with objs := x }) 9 _
    (fun v _ _ ⟨_, he⟩ => ⟨_, (congrArg (fun e : Dev => e.set (0x2618 + v) 2 (e.vc v).creditShown) he).trans rfl⟩) d ⟨_, rfl⟩

/-- What is shown of a channel beside its record. -/
theorem shown_showCredits (d : Dev) {v : Nat} (hv : v < 9) : (showCredits d).get (0x2618 + v) 2 = (d.vc v).creditShown := by
  have hat := each_at (fun v d => (d.get (0x2618 + v) 2, d.vc v)) (fun v d => d.set (0x2618 + v) 2 (d.vc v).creditShown)
    (fun _ x => (x.2.creditShown, x.2)) (fun v d => Prod.ext (Dev.get_set_same _ _ _ _) rfl)
    (fun v u d h => Prod.ext (Dev.get_set_ne _ _ _ _ _ _ (okey_ne_of_ix (by omega) (by decide) (by decide))) rfl) 9 v d
  rw [if_pos hv] at hat
  exact congrArg Prod.fst hat

theorem keepsObjs_takeCredits (cell : Bytes) (d : Dev) : KeepsObjs creditObjs d (takeCredits cell d) := by
  obtain ⟨x, hx⟩ := each_setVc_parts 9 (fun v c => c.credited cell v) d
  rw [takeCredits_eq, hx]
  exact (keepsObjs_showCredits { d with vcs := x }).rebase rfl

theorem takeCredits_parts (cell : Bytes) (d : Dev) : ∃ o x, takeCredits cell d = { d with objs := o, vcs := x } := by
  obtain ⟨x, hx⟩ := each_setVc_parts 9 (fun v c => c.credited cell v) d
  obtain ⟨o, ho⟩ := showCredits_parts { d with vcs := x }
  rw [takeCredits_eq, hx]
  exact ⟨o, x, ho⟩

theorem vc_takeCredits (cell : Bytes) (d : Dev) {v : Nat} (hv : v < 9) : (takeCredits cell d).vc v = (d.vc v).credited cell v := by
  obtain ⟨o, ho⟩ := showCredits_parts (each 9 (fun v d => d.setVc v ((d.vc v).credited cell v)) d)
  have hvc : (showCredits (each 9 (fun v d => d.setVc v ((d.vc v).credited cell v)) d)).vc v
      = (each 9 (fun v d => d.setVc v ((d.vc v).credited cell v)) d).vc v := by rw [ho]; rfl
  rw [takeCredits_eq, hvc, vc_each_setVc 9 (fun v c => c.credited cell v), if_pos hv]

theorem shown_takeCredits (cell : Bytes) (d : Dev) {v : Nat} (hv : v < 9) :
    (takeCredits cell d).get (0x2618 + v) 2 = ((d.vc v).credited cell v).creditShown := by
  rw [takeCredits_eq, shown_showCredits _ hv, vc_each_setVc 9 (fun v c => c.credited cell v), if_pos hv]

end Sys2Proof.Machine
end

section
/-! SUPPORT. Frames of the ring (19 R559, R560; 20 R585): what the part's own units leave of its objects when a frame is for them, and what becomes
of a frame of each kind. -/
namespace Sys2Proof.Machine

open Sys2Proof

/-! ## Frames sent -/

theorem keepsObjs_ringSend (but : List (Nat × Nat)) (d : Dev) (ty dst : Nat) (payload : Bytes) : KeepsObjs but d (d.ringSend ty dst payload) := by
  unfold Dev.ringSend
  dsimp only
  split
  · exact KeepsObjs.refl but d
  · refine eachN_preserves (KeepsObjs but d) _ _ (fun _ _ _ he => ?_) _ ?_
    · exact he.of_objs_eq rfl
    · exact (KeepsObjs.refl but d).of_objs_eq rfl

theorem keepsObjs_sendRingBlock (but : List (Nat × Nat)) (dst : Nat) (payload : Bytes) (d : Dev) :
    KeepsObjs but d (sendRingBlock dst payload d) := by
  unfold sendRingBlock
  dsimp only
  split
  · exact (keepsObjs_ringSend but d 0x30 dst payload).of_objs_eq rfl
  · exact (KeepsObjs.refl but d).of_objs_eq rfl

/-! ## Blocks of an image (20 R582, R585) -/

/-- The objects of image kind `k` that a block may change. -/
def imageObjs (k : Nat) : List (Nat × Nat) := [(imageIx k, 2), (imageIx k, 5), (imageIx k, 6), (imageIx k, 7)]

theorem KeepsObjs.putImage {d e : Dev} {k : Nat} (h : KeepsObjs (imageObjs k) d e) (x : ImageRec) : KeepsObjs (imageObjs k) d (e.putImage k x) :=
  (h.of_objs_eq (f := e.setImage k x) rfl).set (by simp [imageObjs]) (by decide) _

theorem keepsObjs_startImage (k : Nat) (h : Bytes) (blocks : Tab Bytes) (d : Dev) : KeepsObjs (imageObjs k) d (startImage k h blocks d) :=
  ((((KeepsObjs.refl _ d).set (by simp [imageObjs]) (by decide) _).set (by simp [imageObjs]) (by decide) 1).putImage _).set
    (by simp [imageObjs]) (by decide) _

theorem keepsObjs_storeBlock (k no : Nat) (b : Bytes) (d : Dev) : KeepsObjs (imageObjs k) d (storeBlock k no b d).2 := by
  unfold storeBlock
  dsimp only
  split
  · split
    · exact KeepsObjs.refl _ d
    · split <;> exact keepsObjs_startImage k _ _ d
  · split
    · exact KeepsObjs.refl _ d
    · split
      · exact (KeepsObjs.refl _ d).of_objs_eq rfl
      · exact (KeepsObjs.refl _ d).putImage _

/-- The result of a block that the ring brings (20 R584), and the part with the block stored. -/
def Dev.ringStored (d : Dev) (p : Bytes) : Nat × Dev :=
  let k := byteAt p 0
  let h := (d.image k).header
  if d.activatingKind k then (3, d)
  else if leAt p 8 4 = 0 then storeBlock k 0 (p.drop 64) d
  else if leAt p 4 4 ≤ d.get (imageIx k) 3 then (1, d)
  else if leAt h 8 4 = leAt p 4 4 && sliceB p 16 16 == padTo 16 (shake256 16 h) then storeBlock k (leAt p 8 4) (p.drop 64) d
  else (3, d)

/-- The part with the result `res` of a block acknowledged and the origin of its chain noted. -/
def Dev.blockAnswered (d : Dev) (res src : Nat) (p : Bytes) : Dev :=
  let k := byteAt p 0
  let origin := byteAt p 1 % 8
  let d := d.ringSend 0x31 src (ringAckPayload k res (leAt p 8 4) (leAt p 4 4))
  let d := if res = 0 then d.setImage k { d.image k with origin := some origin } else d
  if res = 1 && leAt p 8 4 = 0 then d.ringSend 0x31 origin (ringAckPayload k 1 0xFFFFFFFF (leAt p 4 4)) else d

/-- The part with the block forwarded to its successor, unless that is the origin of the chain. -/
def Dev.blockForwarded (d : Dev) (res : Nat) (p : Bytes) : Dev :=
  match d.successor with
  | some q => if q = byteAt p 1 % 8 || 1 < res then d else sendRingBlock q p d
  | none => d

theorem updateBlock_steps (src : Nat) (p : Bytes) (d : Dev) :
    updateBlock src p d = d.when (d.running && (byteAt p 0 == 1 || byteAt p 0 == 2) && p.length == 4160) fun d =>
      ((d.ringStored p).2.blockAnswered (d.ringStored p).1 src p).blockForwarded (d.ringStored p).1 p := rfl

theorem keepsObjs_ringStored (d : Dev) (p : Bytes) : KeepsObjs (imageObjs (byteAt p 0)) d (d.ringStored p).2 := by
  unfold Dev.ringStored
  dsimp only
  split
  · exact KeepsObjs.refl _ d
  · split
    · exact keepsObjs_storeBlock _ _ _ d
    · split
      · exact KeepsObjs.refl _ d
      · split
        · exact keepsObjs_storeBlock _ _ _ d
        · exact KeepsObjs.refl _ d

theorem keepsObjs_blockAnswered (but : List (Nat × Nat)) (d : Dev) (res src : Nat) (p : Bytes) :
    KeepsObjs but d (d.blockAnswered res src p) := by
  have hack := keepsObjs_ringSend but d 0x31 src (ringAckPayload (byteAt p 0) res (leAt p 8 4) (leAt p 4 4))
  unfold Dev.blockAnswered
  dsimp only
  generalize d.ringSend 0x31 src (ringAckPayload (byteAt p 0) res (leAt p 8 4) (leAt p 4 4)) = e at hack ⊢
  have horigin : KeepsObjs but d (if res = 0 then e.setImage (byteAt p 0) { e.image (byteAt p 0) with origin := some (byteAt p 1 % 8) } else e) := by
    split
    · exact hack.of_objs_eq rfl
    · exact hack
  split
  · exact horigin.trans (keepsObjs_ringSend but _ _ _ _)
  · exact horigin

theorem keepsObjs_blockForwarded (but : List (Nat × Nat)) (d : Dev) (res : Nat) (p : Bytes) : KeepsObjs but d (d.blockForwarded res p) := by
  unfold Dev.blockForwarded
  split
  · split
    · exact KeepsObjs.refl but d
    · exact keepsObjs_sendRingBlock but _ p d
  · exact KeepsObjs.refl but d

/-- A block of the ring changes objects of its image alone. -/
theorem keepsObjs_updateBlock (src : Nat) (p : Bytes) (d : Dev) : KeepsObjs (imageObjs (byteAt p 0)) d (updateBlock src p d) := by
  rw [updateBlock_steps]
  exact (KeepsObjs.refl _ d).when _
    (((keepsObjs_ringStored d p).trans (keepsObjs_blockAnswered _ _ _ src p)).trans (keepsObjs_blockForwarded _ _ _ p))

theorem keepsObjs_updateAck (src : Nat) (p : Bytes) (d : Dev) : KeepsObjs [(0x2330, 3)] d (updateAck src p d) := by
  unfold updateAck
  refine (KeepsObjs.refl _ d).when _ ?_
  split
  · exact (KeepsObjs.refl _ d).setBitO (by simp) (by decide) src true
  · dsimp only
    split
    · split
      · exact ((KeepsObjs.refl _ d).of_objs_eq rfl).trans (keepsObjs_sendRingBlock _ _ _ _)
      · exact (KeepsObjs.refl _ d).of_objs_eq rfl
    · exact (KeepsObjs.refl _ d).of_objs_eq rfl

/-! ## The part's position (01 R37) -/

theorem KeepsObjs.position {but : List (Nat × Nat)} {d e : Dev} (h : KeepsObjs but d e) (hn : (0x2000, 6) ∉ but) : e.position = d.position :=
  congrArg (· % 8) (h 0x2000 6 (by decide) hn)

theorem KeepsObjs.setSeen {but : List (Nat × Nat)} {d e : Dev} (h : KeepsObjs but d e) (hs : (0x2668, 1) ∈ but) (he : evObj 14 ∈ but)
    (p : Nat) (b : Bool) : KeepsObjs but d (e.setSeen p b) := by
  unfold Dev.setSeen
  split
  · exact h
  · exact (h.setBitO hs (by decide) p b).raiseEv he (by decide)

theorem KeepsObjs.heard {but : List (Nat × Nat)} {d e : Dev} (h : KeepsObjs but d e) (hs : (0x2668, 1) ∈ but) (he : evObj 14 ∈ but) (p : Nat) :
    KeepsObjs but d (e.heard p) :=
  (h.of_objs_eq (f := { e with ring := { e.ring with gone := setBit e.ring.gone p false } }) rfl).setSeen hs he p true

theorem Dev.position_heard (d : Dev) (p : Nat) : (d.heard p).position = d.position :=
  ((KeepsObjs.refl [(0x2668, 1), evObj 14] d).heard (by simp) (by simp) p).position (by decide)

theorem keepsObjs_masterClaim (p : Bytes) (d : Dev) : KeepsObjs [(0x2000, 7), (0x2668, 1), evObj 14] d (masterClaim p d) := by
  unfold masterClaim
  refine (KeepsObjs.refl _ d).when _ ?_
  have hmaster : KeepsObjs [(0x2000, 7), (0x2668, 1), evObj 14] d (d.setMaster (byteAt p 0 % 8)) := by
    unfold Dev.setMaster
    split
    · exact KeepsObjs.refl _ d
    · exact ((KeepsObjs.refl _ d).set (by simp) (by decide) _).raiseEv (by simp) (by decide)
  exact hmaster.heard (by simp) (by simp) _

theorem keepsObjs_applyCurtail (v : Bytes) (d : Dev) : KeepsObjs ([(0x5811, 1), evObj 45] ++ skeinObjs) d (applyCurtail v d) := by
  obtain ⟨a, w, t, he, -⟩ := applyCurtail_steps v d
  rw [he]
  exact ((KeepsObjs.refl _ d).of_objs_eq rfl).trans (Dev.keepsObjs_setCurtail _ a w t)

/-- A frame for the part's own units, pings and echoes apart, leaves the part its position. -/
theorem position_ringTake (q : Nat) {ty : Nat} (hty : 2 < ty) (src : Nat) (payload : Bytes) (d : Dev) :
    (ringTake q ty src payload d).position = d.position := by
  have himage : (0x2000, 6) ∉ imageObjs (byteAt payload 0) := by
    simp [imageObjs, imageIx]
    omega
  unfold ringTake
  rw [if_neg (by omega), if_neg (by omega)]
  split
  · exact ((KeepsObjs.refl [] d).when _ ((KeepsObjs.refl [] d).of_objs_eq rfl)).position (by simp)
  · split
    · exact ((KeepsObjs.refl [] d).when _ ((KeepsObjs.refl [] d).of_objs_eq rfl)).position (by simp)
    · split
      · exact ((KeepsObjs.refl _ d).when _ (keepsObjs_applyCurtail payload d)).position (by decide)
      · split
        · exact (keepsObjs_masterClaim payload d).position (by decide)
        · split
          · exact (keepsObjs_updateBlock src payload d).position himage
          · split
            · exact (keepsObjs_updateAck src payload d).position (by decide)
            · rfl

/-! ## What becomes of a frame (19 R559) -/

/-- A frame of the ring whose length and CRC are right. -/
def FrameGood (f : Bytes) : Prop :=
  f.length = leAt f 6 2 + 12 ∧ leAt f 6 2 ≤ 4160 ∧ crc32 (f.take (8 + leAt f 6 2)) = leAt f (8 + leAt f 6 2) 4

/-- The part with a frame that came in by port `p` noted: its number among those seen of its source, its hops, and its source heard. -/
def Dev.frameNoted (d : Dev) (p : Nat) (f : Bytes) : Dev :=
  Dev.heard { d with ring := { d.ring with
    seen := tset d.ring.seen (byteAt f 1) (push 64 (leAt f 4 2) (tget [] d.ring.seen (byteAt f 1)))
    hops := tset d.ring.hops (2 * byteAt f 1 + p) (8 - min 7 (byteAt f 3)) } } (byteAt f 1)

theorem Dev.position_frameNoted (d : Dev) (p : Nat) (f : Bytes) : (d.frameNoted p f).position = d.position := Dev.position_heard _ _

section
variable {d : Dev} (hr : d.running = true) (href : d.refused = false) (p : Nat) {f : Bytes}
include hr href

/-- A frame of a wrong length or CRC is counted. -/
theorem ringFrame_bad (h : ¬FrameGood f) : ringFrame p f d = d.satInc 32 (ringIx p) 4 1 := by
  have hbad : (f.length != leAt f 6 2 + 12 || decide (4160 < leAt f 6 2)
      || crc32 (f.take (8 + leAt f 6 2)) != leAt f (8 + leAt f 6 2) 4) = true := by
    simp only [FrameGood, Classical.not_and_iff_not_or_not, Nat.not_le] at h
    simpa [or_assoc] using h
  unfold ringFrame
  rw [Dev.when_pos (by simp [hr, href])]
  exact if_pos hbad

section
variable (h : FrameGood f)
include h

/-- A good frame is one of the part's own position, one seen before or of no position, or a new one of another part. -/
theorem ringFrame_good : ringFrame p f d =
    if byteAt f 1 = d.position then
      d.when (d.foreign (byteAt f 0) (leAt f 4 2)) fun d =>
        duplicateSeen (d.when (byteAt f 0 == 1) (ringTake p (byteAt f 0) (byteAt f 1) (sliceB f 8 (leAt f 6 2))))
    else if (tget [] d.ring.seen (byteAt f 1)).contains (leAt f 4 2) || 7 < byteAt f 1 then d
    else
      let e := (d.frameNoted p f).when (byteAt f 2 == (d.frameNoted p f).position || byteAt f 2 == 0xFF)
        (ringTake p (byteAt f 0) (byteAt f 1) (sliceB f 8 (leAt f 6 2)))
      e.when (byteAt f 2 != e.position && decide (2 < byteAt f 0)) (ringPass (1 - p) f (byteAt f 3)) := by
  obtain ⟨hlen, hmax, hcrc⟩ := h
  have hgood : ¬(f.length != leAt f 6 2 + 12 || decide (4160 < leAt f 6 2)
      || crc32 (f.take (8 + leAt f 6 2)) != leAt f (8 + leAt f 6 2) 4) = true := by
    simp [hlen, hcrc]
    omega
  unfold ringFrame
  rw [Dev.when_pos (by simp [hr, href])]
  exact if_neg hgood

theorem ringFrame_copy (hsrc : byteAt f 1 ≠ d.position) (hseen : (tget [] d.ring.seen (byteAt f 1)).contains (leAt f 4 2) = true) :
    ringFrame p f d = d := by
  rw [ringFrame_good hr href p h, if_neg hsrc, if_pos (by rw [hseen]; rfl)]

theorem ringFrame_own (hsrc : byteAt f 1 = d.position) (hf : d.foreign (byteAt f 0) (leAt f 4 2) = false) : ringFrame p f d = d := by
  rw [ringFrame_good hr href p h, if_pos hsrc, hf]
  rfl

/-- A frame of the part's own position that it has not sent, a ping apart, marks a duplicate. -/
theorem ringFrame_foreign (hsrc : byteAt f 1 = d.position) (hf : d.foreign (byteAt f 0) (leAt f 4 2) = true) (hty : 2 < byteAt f 0) :
    ringFrame p f d = duplicateSeen d := by
  have hping : (byteAt f 0 == 1) = false := beq_eq_false_iff_ne.mpr (by omega)
  rw [ringFrame_good hr href p h, if_pos hsrc, hf, Dev.when_true, hping, Dev.when_false]

section
variable (hseen : (tget [] d.ring.seen (byteAt f 1)).contains (leAt f 4 2) = false) (hsrc : byteAt f 1 ≠ d.position) (h7 : byteAt f 1 ≤ 7)
include hseen hsrc h7

/-- A new frame for the part is taken and not passed on. -/
theorem ringFrame_taken (hdst : byteAt f 2 = d.position) :
    ringFrame p f d = ringTake p (byteAt f 0) (byteAt f 1) (sliceB f 8 (leAt f 6 2)) (d.frameNoted p f) := by
  have hnew : ¬((tget [] d.ring.seen (byteAt f 1)).contains (leAt f 4 2) || decide (7 < byteAt f 1)) = true := by
    rw [hseen]
    simpa using h7
  have hself : (byteAt f 2 == (d.frameNoted p f).position || byteAt f 2 == 0xFF) = true := by simp [Dev.position_frameNoted, hdst]
  have hstays : (byteAt f 2 != (ringTake p (byteAt f 0) (byteAt f 1) (sliceB f 8 (leAt f 6 2)) (d.frameNoted p f)).position
      && decide (2 < byteAt f 0)) = false := by
    by_cases hty : 2 < byteAt f 0
    · simp [position_ringTake p hty, Dev.position_frameNoted, hdst]
    · simp [hty]
  rw [ringFrame_good hr href p h, if_neg hsrc, if_neg hnew, hself, Dev.when_true]
  exact Dev.when_neg hstays _ _

/-- A new frame for another part goes on by the other port with one hop less. -/
theorem ringFrame_passed (hdst : byteAt f 2 ≠ d.position) (hall : byteAt f 2 ≠ 0xFF) (hty : 2 < byteAt f 0) (hhops : 1 < byteAt f 3)
    (hrun : (d.frameNoted p f).portRun (1 - p) = true) :
    ringFrame p f d = ((d.frameNoted p f).portOut (1 - p) (ringBytes (byteAt f 0) (byteAt f 1) (byteAt f 2) (byteAt f 3 - 1) (leAt f 4 2)
      (sliceB f 8 (leAt f 6 2)))).satInc 32 (ringIx (1 - p)) 5 1 := by
  have hnew : ¬((tget [] d.ring.seen (byteAt f 1)).contains (leAt f 4 2) || decide (7 < byteAt f 1)) = true := by
    rw [hseen]
    simpa using h7
  have hself : (byteAt f 2 == (d.frameNoted p f).position || byteAt f 2 == 0xFF) = false := by simp [Dev.position_frameNoted, hdst, hall]
  rw [ringFrame_good hr href p h, if_neg hsrc, if_neg hnew, hself, Dev.when_false]
  refine (Dev.when_pos (by simp [Dev.position_frameNoted, hdst, hty]) _ _).trans ?_
  unfold ringPass
  exact Dev.when_pos (by simp [hrun, hhops]) _ _

end

end

end

end Sys2Proof.Machine
end

section
/-! The Hank port and the ring (19 R546 to R560): what each command does where its condition holds. -/
namespace Sys2Proof.Machine

open Sys2Proof

theorem Dev.ticking_of_working {d : Dev} (h : d.running = true) : d.ticking = true := by
  simp only [Dev.running, Bool.and_eq_true] at h
  exact h.1

/-! ## Cells of the part (19 R548, R550) -/

/-- One unacknowledged cell goes out again under its own number. -/
theorem hankResend_one {d : Dev} {v : Nat} {p : Bytes} {a : Bool} (h : d.get 0x2610 1 = 1) (hu : d.hank.unacked = [(v, p, a)]) :
    hankResend d = (hankPut (hankCell (d.hank.seq + 255) d.hankAck v 1 p a) d).satInc 32 0x2610 3 1 := by
  unfold hankResend
  rw [Dev.when_pos (by simp [h, hu])]
  simp [hu, each, eachN]

theorem creditTransmit_run {d : Dev} (ht : d.ticking = true) (hr : d.hank.rxRun = true) :
    creditTransmit d = { d with hank := { d.hank with
      creditAt := d.now
      wire := push 64 (hankCell d.hank.seq d.hankAck 0 2 ((List.range 16).flatMap fun v => natLE 4 (d.vc v).released) false) d.hank.wire } } :=
  Dev.when_pos (by simp [ht, hr]) _ d

/-! ## Credit cells (19 R550) -/

/-- The part with a good cell counted that shows the host's receiver, and the cells `u` still unacknowledged. -/
def Dev.hostSeen (d : Dev) (u : List (Nat × Bytes × Bool)) : Dev := { d with hank := { d.cellHeard.hank with txRun := true, unacked := u } }

section
variable {d : Dev} {cell : Bytes} (ht : d.ticking = true) (hr : d.hank.rxRun = true) (hg : cellGood cell = true) (hty : byteAt cell 4 / 16 = 2)
  (ha : cellAborted cell = false)
include ht hr hg hty ha

/-- The first credit cell of the host shows its receiver, and the link is in RUN. -/
theorem creditCell_first (htx : d.hank.txRun = false) (hs : d.get 0x2610 1 = 0) :
    ∃ u, creditCell cell d = takeCredits cell ((d.hostSeen u).hankShown true) := by
  have hseen : hankSeen d.cellHeard = (d.hostSeen d.hank.unacked).hankShown true :=
    (Dev.when_pos (by simp [Dev.cellHeard, hr, htx]) _ _).trans (hankState_up (d := d.hostSeen d.hank.unacked) hs)
  obtain ⟨u, hu⟩ := hankAcked_parts (byteAt cell 3) ((d.hostSeen d.hank.unacked).hankShown true)
  refine ⟨u, ?_⟩
  unfold creditCell
  rw [cellIn_good ht _ hr hg, hty]
  simp only [beq_self_eq_true, Bool.or_true, Dev.when_true, ha, hseen, hu]
  rfl

/-- A later one brings its counts. -/
theorem creditCell_later (htx : d.hank.txRun = true) (hu : d.hank.unacked = []) : creditCell cell d = takeCredits cell d.cellHeard := by
  unfold creditCell
  rw [cellIn_both ht hr htx hu hg]
  simp [hty, ha]

end

/-! ## Data cells (19 R548 to R552) -/

/-- The part with a good cell counted and its number accepted. -/
def Dev.cellTaken (d : Dev) (seq : Nat) : Dev := { d with hank := { d.cellHeard.hank with expect := (seq + 1) % 256, ack := some seq } }

/-- The part with a block of channel `v` released, whose unfinished record is now `part`. -/
def Dev.blockReleased (d : Dev) (v : Nat) (part : Bytes) : Dev := d.setVc v { d.vc v with part := part, released := (d.vc v).released + 1 }

/-- A released block is its channel's alone. -/
theorem Dev.blockReleased_leaves (d : Dev) (v : Nat) : let e := d.blockReleased v (d.vc v).part
    (e.vc v).released = (d.vc v).released + 1 ∧ (e.vc v).part = (d.vc v).part ∧ (∀ u, u ≠ v → e.vc u = d.vc u)
      ∧ e = { d with hank := d.hank, vcs := e.vcs } :=
  have hv : (d.blockReleased v (d.vc v).part).vc v = { d.vc v with released := (d.vc v).released + 1 } := Dev.vc_setVc _ _ _
  ⟨by rw [hv], by rw [hv], fun _ hne => Dev.vc_setVc_ne _ _ _ hne, rfl⟩

section
variable {d : Dev} {cell : Bytes} (hr : d.running = true) (hrx : d.hank.rxRun = true) (htx : d.hank.txRun = true) (hu : d.hank.unacked = [])
  (hg : cellGood cell = true) (hty : byteAt cell 4 / 16 = 1) (act : Nat → StreamRec → Dev → Dev)
include hr hrx htx hu hg hty

theorem hankReceive_data : hankReceive act cell d =
    if byteAt cell 2 != d.hank.expect then d.cellHeard
    else if (vcBuffer (byteAt cell 4 % 16)).isNone then (d.cellTaken (byteAt cell 2)).satInc 32 0x2610 2 1
    else if cellAborted cell then (d.cellTaken (byteAt cell 2)).blockReleased (byteAt cell 4 % 16) (d.vc (byteAt cell 4 % 16)).part
    else takeBlock act (byteAt cell 4 % 16) (sliceB cell 6 256) (d.cellTaken (byteAt cell 2)) := by
  unfold hankReceive
  rw [cellIn_both (Dev.ticking_of_working hr) hrx htx hu hg, hty]
  rfl

/-- A data cell out of sequence is only counted. -/
theorem hankReceive_jump (h : byteAt cell 2 ≠ d.hank.expect) : hankReceive act cell d = d.cellHeard := by
  rw [hankReceive_data hr hrx htx hu hg hty, if_pos (bne_iff_ne.mpr h)]

/-- One on a reserved channel is accepted and counted. -/
theorem hankReceive_reserved (h : byteAt cell 2 = d.hank.expect) (hv : vcBuffer (byteAt cell 4 % 16) = none) :
    hankReceive act cell d = (d.cellTaken (byteAt cell 2)).satInc 32 0x2610 2 1 := by
  rw [hankReceive_data hr hrx htx hu hg hty, if_neg (by simp [h]), if_pos (by simp [hv])]

/-- An aborted one only releases its block. -/
theorem hankReceive_aborted (h : byteAt cell 2 = d.hank.expect) (hv : (vcBuffer (byteAt cell 4 % 16)).isSome = true) (ha : cellAborted cell = true) :
    hankReceive act cell d = (d.cellTaken (byteAt cell 2)).blockReleased (byteAt cell 4 % 16) (d.vc (byteAt cell 4 % 16)).part := by
  rw [hankReceive_data hr hrx htx hu hg hty, if_neg (by simp [h]), if_neg (by simp [Option.isSome_iff_ne_none.mp hv]), if_pos ha]

/-- Any other has its block taken. -/
theorem hankReceive_block (h : byteAt cell 2 = d.hank.expect) (hv : (vcBuffer (byteAt cell 4 % 16)).isSome = true) (ha : cellAborted cell = false) :
    hankReceive act cell d = takeBlock act (byteAt cell 4 % 16) (sliceB cell 6 256) (d.cellTaken (byteAt cell 2)) := by
  rw [hankReceive_data hr hrx htx hu hg hty, if_neg (by simp [h]), if_neg (by simp [Option.isSome_iff_ne_none.mp hv]), if_neg (by simp [ha])]

end

/-- A block that ends one record: the record is taken where its number is new (19 R552). -/
theorem takeBlock_one {act : Nat → StreamRec → Dev → Dev} {v : Nat} {payload rest : Bytes} {d : Dev} {x : Nat × StreamRec}
    (h : splitRecords 64 ((d.vc v).part ++ payload) = ([x], rest)) :
    takeBlock act v payload d =
      if x.1 = 1 ∨ (d.vc v).inNo < x.1 then
        act v x.2 ((d.blockReleased v rest).setVc v { (d.blockReleased v rest).vc v with inNo := x.1 })
      else d.blockReleased v rest := by
  unfold takeBlock
  simp [h, Dev.blockReleased]

/-! ## Frames of the host to a vehicle (19 R553; 10 R318, R319) -/

section
variable {d : Dev} {o : Fin 32} {p : Bytes}

theorem vehicleRecord_ether (h : d.etherOpen o = true) (h1 : 14 ≤ p.length) (h2 : p.length ≤ 1514) :
    vehicleRecord o p d = d.setOut o { d.out o with out := (d.out o).out ++ [(false, p)] } := by
  have hmod : o.val % 256 = o.val := Nat.mod_eq_of_lt (by omega)
  have hcan : Nat.testBit o.val 8 = false := Nat.testBit_lt_two_pow (by omega)
  simp [vehicleRecord, hmod, hcan, h, h1, h2, o.isLt]

theorem vehicleRecord_can (h : d.canOpen o = true) (h1 : byteAt p 4 ≤ 8) (h2 : p.length = 8 + byteAt p 4) :
    vehicleRecord (o + 256) p d = d.setOut o { d.out o with out := (d.out o).out ++ [(true, p)] } := by
  have hmod : (o.val + 256) % 256 = o.val := by omega
  have hcan : Nat.testBit (o.val + 256) 8 = true := by
    rw [Nat.add_comm]
    exact (Nat.testBit_two_pow_add_eq o.val 8).trans (by rw [Nat.testBit_lt_two_pow (by omega)]; rfl)
  simp [vehicleRecord, hmod, hcan, h, h1, h2, o.isLt]

theorem vehicleRecord_closed (h : d.etherOpen o = false) : vehicleRecord o p d = d.satInc 32 0x261C 4 1 := by
  have hmod : o.val % 256 = o.val := Nat.mod_eq_of_lt (by omega)
  have hcan : Nat.testBit o.val 8 = false := Nat.testBit_lt_two_pow (by omega)
  unfold vehicleRecord
  simp only [hmod, hcan, h]
  simp [Dev.dropRecord, Dev.inc]

end

/-- Beyond `d`, an outlet's frames that wait alone differ. -/
theorem Dev.setOut_frames (d : Dev) (o : Nat) (x : Bool × Bytes) :
    let e := d.setOut o { d.out o with out := (d.out o).out ++ [x] }
    (e.out o).out = (d.out o).out ++ [x] ∧ (∀ k, k ≠ o → e.out k = d.out k) ∧ e = { d with outs := e.outs } :=
  ⟨congrArg OutRec.out (Dev.out_setOut _ _ _), fun _ hk => Dev.out_setOut_ne _ _ _ hk, rfl⟩

/-- A count and nothing else. -/
theorem Dev.satInc_only (d : Dev) (ix sub : Nat) (hs : sub < 256) :
    (d.satInc 32 ix sub 1).get ix sub = satAdd 32 (d.get ix sub) 1 ∧ KeepsObjs [(ix, sub)] d (d.satInc 32 ix sub 1)
      ∧ OnlyObjs d (d.satInc 32 ix sub 1) :=
  ⟨Dev.get_satInc_same _ _ _ _ _, (KeepsObjs.refl _ d).set (by simp) hs _, rfl⟩

/-- A cell accepted on a reserved channel is counted beside its number. -/
theorem cellTaken_counted (d : Dev) (seq : Nat) : let e := (d.cellTaken seq).satInc 32 0x2610 2 1
    e.get 0x2610 2 = satAdd 32 (d.get 0x2610 2) 1 ∧ KeepsObjs [(0x2610, 2)] d e ∧ e = { d with objs := e.objs, hank := (d.cellTaken seq).hank } :=
  have ⟨hcount, hk, _⟩ := (d.cellTaken seq).satInc_only 0x2610 2 (by decide)
  ⟨hcount, hk.rebase rfl, rfl⟩

/-! ## Bad cells (19 R547) -/

section
variable {d : Dev}

/-- A bad cell short of the eighth in a row. -/
theorem Dev.hank_cellSpoilt (h : d.hank.bad < 7) : d.cellSpoilt.hank = { d.hank with good := 0, bad := d.hank.bad + 1 } := by
  have hmin : min 8 (d.hank.bad + 1) = d.hank.bad + 1 := Nat.min_eq_right (by omega)
  unfold Dev.cellSpoilt
  rw [hmin]
  rfl

theorem Dev.keepsObjs_cellSpoilt : KeepsObjs [(0x2610, 2)] d d.cellSpoilt :=
  ((KeepsObjs.refl _ d).of_objs_eq rfl).set (by simp) (by decide) _

theorem Dev.count_cellSpoilt : d.cellSpoilt.get 0x2610 2 = satAdd 32 (d.get 0x2610 2) 1 := Dev.get_satInc_same _ _ _ _ _

end

/-- What a bad cell in RUN leaves: counted, and the eighth in a row loses RUN. -/
theorem badCell_leaves (d : Dev) : let e := d.cellSpoilt.when (decide (7 ≤ d.hank.bad)) hankDown
    e.get 0x2610 2 = satAdd 32 (d.get 0x2610 2) 1
    ∧ (d.hank.bad < 7 → e.hank = { d.hank with good := 0, bad := d.hank.bad + 1 } ∧ KeepsObjs [(0x2610, 2)] d e)
    ∧ (7 ≤ d.hank.bad → d.get 0x2610 1 = 1 → e.hank.rxRun = false ∧ e.get 0x2610 1 = 0 ∧ e.evPending 10 = true
        ∧ KeepsObjs [(0x2610, 1), (0x2610, 2), (0x2610, 4), evObj 10] d e)
    ∧ e = { d with objs := e.objs, hank := e.hank } := by
  by_cases h : 7 ≤ d.hank.bad
  · rw [decide_eq_true h, Dev.when_true]
    obtain ⟨o, hparts⟩ := hankDown_parts d.cellSpoilt
    have hdown : KeepsObjs [(0x2610, 1), (0x2610, 4), evObj 10] d.cellSpoilt (hankDown d.cellSpoilt) := by
      unfold hankDown hankState
      split
      · exact (KeepsObjs.refl _ _).of_objs_eq rfl
      · exact ((KeepsObjs.refl _ _).of_objs_eq rfl).trans (Dev.keepsObjs_hankShown _ false)
    refine ⟨(hdown _ _ (by decide) (by decide)).trans Dev.count_cellSpoilt, fun hlt => absurd h (by omega), fun _ hrun => ?_, ?_⟩
    · have hrun' : d.cellSpoilt.get 0x2610 1 = 1 := (Dev.keepsObjs_cellSpoilt _ _ (by decide) (by decide)).trans hrun
      have hk := (Dev.keepsObjs_cellSpoilt.mono (by simp)).trans (hdown.mono (but' := [(0x2610, 1), (0x2610, 2), (0x2610, 4), evObj 10]) (by simp))
      rw [hankDown_run hrun'] at hk ⊢
      exact ⟨rfl, Dev.state_hankShown _ false, Dev.evPending_hankShown _ false, hk⟩
    · rw [hparts]
      rfl
  · rw [decide_eq_false h, Dev.when_false]
    exact ⟨Dev.count_cellSpoilt, fun hlt => ⟨Dev.hank_cellSpoilt hlt, Dev.keepsObjs_cellSpoilt⟩, fun h7 => absurd h7 h, rfl⟩

/-- A cell that comes in while the part works. -/
theorem completes_hankCell {s : State} {cell : Bytes} {q : Dev → Prop} (hr : s.dev.running = true) (hq : q (hankReceive takeRecord cell s.dev)) :
    Completes (.hankCell cell) s q := by
  refine completes_onDev (f := fun d => d.when d.running (hankReceive takeRecord cell)) rfl ?_
  rw [Dev.when_pos hr]
  exact hq

/-- Settles O56: a cell is counted and heard by the lemmas on `cellIn` and then acted on by its kind; a ring frame goes one of the ways of
the `ringFrame` lemmas. -/
theorem hankAndRing : Obligations.HankAndRing := by
  unfold Obligations.HankAndRing
  refine ⟨?run, ?firstCredit, ?down, ?resend, ?credits, ?cells, ?vehicle, ?capture, ?ring⟩
  case run =>
    intro s ht hr
    refine completes_onDev (f := hankRun) rfl ?_
    obtain ⟨x, hx⟩ := hankRun_parts ht hr
    refine ⟨by rw [hx]; rfl, fun v hv => ?_, by rw [hx]⟩
    rw [vc_hankRun ht hr hv]
    exact ⟨rfl, rfl, rfl, rfl⟩
  case firstCredit =>
    intro s cell ht hg
    refine ⟨fun hr h7 => completes_onDev (f := creditCell cell) rfl ?_, fun hr htx hs hty ha => completes_onDev (f := creditCell cell) rfl ?_⟩
    · obtain ⟨x, hx⟩ := hankRun_parts (d := s.dev.cellHeard) ht hr
      unfold creditCell
      rw [cellIn_enters ht _ hr hg h7, hx]
      exact ⟨rfl, rfl, rfl⟩
    · obtain ⟨u, hu⟩ := creditCell_first ht hr hg hty ha htx hs
      rw [hu]
      have hk := keepsObjs_takeCredits cell ((s.dev.hostSeen u).hankShown true)
      have hshown := ((s.dev.hostSeen u).keepsObjs_hankShown true).rebase (d' := s.dev) rfl
      have hn := not_mem_creditObjs (ix := 0x2610) (by decide)
      obtain ⟨o, x, hx⟩ := takeCredits_parts cell ((s.dev.hostSeen u).hankShown true)
      refine ⟨by rw [hx]; rfl, (hk _ _ (by decide) (hn 1)).trans (Dev.state_hankShown _ true),
        (hk _ _ (by decide) (hn 4)).trans (Dev.count_hankShown _ true), ?_,
        (hshown.mono (List.subset_append_left _ _)).trans (hk.mono (List.subset_append_right _ _)), by rw [hx]; rfl⟩
      rw [hk.evPending (by decide) (not_mem_creditObjs (by decide) _)]
      exact Dev.evPending_hankShown _ true
  case down =>
    intro s h
    refine completes_onDev (f := hankDown) rfl ?_
    rw [hankDown_run h]
    exact ⟨Dev.state_hankShown _ false, Dev.count_hankShown _ false, Dev.evPending_hankShown _ false, rfl,
      (Dev.keepsObjs_hankShown _ false).rebase rfl, rfl⟩
  case resend =>
    intro s v p a h hu
    refine completes_onDev (f := hankResend) rfl ?_
    rw [hankResend_one h hu]
    exact ⟨Dev.get_satInc_same _ _ _ _ _, rfl, ((KeepsObjs.refl _ s.dev).of_objs_eq rfl).set (by simp) (by decide) _, rfl⟩
  case credits =>
    intro s ht hr
    refine completes_onDev (f := creditTransmit) rfl ?_
    rw [creditTransmit_run ht hr]
    exact ⟨rfl, rfl⟩
  case cells =>
    intro s cell hr hrx htx hu
    have ht := Dev.ticking_of_working hr
    refine ⟨fun hb => ?bad, fun hg ha hty => ?credit, fun hg hty => ?data⟩
    case bad =>
      refine ⟨completes_hankCell hr ?_, completes_onDev (f := creditCell cell) rfl ?_⟩
      · rw [hankReceive, cellIn_bad ht _ hrx hb]
        exact badCell_leaves s.dev
      · rw [creditCell, cellIn_bad ht _ hrx hb]
        exact badCell_leaves s.dev
    case credit =>
      refine completes_onDev (f := creditCell cell) rfl ?_
      rw [creditCell_later ht hrx hg hty ha htx hu]
      obtain ⟨o, x, hx⟩ := takeCredits_parts cell s.dev.cellHeard
      refine ⟨fun v hv => ?_, (keepsObjs_takeCredits cell s.dev.cellHeard).rebase rfl, by rw [hx]; rfl⟩
      rw [vc_takeCredits cell _ hv, shown_takeCredits cell _ hv]
      exact ⟨rfl, rfl⟩
    case data =>
      refine ⟨fun hne => completes_hankCell hr ?_, fun hseq hnone => completes_hankCell hr ?_,
        fun hseq hsome ha => completes_hankCell hr ?_, fun x rest hseq hsome ha hsplit => completes_hankCell hr ?_⟩
      · exact hankReceive_jump hr hrx htx hu hg hty takeRecord hne
      · rw [hankReceive_reserved hr hrx htx hu hg hty takeRecord hseq hnone]
        exact cellTaken_counted s.dev _
      · rw [hankReceive_aborted hr hrx htx hu hg hty takeRecord hseq hsome ha]
        exact (s.dev.cellTaken (byteAt cell 2)).blockReleased_leaves _
      · rw [hankReceive_block hr hrx htx hu hg hty takeRecord hseq hsome ha]
        exact takeBlock_one (d := s.dev.cellTaken (byteAt cell 2)) hsplit
  case vehicle =>
    intro s o p hr
    refine ⟨fun h h1 h2 => ?_, fun h h1 h2 => ?_, fun h => ?_⟩
    · refine completes_onDev (f := fun d => d.when d.running (vehicleRecord o p)) rfl ?_
      rw [Dev.when_pos hr, vehicleRecord_ether h h1 h2]
      exact s.dev.setOut_frames o (false, p)
    · refine completes_onDev (f := fun d => d.when d.running (vehicleRecord (o + 256) p)) rfl ?_
      rw [Dev.when_pos hr, vehicleRecord_can h h1 h2]
      exact s.dev.setOut_frames o (true, p)
    · refine completes_onDev (f := fun d => d.when d.running (vehicleRecord o p)) rfl ?_
      rw [Dev.when_pos hr, vehicleRecord_closed h]
      exact s.dev.satInc_only 0x261C 4 (by decide)
  case capture =>
    intro s role v h
    refine completes_onDev (f := writeHankCap role v) rfl ?_
    rw [writeHankCap, writeObj_of_accepts h]
    exact ⟨rfl, Dev.get_set_same _ _ _ _, (((KeepsObjs.refl _ s.dev).of_objs_eq rfl).set (by simp) (by decide) 1).answer 0, rfl⟩
  case ring =>
    intro s p f hr href
    have hdo : ∀ {q : Dev → Prop}, q (ringFrame p f s.dev) → Completes (.ringFrame p f) s q := fun hq => completes_onDev rfl hq
    refine ⟨fun hb => hdo ?_, fun hg hsrc hseen => hdo (ringFrame_copy hr href p hg hsrc hseen),
      fun hg hsrc hf => hdo (ringFrame_own hr href p hg hsrc hf), fun hg hsrc hf hty => hdo ?_,
      fun hg hseen hsrc h7 => ⟨fun hdst => hdo (ringFrame_taken hr href p hg hseen hsrc h7 hdst), fun hdst hall hty hhops hrun =>
        hdo (ringFrame_passed hr href p hg hseen hsrc h7 hdst hall hty hhops hrun)⟩⟩
    · rw [ringFrame_bad hr href p hb]
      exact s.dev.satInc_only (ringIx p) 4 (by decide)
    · rw [ringFrame_foreign hr href p hg hsrc hf hty]
      exact ⟨fun j => Dev.bitO_setBitO _ _ _ _ _ j, (KeepsObjs.refl _ s.dev).setBitO (by simp) (by decide) 7 true, rfl⟩

end Sys2Proof.Machine
end

section
/-! Insulation monitoring, the clearing of latches and trips, and the settings of protection (11 R360 to R362, R366 to R368): what each command
does where its condition holds. -/
namespace Sys2Proof.Machine

open Sys2Proof

/-! ## The records of outlets and groups -/

theorem Dev.prot_setProt_ne (d : Dev) (o : Nat) (r : ProtRec) {p : Nat} (h : p ≠ o) : (d.setProt o r).prot p = d.prot p :=
  tget_tset_ne _ _ _ _ _ (Ne.symm h)
@[simp] theorem Dev.grp_setGrp (d : Dev) (g : Nat) (r : GroupRec) : (d.setGrp g r).grp g = r := tget_tset_same _ _ _ _

/-- Beyond what differs in the objects, a record set differs in the records alone. -/
theorem OnlyObjs.setProt {d e : Dev} (h : OnlyObjs d e) (o : Nat) (r : ProtRec) :
    e.setProt o r = { d with objs := (e.setProt o r).objs, prots := (e.setProt o r).prots } :=
  congrArg (fun f : Dev => { f with prots := tset e.prots o r }) h

/-- The sub-index of an admitted write to the protection or the insulation of an outlet is one of their table. -/
theorem sub_lt_of_accepts_fault {d : Dev} {role : Role} {ix sub : Nat} {v : Val} {x : Rules} (hlo : 0x6000 ≤ ix) (hhi : ix < 0x6800)
    (h : Accepts d role ix sub v x) : sub < 256 := by
  have hrows : rowsFor ix = rowsFault := by
    unfold rowsFor
    simp (disch := omega) only [if_neg, if_pos]
  have hsubs : ∀ r ∈ rowsFault, r.subHi < 256 := by decide
  obtain ⟨r, hr, hle⟩ := exists_row_of_accepts h
  rw [hrows] at hr
  exact Nat.lt_of_le_of_lt hle (hsubs r hr)

/-! ## The insulation measurement (11 R360 to R362) -/

theorem resistance_infinite {rm : Nat} {det div : Int} (h : div ≤ 0) : resistance rm det div = 0xFFFFFFFF := if_pos h

/-- A resistance in the 32-bit range is the quotient. -/
theorem resistance_finite {rm : Nat} {det div : Int} (hdet : 0 < det) (hdiv : 0 < div) (hlt : (rm : Int) * det / div < 0xFFFFFFFF) :
    (resistance rm det div : Int) = (rm : Int) * det / div := by
  have hnonneg : 0 ≤ (rm : Int) * det / div := Int.ediv_nonneg (Int.mul_nonneg (Int.natCast_nonneg rm) (Int.le_of_lt hdet)) (Int.le_of_lt hdiv)
  rw [resistance, if_neg (Int.not_le.mpr hdiv)]
  omega

/-- The voltage between the poles in state 1 (11 R360). -/
def InsRec.u1 (i : InsRec) : Int := i.vp1 - i.vn1
/-- The voltage between the poles in state 2. -/
def InsRec.u2 (i : InsRec) : Int := i.vp - i.vn
/-- The determinant of the voltages of the two states, in units of the sums. -/
def InsRec.det (i : InsRec) : Int := i.vp1 * i.vn - i.vn1 * i.vp

/-- The measurement that follows the one at its end, before what the latter found. -/
def Dev.insNext (d : Dev) (o : Nat) : InsRec := { (d.prot o).ins with state := 1, start := d.now + 1, vp := 0, vn := 0, inBand := true }

/-- The part with the two resistances and the total of outlet `o` published, as a good measurement does. -/
def Dev.insPublished (d : Dev) (o rp rn riso : Nat) : Dev := ((d.set (insIx o) 0xA rp).set (insIx o) 0xB rn).set (insIx o) 0xC riso

/-- The part with a good measurement of outlet `o` counted and the two bits of a discarded one cleared. -/
def Dev.insCounted (d : Dev) (o : Nat) : Dev := ((d.setBitO (insIx o) 0xD 2 false).setBitO (insIx o) 0xD 3 false).inc (insIx o) 0xE

/-- The part with the insulation of outlet `o` shown at level `lvl` (11 R361). -/
def Dev.insLevel (d : Dev) (o lvl : Nat) : Dev := d.set (insIx o) 0xD (setField (d.get (insIx o) 0xD) 0 2 lvl)

/-- The part with a good measurement of outlet `o` shown. -/
def Dev.insMeasured (d : Dev) (o rp rn riso lvl : Nat) : Dev := ((d.insPublished o rp rn riso).insCounted o).insLevel o lvl

section
variable {d : Dev} {o : Nat}

theorem insSwitch_due (hs : (d.prot o).ins.state = 1) (ht : (d.prot o).ins.start + d.insTicks o ≤ d.now + 1) :
    insSwitch o d = d.setProt o { d.prot o with ins := { (d.prot o).ins with
      state := 2, start := d.now + 1, vp1 := (d.prot o).ins.vp, vn1 := (d.prot o).ins.vn, vp := 0, vn := 0 } } := by
  simp [insSwitch, hs, ht, Dev.effTick]

section
variable (hs : (d.prot o).ins.state = 2) (ht : (d.prot o).ins.start + d.insTicks o ≤ d.now + 1)
include hs ht

/-- A measurement below 50 V is discarded: bit 2 says so, and the next one starts. -/
theorem insMeasure_low (hu : (d.prot o).ins.vp1 - (d.prot o).ins.vn1 < 655360000) :
    insMeasure o d = ((d.setProt o { d.prot o with ins := d.insNext o }).setBitO (insIx o) 0xD 2 true).setBitO (insIx o) 0xD 3 false := by
  simp [insMeasure, hs, ht, hu, Dev.effTick, Dev.insNext]

/-- A good measurement with one resistance infinite and the other, the total, above the warning level publishes, counts and shows the normal
level; no trip follows. -/
theorem insMeasure_normal {rn : Nat} (hu : 655360000 ≤ (d.prot o).ins.u1)
    (hdiff : (((d.prot o).ins.u2 - (d.prot o).ins.u1).natAbs : Int) * 50 ≤ (d.prot o).ins.u1) (hdet : 0 < (d.prot o).ins.det)
    (hvn : (d.prot o).ins.vn = 0) (hrn : resistance (d.get (insIx o) 4) (d.prot o).ins.det ((d.prot o).ins.vp1 * (d.prot o).ins.u2) = rn)
    (hwarn : d.get (insIx o) 7 * d.ratedV o < rn) :
    insMeasure o d = (d.insMeasured o 0xFFFFFFFF rn rn 1).setProt o
      { d.prot o with ins := { d.insNext o with
          faults := 0, passed := (d.prot o).ins.passed || (decide (d.step o = 3) && (d.prot o).ins.inBand) } } := by
  have hkept : ¬ (decide ((d.prot o).ins.u1 < 50 * 4096 * 3200) || decide (((d.prot o).ins.u1.natAbs : Int)
      < (((d.prot o).ins.u2 - (d.prot o).ins.u1).natAbs : Int) * 50 ∨ (d.prot o).ins.det ≤ 0)) = true := by
    simp only [Bool.or_eq_true, decide_eq_true_eq]
    omega
  have hrp : resistance (d.get (insIx o) 4) (d.prot o).ins.det (-(d.prot o).ins.vn * (d.prot o).ins.u1) = 0xFFFFFFFF :=
    resistance_infinite (by simp [hvn])
  have hpassed : (d.step o == 3 && (1 : Nat) != 3 && (d.prot o).ins.inBand) = (decide (d.step o = 3) && (d.prot o).ins.inBand) := by
    by_cases h : d.step o = 3 <;> simp [h]
  refine (if_pos (by simp [hs, ht, Dev.effTick])).trans ((if_neg hkept).trans ?_)
  unfold InsRec.u1 InsRec.det at hrp
  unfold InsRec.u2 InsRec.det at hrn
  dsimp only
  rw [hrn, hrp, if_pos rfl, if_pos hwarn, hpassed]
  rfl

end

end

/-- The status of a good measurement: the level, with the two bits of a discarded one clear. -/
theorem setField_level_mod (n : Nat) {lvl : Nat} (h : lvl < 4) : setField (setBit (setBit n 2 false) 3 false) 0 2 lvl % 16 = lvl := by
  simp only [setBit, setField_eq, Bool.toNat_false]
  omega

section
variable (d : Dev) (o : Nat)

theorem Dev.keepsObjs_insPublished (rp rn riso : Nat) : KeepsObjs [(insIx o, 0xA), (insIx o, 0xB), (insIx o, 0xC)] d (d.insPublished o rp rn riso) :=
  (((KeepsObjs.refl _ d).set (by simp) (by decide) rp).set (by simp) (by decide) rn).set (by simp) (by decide) riso

theorem Dev.keepsObjs_insCounted : KeepsObjs [(insIx o, 0xD), (insIx o, 0xE)] d (d.insCounted o) :=
  (((KeepsObjs.refl _ d).setBitO (by simp) (by decide) 2 false).setBitO (by simp) (by decide) 3 false).set (by simp) (by decide) _

theorem Dev.keepsObjs_insLevel (lvl : Nat) : KeepsObjs [(insIx o, 0xD)] d (d.insLevel o lvl) :=
  (KeepsObjs.refl _ d).set (by simp) (by decide) _

/-- What is published. -/
theorem Dev.get_insPublished (rp rn riso : Nat) : (d.insPublished o rp rn riso).get (insIx o) 0xA = rp
    ∧ (d.insPublished o rp rn riso).get (insIx o) 0xB = rn ∧ (d.insPublished o rp rn riso).get (insIx o) 0xC = riso := by
  have hset : ∀ (e : Dev) (sub v sub' : Nat), sub < 256 → sub' < 256 → sub ≠ sub' → (e.set (insIx o) sub v).get (insIx o) sub' = e.get (insIx o) sub' :=
    fun e sub v sub' hs hs' hne => Dev.get_set_ne _ _ _ _ _ _ fun hk => hne ((okey_inj hs hs').mp hk).2
  refine ⟨?_, ?_, Dev.get_set_same _ _ _ _⟩
  · exact (hset _ _ _ _ (by decide) (by decide) (by decide)).trans
      ((hset _ _ _ _ (by decide) (by decide) (by decide)).trans (Dev.get_set_same _ _ _ _))
  · exact (hset _ _ _ _ (by decide) (by decide) (by decide)).trans (Dev.get_set_same _ _ _ _)

theorem Dev.count_insCounted : (d.insCounted o).get (insIx o) 0xE = satAdd 32 (d.get (insIx o) 0xE) 1 := by
  have hk : KeepsObjs [(insIx o, 0xD)] d ((d.setBitO (insIx o) 0xD 2 false).setBitO (insIx o) 0xD 3 false) :=
    ((KeepsObjs.refl _ d).setBitO (by simp) (by decide) 2 false).setBitO (by simp) (by decide) 3 false
  rw [← hk _ _ (by decide) (by simp)]
  exact Dev.get_satInc_same _ _ _ _ _

/-- The status shown after a good measurement. -/
theorem Dev.status_insCounted {lvl : Nat} (h : lvl < 4) : ((d.insCounted o).insLevel o lvl).get (insIx o) 0xD % 16 = lvl := by
  have hk : KeepsObjs [(insIx o, 0xE)] ((d.setBitO (insIx o) 0xD 2 false).setBitO (insIx o) 0xD 3 false) (d.insCounted o) :=
    (KeepsObjs.refl _ _).set (by simp) (by decide) _
  unfold Dev.insLevel
  rw [Dev.get_set_same, hk _ _ (by decide) (by simp)]
  simp only [Dev.setBitO, Dev.get_set_same]
  exact setField_level_mod _ h

theorem Dev.onlyObjs_insMeasured (rp rn riso lvl : Nat) : OnlyObjs d (d.insMeasured o rp rn riso lvl) := by
  have hpub : OnlyObjs d (d.insPublished o rp rn riso) := OnlyObjs.set (OnlyObjs.set (OnlyObjs.set (show OnlyObjs d d from rfl) _ _ _) _ _ _) _ _ _
  exact OnlyObjs.set (OnlyObjs.set (OnlyObjs.set (OnlyObjs.set hpub _ _ _) _ _ _) _ _ _) _ _ _

/-- What follows the resistances of a good measurement: its count and its status. -/
theorem Dev.keepsObjs_insMeasured_after (rp rn riso lvl : Nat) :
    KeepsObjs [(insIx o, 0xD), (insIx o, 0xE)] (d.insPublished o rp rn riso) (d.insMeasured o rp rn riso lvl) :=
  (Dev.keepsObjs_insCounted _ o).trans ((Dev.keepsObjs_insLevel _ o lvl).mono (by simp))

theorem Dev.keepsObjs_insMeasured (rp rn riso lvl : Nat) :
    KeepsObjs [(insIx o, 0xA), (insIx o, 0xB), (insIx o, 0xC), (insIx o, 0xD), (insIx o, 0xE)] d (d.insMeasured o rp rn riso lvl) :=
  ((d.keepsObjs_insPublished o rp rn riso).mono (by simp)).trans ((d.keepsObjs_insMeasured_after o rp rn riso lvl).mono (by simp))

/-- What a good measurement shows. -/
theorem Dev.get_insMeasured (rp rn riso : Nat) {lvl : Nat} (h : lvl < 4) : (d.insMeasured o rp rn riso lvl).get (insIx o) 0xA = rp
    ∧ (d.insMeasured o rp rn riso lvl).get (insIx o) 0xB = rn ∧ (d.insMeasured o rp rn riso lvl).get (insIx o) 0xC = riso
    ∧ (d.insMeasured o rp rn riso lvl).get (insIx o) 0xD % 16 = lvl
    ∧ (d.insMeasured o rp rn riso lvl).get (insIx o) 0xE = satAdd 32 (d.get (insIx o) 0xE) 1 := by
  obtain ⟨hp, hn, hiso⟩ := d.get_insPublished o rp rn riso
  have hafter := d.keepsObjs_insMeasured_after o rp rn riso lvl
  refine ⟨(hafter _ _ (by decide) (by simp)).trans hp, (hafter _ _ (by decide) (by simp)).trans hn,
    (hafter _ _ (by decide) (by simp)).trans hiso, Dev.status_insCounted _ o h, ?_⟩
  refine (Dev.keepsObjs_insLevel _ o lvl _ _ (by decide) (by simp)).trans ((Dev.count_insCounted _ o).trans ?_)
  rw [d.keepsObjs_insPublished o rp rn riso _ _ (by decide) (by simp)]

end

/-! ## Latches and trips cleared (11 R366, R367) -/

theorem effProt_clearLatch (g : Nat) (d : Dev) :
    effProt g 0x26 1 d = (d.setBitO (protIx g) 0x23 0 false).setGrp g { d.grp g with unseen := false } := rfl
theorem effProt_clearTrip (o : Nat) (d : Dev) : effProt o 0x15 1 d = d.set (protIx o) 0x12 0 := rfl

/-- A trip of an open session is refused by its value alone. -/
theorem protRules_openSession {d aft : Dev} {role : Role} {o : Nat} (hstep : 2 ≤ d.step o) (hb : d.bitO (protIx o) 0x12 11 = false) :
    protRules d aft role o 0x15 1 = { atRange := 8 } := by
  have hclear : tripClearable d o = false := by
    have : ¬ d.step o ≤ 1 := by omega
    simp [tripClearable, this]
  simp [protRules, hb, hclear]

theorem autoClear_due {d : Dev} {o : Nat} (hh : d.tripHeld o = true) (hf : d.get (protIx o) 0xF = 1) (hb : d.bitO (protIx o) 0x12 11 = false)
    (hc : tripClearable d o = true) : autoClear o d = d.set (protIx o) 0x12 0 :=
  Dev.when_pos (by simp [hh, hf, hb, hc]) _ d

/-! ## Settings (11 R368) -/

theorem effProt_outletSetting (o v : Nat) {sub : Nat} (hs : sub ≤ 0xF) (d : Dev) : effProt o sub v d = discardProt o (d.set (protIx o) sub v) := by
  unfold effProt
  rw [if_neg (by omega), if_neg (by omega), if_neg (by omega)]

theorem effProt_groupSetting (g v : Nat) {sub : Nat} (hlo : 0x20 ≤ sub) (hhi : sub ≤ 0x22) (d : Dev) :
    effProt g sub v d = eachN (d.groupOutlets g) discardProt (d.set (protIx g) sub v) := by
  unfold effProt
  rw [if_neg (by omega), if_neg (by omega), if_pos hlo]

theorem Dev.mem_groupOutlets {d : Dev} {g p : Nat} : p ∈ d.groupOutlets g ↔ p < 32 ∧ d.get (protIx p) 1 = g := by
  simp [Dev.groupOutlets]

section
variable (d : Dev) (o : Nat)

/-- A setting stored discards what is under way of outlet `o` but the times of its past trips, and answers status 0. -/
theorem discardProt_set (ix v : Nat) {sub : Nat} (hs : sub < 256) : let e := (discardProt o (d.set ix sub v)).answer 0
    e.get ix sub = v ∧ e.status = 0 ∧ e.prot o = { trips := (d.prot o).trips } ∧ (∀ p, p ≠ o → e.prot p = d.prot p)
    ∧ KeepsObjs [(ix, sub)] d e ∧ e = { d with objs := e.objs, prots := e.prots, status := 0 } :=
  ⟨Dev.get_set_same d ix sub v, rfl, Dev.prot_setProt (d.set ix sub v) o _, fun _ hp => Dev.prot_setProt_ne (d.set ix sub v) o _ hp,
    (((KeepsObjs.refl _ d).set (by simp) hs v).setProt o _).answer 0, rfl⟩

theorem eachN_discardProt_parts (l : List Nat) : ∃ x, eachN l discardProt d = { d with prots := x } :=
  eachN_preserves (fun e => ∃ x, e = { d with prots := x }) _ l (fun p _ _ ⟨_, he⟩ => ⟨_, (congrArg (discardProt p) he).trans rfl⟩) d ⟨_, rfl⟩

/-- One outlet's record after it was discarded. -/
theorem prot_discardProt (p : Nat) : (discardProt o d).prot p = if p = o then { trips := (d.prot p).trips } else d.prot p := by
  by_cases h : p = o
  · rw [if_pos h, h]
    exact Dev.prot_setProt _ _ _
  · rw [if_neg h]
    exact Dev.prot_setProt_ne _ _ _ h

/-- The outlets of a list are discarded, once or more, and no others. -/
theorem prot_eachN_discardProt (l : List Nat) (p : Nat) :
    (eachN l discardProt d).prot p = if p ∈ l then { trips := (d.prot p).trips } else d.prot p := by
  induction l generalizing d with
  | nil => rfl
  | cons a l ih =>
    refine (ih (discardProt a d)).trans ?_
    rw [prot_discardProt]
    by_cases ha : p = a <;> by_cases hl : p ∈ l <;> simp [ha, hl]

/-- A comparator's setting discards what is under way of every outlet of its group. -/
theorem groupSetting (g v : Nat) {sub : Nat} (hs : sub < 256) : let e := (eachN (d.groupOutlets g) discardProt (d.set (protIx g) sub v)).answer 0
    e.get (protIx g) sub = v ∧ e.status = 0
    ∧ (∀ p, e.prot p = if p < 32 ∧ d.get (protIx p) 1 = g then { trips := (d.prot p).trips } else d.prot p)
    ∧ KeepsObjs [(protIx g, sub)] d e ∧ e = { d with objs := e.objs, prots := e.prots, status := 0 } := by
  intro e
  obtain ⟨x, hx⟩ := eachN_discardProt_parts (d.set (protIx g) sub v) (d.groupOutlets g)
  have he : e = { d.set (protIx g) sub v with prots := x, status := 0 } := congrArg (Dev.answer · 0) hx
  refine ⟨?_, rfl, fun p => ?_, ?_, ?_⟩
  · rw [he]
    exact Dev.get_set_same d (protIx g) sub v
  · simp only [← Dev.mem_groupOutlets]
    exact prot_eachN_discardProt (d.set (protIx g) sub v) _ p
  · rw [he]
    exact ((KeepsObjs.refl _ d).set (by simp) hs v).of_objs_eq rfl
  · rw [he]
    rfl

end

/-- Settles O40: a state or a measurement at its end, a clear and a setting each leave what the equation of their meaning gives; a comparator's
setting discards by induction over the outlets of its group. -/
theorem insulationAndClearing : Obligations.InsulationAndClearing := by
  unfold Obligations.InsulationAndClearing
  refine ⟨?switch, ?measure, ?latch, ?trip, ?automatic, ?settings⟩
  case switch =>
    intro s o hr hs ht
    refine completes_onRun rfl hr ?_
    rw [insSwitch_due hs ht]
    simp only [Dev.prot_setProt, true_and]
    exact ⟨fun p hp => Dev.prot_setProt_ne _ _ _ hp, rfl⟩
  case measure =>
    intro s o hr hs ht i
    refine ⟨fun hu => completes_onRun rfl hr ?low, fun hu hdiff hdet hvn hdiv hlt hwarn => completes_onRun rfl hr ?good⟩
    case low =>
      rw [insMeasure_low hs ht hu]
      refine ⟨?_, ?_, ?_, ?_, ?_, rfl⟩
      · rw [Dev.bitO_setBitO, Dev.bitO_setBitO]
        rfl
      · rw [Dev.bitO_setBitO]
        rfl
      · exact congrArg (fun r : ProtRec => r.ins.state) (Dev.prot_setProt s.dev o _)
      · exact congrArg (fun r : ProtRec => r.ins.start) (Dev.prot_setProt s.dev o _)
      · exact (((KeepsObjs.refl _ s.dev).setProt o _).setBitO (by simp) (by decide) 2 true).setBitO (by simp) (by decide) 3 false
    case good =>
      have hriso : (resistance (s.dev.get (insIx o) 4) i.det (i.vp1 * i.u2) : Int) = s.dev.get (insIx o) 4 * i.det / (i.vp1 * i.u2) :=
        resistance_finite hdet hdiv hlt
      generalize hrn : resistance (s.dev.get (insIx o) 4) i.det (i.vp1 * i.u2) = rn at hriso
      have hover : s.dev.get (insIx o) 7 * s.dev.ratedV o < rn := by
        rw [← Int.ofNat_lt, Int.natCast_mul, hriso]
        exact hwarn
      rw [insMeasure_normal hs ht hu hdiff hdet hvn hrn hover]
      obtain ⟨hp, hn, hiso, hstatus, hcount⟩ := s.dev.get_insMeasured o 0xFFFFFFFF rn rn (lvl := 1) (by decide)
      exact ⟨hp, (congrArg Nat.cast hn).trans hriso, (congrArg Nat.cast hiso).trans hriso, hstatus, hcount,
        congrArg (fun r : ProtRec => r.ins.faults) (Dev.prot_setProt _ _ _), congrArg (fun r : ProtRec => r.ins.passed) (Dev.prot_setProt _ _ _),
        (s.dev.keepsObjs_insMeasured o _ _ _ _).setProt o _, (s.dev.onlyObjs_insMeasured o _ _ _ _).setProt o _⟩
  case latch =>
    intro s role g h
    refine completes_onDev (f := writeProt role g 0x26 1) rfl ?_
    rw [writeProt, writeObj_of_accepts h, effProt_clearLatch]
    exact ⟨fun j => Dev.bitO_setBitO _ _ _ _ _ j, rfl, Dev.grp_setGrp _ _ _,
      (((KeepsObjs.refl _ s.dev).setBitO (by simp) (by decide) 0 false).of_objs_eq rfl).answer 0, rfl⟩
  case trip =>
    intro s role o
    refine ⟨fun h => completes_onDev (f := writeProt role o 0x15 1) rfl ?cleared,
      fun h hstep hb => completes_onDev (f := writeProt role o 0x15 1) rfl ?refused⟩
    case cleared =>
      rw [writeProt, writeObj_of_accepts h, effProt_clearTrip]
      exact ⟨Dev.get_set_same _ _ _ _, rfl, ((KeepsObjs.refl _ s.dev).set (by simp) (by decide) 0).answer 0, rfl⟩
    case refused =>
      have hst := writeStatus_of_range h.2 8
      rw [writeProt, protRules_openSession hstep hb, writeObj_refused _ _ _ _ _ _ _ h.1 (by rw [hst]; decide), hst]
      rfl
  case automatic =>
    intro s o hr hh hf hb hc
    refine completes_onRun rfl hr ?_
    rw [autoClear_due hh hf hb hc]
    exact ⟨Dev.get_set_same _ _ _ _, (KeepsObjs.refl _ s.dev).set (by simp) (by decide) 0, rfl⟩
  case settings =>
    intro s role o sub v
    have ho := o.isLt
    refine ⟨fun h _ hs => completes_onDev (f := writeProt role o sub v) rfl ?outlet,
      fun h hlo hhi => completes_onDev (f := writeProt role o sub v) rfl ?group, fun h => completes_onDev (f := writeIns role o sub v) rfl ?insulation⟩
    case outlet =>
      rw [writeProt, writeObj_of_accepts h, effProt_outletSetting o v hs]
      exact discardProt_set s.dev o (protIx o) v (by omega)
    case group =>
      rw [writeProt, writeObj_of_accepts h, effProt_groupSetting o v hlo hhi]
      exact groupSetting s.dev o v (by omega)
    case insulation =>
      rw [writeIns, writeObj_of_accepts h]
      exact discardProt_set s.dev o (insIx o) v (sub_lt_of_accepts_fault (by unfold insIx; omega) (by unfold insIx; omega) h)

end Sys2Proof.Machine
end
